-- ==== Sys2Proof/Word.lean ====
section
/-! DEFINITION. Words and bytes: the byte type, little-endian fields (00, R9), two's complement, saturation and
the sparse tables that hold the large memories and register files. -/
namespace Sys2Proof

/-- One byte of a packet, a memory or an image. -/
abbrev Byte := BitVec 8

/-- The `n` bytes of `v`, least significant first (R9). -/
def leBytes : Nat → Nat → List Byte
  | 0, _ => []
  | n + 1, v => BitVec.ofNat 8 v :: leBytes n (v / 256)

/-- The number that a little-endian byte string spells (R9). -/
def leNat : List Byte → Nat
  | [] => 0
  | b :: bs => b.toNat + 256 * leNat bs

/-- Bytes `off .. off + n - 1` of a byte string. -/
def slice (bs : List Byte) (off n : Nat) : List Byte := (bs.drop off).take n

/-- The unsigned little-endian field of `n` bytes at `off`. -/
def u (bs : List Byte) (off n : Nat) : Nat := leNat (slice bs off n)

/-- The value of the `w`-bit two's complement number whose bits are `v`. -/
def toSigned (w v : Nat) : Int :=
  let m := v % 2 ^ w
  if m < 2 ^ (w - 1) then (m : Int) else (m : Int) - (2 ^ w : Nat)

/-- The `w` bits of `i` in two's complement. -/
def ofSigned (w : Nat) (i : Int) : Nat := (i % ((2 ^ w : Nat) : Int)).toNat

/-- The signed little-endian field of `n` bytes at `off`. -/
def sfld (bs : List Byte) (off n : Nat) : Int := toSigned (8 * n) (u bs off n)

/-- Bits `lo .. lo + n - 1` of a number. -/
def bits (v lo n : Nat) : Nat := v / 2 ^ lo % 2 ^ n

/-- Bit `i` of a number. -/
def bitOf (v i : Nat) : Bool := v / 2 ^ i % 2 = 1

/-- One or zero for a truth value. -/
def ofBool (b : Bool) : Nat := if b then 1 else 0

/-- The number `v` with bit `i` set or cleared. -/
def setBit (v i : Nat) (b : Bool) : Nat :=
  if bitOf v i = b then v else if b then v + 2 ^ i else v - 2 ^ i

/-- A counter of `w` bits that adds `n` and stays at its largest value. -/
def satAdd (w c n : Nat) : Nat := min (c + n) (2 ^ w - 1)

/-- A 32-bit saturating counter, one more. -/
def inc32 (c : Nat) : Nat := satAdd 32 c 1

/-- An integer limited to the range of a signed `w`-bit number. -/
def satSigned (w : Nat) (i : Int) : Int :=
  max (-(2 ^ (w - 1) : Nat)) (min i ((2 ^ (w - 1) : Nat) - 1))

/-- An integer limited to a range. -/
def clampI (lo hi i : Int) : Int := max lo (min i hi)

/-- The quotient rounded up. -/
def ceilDiv (a b : Nat) : Nat := (a + b - 1) / b

/-- `v` rounded up to a multiple of `g`. -/
def roundUp (v g : Nat) : Nat := ceilDiv v g * g

/-- The integer nearest to `a / b`, a half rounded away from zero. -/
def roundDiv (a : Int) (b : Nat) : Int :=
  if 0 ≤ a then ((2 * a.toNat + b) / (2 * b) : Nat) else -((2 * (-a).toNat + b) / (2 * b) : Nat)

/-- The integer nearest to `a / 2^n`, a half rounded up (arithmetic shift after adding half). -/
def shiftRound (a : Int) (n : Nat) : Int :=
  match n with
  | 0 => a
  | k + 1 => (a + (2 ^ k : Nat)) / ((2 ^ (k + 1) : Nat) : Int)

/-- The integer nearest to `a / 2^n`, a half rounded to the even neighbour. -/
def shiftRoundEven (a : Int) (n : Nat) : Int :=
  match n with
  | 0 => a
  | k + 1 =>
    let q := a / ((2 ^ (k + 1) : Nat) : Int)
    let r := a - q * ((2 ^ (k + 1) : Nat) : Int)
    let h : Int := (2 ^ k : Nat)
    if r < h then q else if h < r then q + 1 else if q % 2 = 0 then q else q + 1

/-- Pads a byte string with zeros to a multiple of four (a result length is a multiple of 4, R38). -/
def pad4 (bs : List Byte) : List Byte := bs ++ List.replicate ((4 - bs.length % 4) % 4) 0

/-- A byte string cut or zero-extended to exactly `n` bytes. -/
def fit (n : Nat) (bs : List Byte) : List Byte := bs.take n ++ List.replicate (n - bs.length) 0

/-- The `n` zero bytes of a reserved field. -/
def zeros (n : Nat) : List Byte := List.replicate n 0

/-- Are all the bytes zero? -/
def allZero (bs : List Byte) : Bool := bs.all (· == 0)

/-! Sparse tables: pairs of a key and a value, keys strictly rising, no entry equal to what an unlisted key reads
as. `d` is that value. -/

/-- What a sparse table reads at key `k`; an unlisted key reads as `d`. -/
def tget {α : Type} (d : α) : List (Nat × α) → Nat → α
  | [], _ => d
  | (i, v) :: t, k => if i = k then v else tget d t k

/-- A sparse table without key `k`. -/
def terase {α : Type} : List (Nat × α) → Nat → List (Nat × α)
  | [], _ => []
  | (i, v) :: t, k => if i = k then t else if i < k then (i, v) :: terase t k else (i, v) :: t

/-- A sparse table with `v` at key `k`, in key order. -/
def tins {α : Type} : List (Nat × α) → Nat → α → List (Nat × α)
  | [], k, v => [(k, v)]
  | (i, w) :: t, k, v =>
    if i < k then (i, w) :: tins t k v else if i = k then (k, v) :: t else (k, v) :: (i, w) :: t

/-- A sparse table that reads as `v` at key `k`: writing the unlisted value removes the entry. -/
def tput {α : Type} [DecidableEq α] (d : α) (t : List (Nat × α)) (k : Nat) (v : α) : List (Nat × α) :=
  if v = d then terase t k else tins t k v

/-- A sparse table with its entry at `k` changed by `f`. -/
def tmod {α : Type} [DecidableEq α] (d : α) (t : List (Nat × α)) (k : Nat) (f : α → α) : List (Nat × α) :=
  tput d t k (f (tget d t k))

/-- Writes consecutive values from key `k` on. -/
def tputs {α : Type} [DecidableEq α] (d : α) (t : List (Nat × α)) (k : Nat) : List α → List (Nat × α)
  | [] => t
  | v :: vs => tputs d (tput d t k v) (k + 1) vs

/-- Reads `n` consecutive values from key `k` on. -/
def tgets {α : Type} (d : α) (t : List (Nat × α)) (k : Nat) : Nat → List α
  | 0 => []
  | n + 1 => tget d t k :: tgets d t (k + 1) n

/-- The canonical form: keys strictly rising and no entry equal to the unlisted value. -/
def twf {α : Type} [DecidableEq α] (d : α) : List (Nat × α) → Bool
  | [] => true
  | (i, v) :: t => decide (v ≠ d) && (match t with | [] => true | (j, _) :: _ => decide (i < j)) && twf d t

/-- A list with its element `i` replaced (unchanged where there is none). -/
def lput {α : Type} : List α → Nat → α → List α
  | [], _, _ => []
  | _ :: t, 0, v => v :: t
  | x :: t, n + 1, v => x :: lput t n v

/-- The element `i` of a list, or `d` where there is none. -/
def lget {α : Type} (d : α) : List α → Nat → α
  | [], _ => d
  | x :: _, 0 => x
  | _ :: t, n + 1 => lget d t n

end Sys2Proof
end

