-- ==== Sys2Proof/Syntax.lean ====
section
/-! DEFINITION. The commands the block takes: one constructor of `Instr` for each row of spec/opcode_table.json.
A row with an opcode is a packet that has reached the device with that opcode and has passed steps 1 to 3 of R40 (its
CRC, version and length are right); every other row is an event of a transport, a pin, a link or an engine, with what
it brings from outside as operands. -/
namespace Sys2Proof

/-- The source of a packet: a port and one of its sequence streams (R34). -/
inductive Src where
  | ring (n : Fin 8)
  | mailbox
  | array (p : Fin 4)
  | mgmt
  deriving DecidableEq, Repr

/-- The port number of R34: 0 HOST, 1 to 4 the array ports, 5 MGMT. -/
def Src.port : Src → Nat
  | .ring _ => 0
  | .mailbox => 0
  | .array p => p.val + 1
  | .mgmt => 5

/-- The stream number within the port (R34). -/
def Src.stream : Src → Nat
  | .ring n => n.val
  | .mailbox => 8
  | .array _ => 0
  | .mgmt => 0

/-- A number for each of the fourteen streams. -/
def Src.key (s : Src) : Nat := s.port * 16 + s.stream

/-- The source that a port and a stream number name, if there is one. -/
def Src.ofNums (port stream : Nat) : Option Src :=
  if port = 0 then
    if h : stream < 8 then some (.ring ⟨stream, h⟩) else if stream = 8 then some .mailbox else none
  else if port = 5 then if stream = 0 then some .mgmt else none
  else if h : port - 1 < 4 then if stream = 0 then some (.array ⟨port - 1, h⟩) else none
  else none

/-- A request packet without its opcode (R35): FLAGS, TAG, OBJECT, SEQ and the parameter bytes, which hold the TIMED
prefix and the token where the flags announce them. -/
structure Req where
  src : Src
  flags : BitVec 8
  tag : BitVec 16
  object : BitVec 32
  seq : BitVec 32
  params : List Byte
  deriving DecidableEq, Repr

/-- A complex sample: the I and Q values. -/
structure Iq where
  i : Int
  q : Int
  deriving DecidableEq, Repr

/-- A stretch of an ADC line as the converter delivers it: the line, the number of the first ADC sample (R286) and the 12-bit codes (R285). What no
stretch of a command brings is missing. -/
structure AdcIn where
  line : Nat
  first : Nat
  codes : List (BitVec 12)
  deriving DecidableEq, Repr

/-- One sample of a DDC or decimated stream: its value, and whether it is over range or missing (R131, R134, R285). -/
structure RoSample where
  i : Int
  q : Int
  ovr : Bool
  missing : Bool
  deriving DecidableEq, Repr

/-- A write to one of the two registers of the BAR2 window (R64). -/
inductive WinWrite where
  | ctl (value : BitVec 32)
  | base (value : BitVec 64)
  deriving DecidableEq, Repr

/-- An access of the host to mapped memory: a read of some bytes or a write. -/
inductive MemAccess where
  | read (len : Nat)
  | write (data : List Byte)
  deriving DecidableEq, Repr

/-- What met the data of an uncorrectable error (R531): nothing yet, a step word or parameter entry, a feedback-core word, the integration of
the correlation plan, the open windows of a demodulator, a DMA channel, or a consumer that counts missing data on its own; or the error was
one that its code corrected (R165, R528). -/
inductive Lost where
  | no
  | word
  | plan
  | demod (q : Fin 16) (f : Fin 32)
  | dma (n : Fin 16)
  | other
  | corrected
  deriving DecidableEq, Repr

/-- What a window monitor watches (R400): a rail, or the on-die regulator of an island, numbered as the clocks number it: 0 to 15 as in R5, 16 + p the core
island and 33 + p the synthesis island of physical Quire p. -/
inductive Rail where
  | rail (n : Fin 11)
  | regulator (i : Fin 50)
  deriving DecidableEq, Repr

/-- What a window monitor has seen outside its window, and for how many µs without a break (R400, R414). -/
structure Excursion where
  rail : Rail
  us : Nat
  deriving DecidableEq, Repr

/-- The level of a pin, and for how many ns it has been there (R402). -/
structure PinSpan where
  low : Bool
  ns : Nat
  deriving DecidableEq, Repr

/-- A flash operation that ends (R75, R567): one on a slot, or the erasures of OWNER_RELEASE. -/
inductive FlashWork where
  | slot (i : Fin 131)
  | release
  deriving DecidableEq, Repr

/-- A TIME frame as it arrives: what is wrong with its characters is told by `whole`; the characters between the start and
the end character; and the instant at which its start character crossed the land, in 2^-16 ns of device time (R351). -/
structure TimeFrame where
  whole : Bool
  bytes : List Byte
  stamp : Nat
  deriving DecidableEq, Repr

/-- The commands, in the order of spec/opcode_table.json. -/
inductive Instr where
  /-- DEV_NOP (opcode 0x0000), R72: Returns its parameters unchanged as the result. -/
  | devNop (r : Req)
  /-- DEV_INFO (opcode 0x0001), R72: Returns BAR0 identification bytes 0x00 to 0x3F. -/
  | devInfo (r : Req)
  /-- DEV_STATUS (opcode 0x0002), R72: Returns the device status block: DEVSTAT, CAUSE, the time snapshot, QBIND and QSTAT. -/
  | devStatus (r : Req)
  /-- SESSION_OPEN (opcode 0x0003), R72: Takes the packet with any SEQ, sets the stream's expected SEQ, discards the stored reply and aborts any partial chain. -/
  | sessionOpen (r : Req)
  /-- SESSION_CLOSE (opcode 0x0004), R72: Returns the sequence stream to its reset state. -/
  | sessionClose (r : Req)
  /-- DEV_DEADLINE_SET (opcode 0x0005), R54: Sets the deadline and the deferral deadline of one opcode class. -/
  | devDeadlineSet (r : Req)
  /-- DEV_DEADLINE_GET (opcode 0x0006), R72: Returns the deadline and the deferral deadline of one opcode class. -/
  | devDeadlineGet (r : Req)
  /-- DEV_RESTART (opcode 0x0007), R30: In ENDPAPER with every safety cause cleared, restarts the device into BOOT. -/
  | devRestart (r : Req)
  /-- DEV_ENDPAPER_ENTER (opcode 0x0008), R72: Puts the device into ENDPAPER and records REASON in CAUSE with KIND 9. -/
  | devEndpaperEnter (r : Req)
  /-- DEV_ADDR_SET (opcode 0x0009), R72: Sets the device address until VAUX is lost. -/
  | devAddrSet (r : Req)
  /-- CMD_ABORT (opcode 0x000A), R72: Ends a TIMED or ACCEPTED command that has not reached its point of no return, or a chain that has not started. -/
  | cmdAbort (r : Req)
  /-- PORT_STATS_GET (opcode 0x000B), R72: Returns the eight packet counters of one port and stream. -/
  | portStatsGet (r : Req)
  /-- IMAGE_INFO (opcode 0x0100), R74: Returns the validity, length, version, signer and hash of a flash slot. -/
  | imageInfo (r : Req)
  /-- IMAGE_WRITE_BEGIN (opcode 0x0101), R75: Erases the target slot, or the older copy of a two-copy slot, and opens it for writing. -/
  | imageWriteBegin (r : Req)
  /-- IMAGE_WRITE_DATA (opcode 0x0102), R75: Writes image bytes at an offset in the open slot. -/
  | imageWriteData (r : Req)
  /-- IMAGE_COMMIT (opcode 0x0103), R558: Checks the image's hash, signature and rollback counter and marks the slot valid. -/
  | imageCommit (r : Req)
  /-- IMAGE_ERASE (opcode 0x0104), R75: Erases a one-copy flash slot. -/
  | imageErase (r : Req)
  /-- CONFIG_APPLY (opcode 0x0105), R77: Checks and applies the device or Quire section of an owner configuration image and locks its RWL fields. -/
  | configApply (r : Req)
  /-- PERS_SET (opcode 0x0106), R27: Requests a personality change of a logical Quire, optionally together with a configuration slot. -/
  | persSet (r : Req)
  /-- PERS_GET (opcode 0x0107), R78: Returns the QBIND entry, the controlling port and the pending personality. -/
  | persGet (r : Req)
  /-- QUIRE_RELEASE (opcode 0x0108), R78: Clears the controlling port of a Quire. -/
  | quireRelease (r : Req)
  /-- PERS_CHANGE_COMPLETE, R27: A pending personality change takes effect at its boundary once the islands, the configuration and any service action are ready. -/
  | persChangeComplete (q : Fin 16)
  /-- DEADLINE_EXPIRY, R54: A command has no first reply by its deadline and ends with E_TIMEOUT. -/
  | deadlineExpiry (src : Src) (tag : BitVec 16) (seq : BitVec 32)
  /-- DEFERRAL_DEADLINE_EXPIRY, R54: An ACCEPTED command has no DEFERRED reply by its deferral deadline and ends with E_TIMEOUT, rolled back where its chapter says so. -/
  | deferralDeadlineExpiry (src : Src) (tag : BitVec 16) (seq : BitVec 32)
  /-- CHAIN_TIMEOUT, R47: The last packet of a chain has not arrived 1 ms after the first, and every packet of the chain gets E_TIMEOUT. -/
  | chainTimeout (src : Src)
  /-- TIMED_EXECUTE, R44: The execution time of a pending TIMED command arrives and the command takes effect. -/
  | timedExecute
  /-- SQ_TAIL, R61: A submission doorbell write makes the device fetch entries while it can reserve completion entries for them. -/
  | sqTail (n : Fin 8) (value : BitVec 32) (entries : List (Option (List Byte)))
  /-- CQ_HEAD, R61: A completion doorbell write frees completion entries and lets held fetching resume. -/
  | cqHead (n : Fin 8) (value : BitVec 32) (entries : List (Option (List Byte)))
  /-- RING_CFG, R58: A write to RING_CFG enables, disables or configures a ring pair, or is refused with CFG_ERR. -/
  | ringCfg (n : Fin 8) (value : BitVec 32)
  /-- POST, R63: Writing POST to MBX_CTL makes Endpaper take the packet in the mailbox request buffer. -/
  | post
  /-- READY_CLEAR, R63: Clearing READY frees the mailbox reply buffer and lets the next DEFERRED reply appear. -/
  | readyClear
  /-- WIN_CTL, R64: A write to WIN_CTL or WIN_BASE maps the BAR2 window onto a DRAM region, or leaves EN at 0. -/
  | winCtl (w : WinWrite)
  /-- BAR2_ACCESS, R64: A host access through the BAR2 window reads or writes the mapped region, or sets WIN_ERR beyond its end. -/
  | bar2Access (off : Nat) (acc : MemAccess)
  /-- GO, R66: Writing GO to DMA_CTL checks the channel's region and alignment and starts the transfer. -/
  | dmaGo (n : Fin 16) (ctl : BitVec 32)
  /-- STOP, R65: Writing STOP to DMA_CTL stops the channel at the next 64-byte boundary. -/
  | dmaStop (n : Fin 16) (ctl : BitVec 32) (data : List Byte)
  /-- DMA_PASS_COMPLETE, R65: A DMA pass completes, DONE_COUNT advances, and a circular channel restarts. -/
  | dmaPassComplete (n : Fin 16) (data : List Byte) (hostOk : Bool)
  /-- REG_WRITE, R11: A write to a register without a row of its own, acting by its access code. -/
  | regWrite (off : Nat) (data : List Byte)
  /-- BLOCK_WRITE, R67: An SMBus block write delivers one request fragment to the packet assembler. -/
  | blockWrite (data : List Byte) (pecOk : Bool)
  /-- BLOCK_READ, R67: An SMBus block read returns the next reply fragment. -/
  | blockRead
  /-- READ_BYTE, R67: An SMBus read byte returns the reply-pending, store-full and assembly-error bits and clears the error bit. -/
  | readByte
  /-- ALERT_RESPONSE, R68: The device answers the SMBus Alert Response Address with its own address. -/
  | alertResponse
  /-- ASSEMBLY_TIMEOUT, R68: The next fragment does not arrive within 100 ms, so the partial request is discarded and the assembly error bit is set. -/
  | assemblyTimeout
  /-- SYN_LINES_SET (opcode 0x0200), R116: Declares a Quire's DAC lines and their line-sum shifts. -/
  | synLinesSet (r : Req)
  /-- SYN_LINES_GET (opcode 0x0201), R116: Returns the declared lines and their saturation counters. -/
  | synLinesGet (r : Req)
  /-- CTX_SET (opcode 0x0202), R117: Sets the masked fields of a context, applied at the next coarse tick. -/
  | ctxSet (r : Req)
  /-- CTX_GET (opcode 0x0203), R117: Returns the fields of a context. -/
  | ctxGet (r : Req)
  /-- CTX_PHASE_SHIFT (opcode 0x0204), R118: Adds DELTA to a context's PHASE. -/
  | ctxPhaseShift (r : Req)
  /-- ENV_WRITE (opcode 0x0205), R119: Writes samples into the envelope library. -/
  | envWrite (r : Req)
  /-- ENV_READ (opcode 0x0206), R119: Reads samples from the envelope library. -/
  | envRead (r : Req)
  /-- PARAM_WRITE (opcode 0x0207), R120: Writes parameter-list entries of a Folio. -/
  | paramWrite (r : Req)
  /-- PARAM_READ (opcode 0x0208), R120: Reads parameter-list entries of a Folio. -/
  | paramRead (r : Req)
  /-- SEQ_LOAD (opcode 0x0209), R121: Checks step words one by one and writes them into the static region. -/
  | seqLoad (r : Req)
  /-- SEQ_READ (opcode 0x020A), R121: Reads step words. -/
  | seqRead (r : Req)
  /-- SEQ_CONFIG (opcode 0x020B), R122: Sets a Folio's sequencer mode, policies, trigger and event channels. -/
  | seqConfig (r : Req)
  /-- SEQ_RING_SET (opcode 0x020C), R112: Sets a Folio's ring region and step stream, at once or at the next wrap. -/
  | seqRingSet (r : Req)
  /-- SEQ_ARM (opcode 0x020D), R124: Checks the reachable static words, clears the Folio's counters, refills the ring and leaves the Folio ARMED. -/
  | seqArm (r : Req)
  /-- SEQ_GO (opcode 0x020E), R125: Starts ARMED Folios so that their first step begins at START. -/
  | seqGo (r : Req)
  /-- SEQ_STOP (opcode 0x020F), R126: Halts Folios with cause 2 at the next boundary or coarse tick. -/
  | seqStop (r : Req)
  /-- SEQ_STATUS (opcode 0x0210), R127: Returns a Folio's status, program counter and counters. -/
  | seqStatus (r : Req)
  /-- FOLIO_REG_SET (opcode 0x0211), R128: Writes one of FR0 to FR3 at a coarse tick. -/
  | folioRegSet (r : Req)
  /-- HALT, R90: The HALT step word stops the Folio and silences its generators from the boundary. -/
  | stepHalt (q : Fin 16) (f : Fin 32)
  /-- PLAY, R91: A timed step plays generators A and B for DUR samples. -/
  | stepPlay (q : Fin 16) (f : Fin 32)
  /-- HOLD, R90: A timed step holds the last envelope values, or is silent. -/
  | stepHold (q : Fin 16) (f : Fin 32)
  /-- ACQUIRE, R93: A timed step plays generator A and makes a demodulator window pending. -/
  | stepAcquire (q : Fin 16) (f : Fin 32)
  /-- WAIT_UNTIL, R99: A timed step silences the generators until an absolute, relative or grid time. -/
  | stepWaitUntil (q : Fin 16) (f : Fin 32)
  /-- WAIT_EVENT, R100: A timed step silences the generators and watches an event channel. -/
  | stepWaitEvent (q : Fin 16) (f : Fin 32)
  /-- BRANCH, R98: A zero-time step continues at a target when its condition holds at the decision point. -/
  | stepBranch (q : Fin 16) (f : Fin 32)
  /-- JUMP, R93: A zero-time step continues at a static target or at the ring resume point. -/
  | stepJump (q : Fin 16) (f : Fin 32)
  /-- REPEAT_BEGIN, R103: A zero-time step opens a hardware repeat level. -/
  | stepRepeatBegin (q : Fin 16) (f : Fin 32)
  /-- REPEAT_END, R103: A zero-time step closes or iterates the innermost repeat level. -/
  | stepRepeatEnd (q : Fin 16) (f : Fin 32)
  /-- SET_FRAME, R94: A zero-time step loads context fields from a parameter-list entry. -/
  | stepSetFrame (q : Fin 16) (f : Fin 32)
  /-- SHIFT_PHASE, R93: A zero-time step adds DELTA or a register to a context's PHASE. -/
  | stepShiftPhase (q : Fin 16) (f : Fin 32)
  /-- EMIT_EVENT, R95: A zero-time step fires an event channel at the boundary. -/
  | stepEmitEvent (q : Fin 16) (f : Fin 32)
  /-- WAIT_UNTIL_END, R99: The start time of a WAIT_UNTIL arrives and the next timed step starts. -/
  | waitUntilEnd (q : Fin 16) (f : Fin 32)
  /-- WAIT_EVENT_TIMEOUT, R100: No event arrives within DUR, so TIMEOUT is set and the Folio halts or continues. -/
  | waitEventTimeout (q : Fin 16) (f : Fin 32)
  /-- TRIG_TIMEOUT, R101: The STEPWAIT trigger timeout expires, setting TIMEOUT and halting or proceeding per TO_POLICY. -/
  | trigTimeout (q : Fin 16) (f : Fin 32)
  /-- LATE, R110: A timed step cannot issue on schedule, so the generators output zero and the Folio halts or fast-forwards. -/
  | folioLate (q : Fin 16) (f : Fin 32)
  /-- FAST_FORWARD_RESUME, R110: Output resumes at the first timed step scheduled at least 64 samples ahead. -/
  | fastForwardResume (q : Fin 16) (f : Fin 32)
  /-- REFILL_FETCH, R109: The refill engine fetches a 64-word chunk of the stream into a Folio ring that has 64 free words. -/
  | refillFetch (q : Fin 16) (f : Fin 32)
  /-- RING_WRAP, R112: The sequencer wraps from word 2,047 and a pending ring change takes effect. -/
  | ringWrap (q : Fin 16) (f : Fin 32)
  /-- SEQUENCE_BOUNDARY, R113: A Quire reaches a sequence boundary and pending binding, personality, configuration and route changes act. -/
  | sequenceBoundary (q : Fin 16)
  /-- RO_ROUTE_SET (opcode 0x0300), R130: Changes a Quire's source slots, at once or at the next sequence boundary. -/
  | roRouteSet (r : Req)
  /-- RO_ROUTE_GET (opcode 0x0301), R154: Returns the source slots in force. -/
  | roRouteGet (r : Req)
  /-- RSET_SET (opcode 0x0302), R155: Writes a read-out set of a demodulator. -/
  | rsetSet (r : Req)
  /-- RSET_GET (opcode 0x0303), R155: Returns a read-out set. -/
  | rsetGet (r : Req)
  /-- DISC_SET (opcode 0x0304), R156: Writes the discriminator parameters of a read-out set. -/
  | discSet (r : Req)
  /-- DISC_GET (opcode 0x0305), R156: Returns the discriminator parameters of a read-out set. -/
  | discGet (r : Req)
  /-- KERNEL_WRITE (opcode 0x0306), R157: Writes taps into the kernel library. -/
  | kernelWrite (r : Req)
  /-- KERNEL_READ (opcode 0x0307), R157: Reads taps from the kernel library. -/
  | kernelRead (r : Req)
  /-- RO_STREAM_SET (opcode 0x0308), R158: Binds or unbinds a DMA channel to the Quire's result stream. -/
  | roStreamSet (r : Req)
  /-- RO_STATUS (opcode 0x0309), R159: Returns a demodulator's latest result and window counters. -/
  | roStatus (r : Req)
  /-- WEAVE_SET (opcode 0x030A), R150: Writes the inactive weave bank, which takes effect at the next sequence boundary. -/
  | weaveSet (r : Req)
  /-- WEAVE_GET (opcode 0x030B), R160: Returns the weave settings in force. -/
  | weaveGet (r : Req)
  /-- COVAR_RUN (opcode 0x030C), R151: Starts a covariance measurement of the member streams on array 5. -/
  | covarRun (r : Req)
  /-- COVAR_READ (opcode 0x030D), R161: Returns one row of the covariance sums. -/
  | covarRead (r : Req)
  /-- COVAR_DONE, R151: The last covariance sample is accumulated and the DEFERRED OK is sent. -/
  | covarDone (q : Fin 16) (x : List AdcIn)
  /-- WINDOW_OPEN, R138: A pending window reaches its first label and opens. -/
  | windowOpen (q : Fin 16) (f : Fin 32)
  /-- WINDOW_END, R142: A window's last tap is integrated, the result is discriminated and the result word is formed. -/
  | windowEnd (q : Fin 16) (f : Fin 32) (x : List AdcIn)
  /-- FB_LOAD (opcode 0x0400), R189: Checks and writes program words into a core's program bank. -/
  | fbLoad (r : Req)
  /-- FB_READ (opcode 0x0401), R192: Reads program words. -/
  | fbRead (r : Req)
  /-- FB_MEM_WRITE (opcode 0x0402), R193: Writes words into X or Y memory through the host port. -/
  | fbMemWrite (r : Req)
  /-- FB_MEM_READ (opcode 0x0403), R193: Reads words from X or Y memory. -/
  | fbMemRead (r : Req)
  /-- FB_CONFIG (opcode 0x0404), R194: Sets a core's FMASK and event bindings. -/
  | fbConfig (r : Req)
  /-- FB_ROUTE_SET (opcode 0x0405), R195: Writes a feedback route entry. -/
  | fbRouteSet (r : Req)
  /-- FB_ROUTE_GET (opcode 0x0406), R195: Returns a route entry and its counters. -/
  | fbRouteGet (r : Req)
  /-- FB_FLAG_OWNER_SET (opcode 0x0407), R196: Sets the owners of the 64 condition flags. -/
  | fbFlagOwnerSet (r : Req)
  /-- FB_FLAG_SET (opcode 0x0408), R197: Writes HOST-owned condition flags at a coarse tick. -/
  | fbFlagSet (r : Req)
  /-- FB_FLAG_GET (opcode 0x0409), R197: Returns flag values, owners and counters. -/
  | fbFlagGet (r : Req)
  /-- FB_START (opcode 0x040A), R198: Starts the named cores at ENTRY in the same cycle. -/
  | fbStart (r : Req)
  /-- FB_STOP (opcode 0x040B), R199: Halts the named cores at the next eligible SAFE, or at once. -/
  | fbStop (r : Req)
  /-- FB_SWAP (opcode 0x040C), R190: Arms a program-bank swap, or performs it at once on a stopped core. -/
  | fbSwap (r : Req)
  /-- FB_STATUS (opcode 0x040D), R201: Returns a core's state, counters and registers. -/
  | fbStatus (r : Req)
  /-- NOP, R170: Core instruction that does nothing for one cycle. -/
  | coreNop (q : Fin 16) (k : Fin 4)
  /-- PAR, R170: Core instruction that performs only the parallel memory moves. -/
  | corePar (q : Fin 16) (k : Fin 4)
  /-- MPY, R167: Core instruction that loads an accumulator with a product, with parallel moves. -/
  | coreMpy (q : Fin 16) (k : Fin 4)
  /-- MAC, R167: Core instruction that adds a product to an accumulator, with parallel moves. -/
  | coreMac (q : Fin 16) (k : Fin 4)
  /-- MSU, R167: Core instruction that subtracts a product from an accumulator, with parallel moves. -/
  | coreMsu (q : Fin 16) (k : Fin 4)
  /-- ADD, R170: Core instruction that adds two D registers. -/
  | coreAdd (q : Fin 16) (k : Fin 4)
  /-- SUB, R170: Core instruction that subtracts two D registers. -/
  | coreSub (q : Fin 16) (k : Fin 4)
  /-- AND, R170: Core instruction that ANDs two D registers. -/
  | coreAnd (q : Fin 16) (k : Fin 4)
  /-- OR, R170: Core instruction that ORs two D registers. -/
  | coreOr (q : Fin 16) (k : Fin 4)
  /-- XOR, R170: Core instruction that XORs two D registers. -/
  | coreXor (q : Fin 16) (k : Fin 4)
  /-- SHL, R170: Core instruction that shifts a register left. -/
  | coreShl (q : Fin 16) (k : Fin 4)
  /-- ASR, R170: Core instruction that shifts a register arithmetically right. -/
  | coreAsr (q : Fin 16) (k : Fin 4)
  /-- LSR, R170: Core instruction that shifts a register logically right. -/
  | coreLsr (q : Fin 16) (k : Fin 4)
  /-- CMP, R170: Core instruction that sets flags from SA − SB. -/
  | coreCmp (q : Fin 16) (k : Fin 4)
  /-- MOV, R170: Core instruction that copies a register. -/
  | coreMov (q : Fin 16) (k : Fin 4)
  /-- MIN, R170: Core instruction that takes the signed minimum. -/
  | coreMin (q : Fin 16) (k : Fin 4)
  /-- MAX, R170: Core instruction that takes the signed maximum. -/
  | coreMax (q : Fin 16) (k : Fin 4)
  /-- LDI, R170: Core instruction that loads an immediate value. -/
  | coreLdi (q : Fin 16) (k : Fin 4)
  /-- ADDI, R170: Core instruction that adds an immediate value. -/
  | coreAddi (q : Fin 16) (k : Fin 4)
  /-- ANDI, R170: Core instruction that ANDs an immediate value. -/
  | coreAndi (q : Fin 16) (k : Fin 4)
  /-- ORI, R170: Core instruction that ORs an immediate value. -/
  | coreOri (q : Fin 16) (k : Fin 4)
  /-- XORI, R170: Core instruction that XORs an immediate value. -/
  | coreXori (q : Fin 16) (k : Fin 4)
  /-- CMPI, R170: Core instruction that sets flags from SA − IMM. -/
  | coreCmpi (q : Fin 16) (k : Fin 4)
  /-- TSTI, R170: Core instruction that sets Z and N from SA AND IMM. -/
  | coreTsti (q : Fin 16) (k : Fin 4)
  /-- SHLI, R170: Core instruction that shifts left by an immediate amount. -/
  | coreShli (q : Fin 16) (k : Fin 4)
  /-- ASRI, R170: Core instruction that shifts arithmetically right by an immediate amount. -/
  | coreAsri (q : Fin 16) (k : Fin 4)
  /-- CLRA, R171: ACC operation that clears an accumulator. -/
  | coreClra (q : Fin 16) (k : Fin 4)
  /-- MVDA, R171: ACC operation that loads an accumulator with D shifted left by 16. -/
  | coreMvda (q : Fin 16) (k : Fin 4)
  /-- MVAH, R171: ACC operation that moves accumulator bits [31:16] to D. -/
  | coreMvah (q : Fin 16) (k : Fin 4)
  /-- MVAL, R171: ACC operation that moves accumulator bits [15:0] to D. -/
  | coreMval (q : Fin 16) (k : Fin 4)
  /-- SHA, R171: ACC operation that shifts an accumulator arithmetically by SH. -/
  | coreSha (q : Fin 16) (k : Fin 4)
  /-- RNDA, R171: ACC operation that rounds an accumulator at bit 16. -/
  | coreRnda (q : Fin 16) (k : Fin 4)
  /-- SATA, R171: ACC operation that clamps an accumulator to 32 bits and sets S on a clamp. -/
  | coreSata (q : Fin 16) (k : Fin 4)
  /-- ADDA, R171: ACC operation that adds the other accumulator. -/
  | coreAdda (q : Fin 16) (k : Fin 4)
  /-- SUBA, R171: ACC operation that subtracts the other accumulator. -/
  | coreSuba (q : Fin 16) (k : Fin 4)
  /-- TSTA, R171: ACC operation that sets Z and N from an accumulator. -/
  | coreTsta (q : Fin 16) (k : Fin 4)
  /-- MVDL, R171: ACC operation that loads an accumulator with sign-extended D. -/
  | coreMvdl (q : Fin 16) (k : Fin 4)
  /-- LD, R170: Core instruction that loads D from X or Y memory through a cursor or an absolute address. -/
  | coreLd (q : Fin 16) (k : Fin 4)
  /-- ST, R170: Core instruction that stores D into X or Y memory. -/
  | coreSt (q : Fin 16) (k : Fin 4)
  /-- MOVS, R172: Core instruction that moves between D and a special register. -/
  | coreMovs (q : Fin 16) (k : Fin 4)
  /-- LDS, R172: Core instruction that loads a special register with an immediate value. -/
  | coreLds (q : Fin 16) (k : Fin 4)
  /-- B, R173: Core branch that, when COND holds, jumps and closes the repeat levels it leaves. -/
  | coreB (q : Fin 16) (k : Fin 4)
  /-- CALL, R173: Core instruction that pushes PC and jumps, faulting on overflow. -/
  | coreCall (q : Fin 16) (k : Fin 4)
  /-- RET, R173: Core instruction that pops PC, faulting on underflow. -/
  | coreRet (q : Fin 16) (k : Fin 4)
  /-- REP, R174: Core instruction that opens a block repeat level, or skips the body on a count of zero. -/
  | coreRep (q : Fin 16) (k : Fin 4)
  /-- WAIT, R175: Core instruction that waits for a result, an event latch, a frame or a count of cycles. -/
  | coreWait (q : Fin 16) (k : Fin 4)
  /-- WAIT_RELEASE, R175: A waited condition becomes true and the core resumes two cycles later. -/
  | coreWaitRelease (q : Fin 16) (k : Fin 4)
  /-- WAIT_TIMEOUT, R175: A WAIT's COUNT expires, T is set and the core resumes. -/
  | coreWaitTimeout (q : Fin 16) (k : Fin 4)
  /-- POP, R178: Core instruction that moves the oldest result or frame entry into RL or the IFD registers. -/
  | corePop (q : Fin 16) (k : Fin 4)
  /-- FLAG, R181: Core instruction that writes one condition flag three cycles later. -/
  | coreFlag (q : Fin 16) (k : Fin 4)
  /-- FLAGG, R181: Core instruction that writes masked flags of a group. -/
  | coreFlagg (q : Fin 16) (k : Fin 4)
  /-- SENDF, R184: Core instruction that builds a feedback frame and queues it for launch. -/
  | coreSendf (q : Fin 16) (k : Fin 4)
  /-- EVOUT, R179: Core instruction that fires an event output. -/
  | coreEvout (q : Fin 16) (k : Fin 4)
  /-- SAFE, R190: Core safe point at which an armed swap or an FB_STOP MODE 0 takes effect. -/
  | coreSafe (q : Fin 16) (k : Fin 4)
  /-- CORE_HALT, R176: The HALT instruction halts the core with cause 1. -/
  | coreHalt (q : Fin 16) (k : Fin 4)
  /-- SEND_QUEUE_LAUNCH, R184: The send queue launches its next frame onto the feedback lane or an array port. -/
  | sendQueueLaunch (q : Fin 16)
  /-- FEEDBACK_FRAME_RECEIVE, R186: A feedback frame reaches its Quire, writes the flags it owns and enters the inbound FIFO. -/
  | feedbackFrameReceive (q : Fin 16)
  /-- INTAKE_SRC_SET (opcode 0x0500), R208: Binds a lane source or an internal ADC source to an input, or unbinds it. -/
  | intakeSrcSet (r : Req)
  /-- INTAKE_SRC_GET (opcode 0x0501), R228: Returns an input's binding. -/
  | intakeSrcGet (r : Req)
  /-- INTAKE_DELAY_SET (opcode 0x0502), R215: Sets an input's DELAY and FRAC from a time label. -/
  | intakeDelaySet (r : Req)
  /-- CHAN_SET (opcode 0x0503), R230: Configures a Quire's channeliser. -/
  | chanSet (r : Req)
  /-- CHAN_GET (opcode 0x0504), R230: Returns the channeliser configuration. -/
  | chanGet (r : Req)
  /-- CHAN_COEF_WRITE (opcode 0x0505), R231: Writes filter-bank coefficients. -/
  | chanCoefWrite (r : Req)
  /-- CHAN_COEF_READ (opcode 0x0506), R231: Reads filter-bank coefficients. -/
  | chanCoefRead (r : Req)
  /-- GAIN_WRITE (opcode 0x0507), R221: Writes requantiser gains that take effect at the next block. -/
  | gainWrite (r : Req)
  /-- GAIN_READ (opcode 0x0508), R232: Returns the gains in force. -/
  | gainRead (r : Req)
  /-- CT_SET (opcode 0x0509), R225: Sets the corner-turn configuration, or defers a change of B or ALIGN to the next wrap. -/
  | ctSet (r : Req)
  /-- CT_GET (opcode 0x050A), R233: Returns the corner-turn configuration and block number. -/
  | ctGet (r : Req)
  /-- INTAKE_STATS_GET (opcode 0x050B), R234: Returns, and optionally clears, input or lane counters. -/
  | intakeStatsGet (r : Req)
  /-- INTAKE_FRAME, R207: A received intake frame is checked whole and its samples are staged, or it is dropped with a reason. -/
  | intakeFrame (lane : Fin 72) (whole : Bool) (bytes : List Byte)
  /-- CHANNELISE, R212: At its due time the channeliser processes a plan sample, filters, requantises and writes the corner-turn row. -/
  | channelise (q : Fin 16) (x : List AdcIn)
  /-- BLOCK_RELEASE, R224: Every channeliser has written a block's last row and the half is released for reading. -/
  | blockRelease
  /-- CT_WRAP, R225: The writer returns to half 0 and a deferred CT_SET takes effect. -/
  | ctWrap
  /-- CORR_PLAN_SET (opcode 0x0600), R267: Sets the correlation plan. -/
  | corrPlanSet (r : Req)
  /-- CORR_PLAN_GET (opcode 0x0601), R267: Returns the correlation plan. -/
  | corrPlanGet (r : Req)
  /-- CORR_EXPORT_SET (opcode 0x0602), R268: Sets the export paths and order of the correlation plan. -/
  | corrExportSet (r : Req)
  /-- CORR_START (opcode 0x0603), R269: Checks and starts the correlation plan at the first integration boundary at or after START. -/
  | corrStart (r : Req)
  /-- CORR_STOP (opcode 0x0604), R270: Stops the correlation plan at the next integration or block boundary. -/
  | corrStop (r : Req)
  /-- BEAM_PLAN_SET (opcode 0x0605), R271: Sets the beam plan. -/
  | beamPlanSet (r : Req)
  /-- BEAM_PLAN_GET (opcode 0x0606), R271: Returns the beam plan. -/
  | beamPlanGet (r : Req)
  /-- BEAM_EXPORT_SET (opcode 0x0607), R272: Assigns beam ranges to export paths. -/
  | beamExportSet (r : Req)
  /-- BEAM_WEIGHT_COMMIT (opcode 0x0608), R273: Makes a weight bank active at the next block boundary. -/
  | beamWeightCommit (r : Req)
  /-- BEAM_START (opcode 0x0609), R269: Checks and starts the beam plan at the first block boundary at or after START. -/
  | beamStart (r : Req)
  /-- BEAM_STOP (opcode 0x060A), R270: Stops the beam plan at the next block boundary. -/
  | beamStop (r : Req)
  /-- PLAN_STATUS (opcode 0x060B), R274: Returns a plan's state and counters. -/
  | planStatus (r : Req)
  /-- BLOCK_BOUNDARY, R238: A block boundary arrives; integrations start or end and deferred plan changes and redistributions apply. -/
  | blockBoundary
  /-- CHANNEL_ADD, R246: A channel's partial sums are added into the DRAM visibility accumulators. -/
  | channelAdd
  /-- INTEGRATION_FINISHED, R252: An integration's last channel is added and its export starts. -/
  | integrationFinished
  /-- EXPORT_COMPLETE, R254: The END record of an export is sent and EV_INTEG fires. -/
  | exportComplete
  /-- OVERRUN, R252: An export is not complete before the next add into its buffer and is truncated. -/
  | overrun (sentRecords : Nat)
  /-- BEAM_BLOCK_OUTPUT, R261: A block's beams are requantised and sent as BEAM records on their paths. -/
  | beamBlockOutput
  /-- DAC_LINE_SET (opcode 0x0700), R279: Sets DAC line fields from a coarse tick. -/
  | dacLineSet (r : Req)
  /-- DAC_LINE_GET (opcode 0x0701), R294: Returns DAC line fields. -/
  | dacLineGet (r : Req)
  /-- RF_MUTE_SET (opcode 0x0702), R295: Sets HOST on the named lines and starts their mute sequences. -/
  | rfMuteSet (r : Req)
  /-- RF_UNMUTE (opcode 0x0703), R282: Clears HOST on the named lines and returns the lines still muted. -/
  | rfUnmute (r : Req)
  /-- RF_MUTE_POLICY_SET (opcode 0x0704), R296: Sets the RF_MUTE_N filter, LATCH and NONCOH_ALLOW. -/
  | rfMutePolicySet (r : Req)
  /-- ADC_LINE_SET (opcode 0x0705), R287: Sets ADC line fields at once, at a boundary, or with blanking. -/
  | adcLineSet (r : Req)
  /-- ADC_LINE_GET (opcode 0x0706), R297: Returns ADC line fields. -/
  | adcLineGet (r : Req)
  /-- CONV_CAL_POLICY_SET (opcode 0x0707), R298: Sets a line's calibration policy and period. -/
  | convCalPolicySet (r : Req)
  /-- CONV_CAL_RUN (opcode 0x0708), R298: Runs a line calibration now. -/
  | convCalRun (r : Req)
  /-- CONV_STATUS (opcode 0x0709), R299: Returns a line's mute causes, state and counters. -/
  | convStatus (r : Req)
  /-- RF_MUTE_N, R283: An edge of the RF_MUTE_N pin, after its glitch filter, sets or clears PIN on every line. -/
  | rfMuteN (low : Bool)
  /-- MUTE_TAKE_EFFECT, R281: A mute cause takes effect at the mute point and the DAC input goes to code 0. -/
  | muteTakeEffect (n : Fin 40)
  /-- SWITCH_OPEN, R281: 50 ns into a mute, the output switch opens. -/
  | switchOpen (n : Fin 40)
  /-- UNMUTE_RESUME, R282: After the last mute cause clears, the DAC input resumes at the first tick 256 ns later. -/
  | unmuteResume (n : Fin 40)
  /-- LINE_SETTLE, R279: A line that left OFF has settled after 50 µs, so a waiting unmute may act. -/
  | lineSettle (n : Fin 40)
  /-- THERM, R280: A chiplet temperature crosses 110 °C or falls below 100 °C, setting or clearing THERM. -/
  | therm (c : Fin 4) (milliC : Int)
  /-- DAC_BACKGROUND_CAL, R289: A PERIOD expires and the observation converter measures a DAC line. -/
  | dacBackgroundCal (n : Fin 40) (m1 m2 : List Int)
  /-- REFERENCE_CALIBRATION, R290: A due ADC reference calibration runs for 24 µs when its policy allows. -/
  | referenceCalibration (n : Fin 16) (m1 m2 : List Int)
  /-- LANE_CFG_SET (opcode 0x0800), R331: Sets a group's or port's rate, retry interval and enabled lanes. -/
  | laneCfgSet (r : Req)
  /-- LANE_STATUS (opcode 0x0801), R332: Returns, and optionally clears, a lane's state and counters. -/
  | laneStatus (r : Req)
  /-- LANE_EQ_SET (opcode 0x0802), R333: Overrides a lane's equalisation entry. -/
  | laneEqSet (r : Req)
  /-- LANE_TEST (opcode 0x0803), R334: Runs a PRBS31 test on a lane. -/
  | laneTest (r : Req)
  /-- LANE_SWAP (opcode 0x0804), R335: Moves an ACTIVE lane's traffic to a usable spare. -/
  | laneSwap (r : Req)
  /-- PORT_CFG_SET (opcode 0x0805), R336: Sets a port's peer deadline and rights. -/
  | portCfgSet (r : Req)
  /-- PORT_STATUS (opcode 0x0806), R337: Returns a port's state and counters. -/
  | portStatus (r : Req)
  /-- LINK_TOPO_SET (opcode 0x0807), R338: Sets the mesh dimensions, torus bits and LEVEL_CAP. -/
  | linkTopoSet (r : Req)
  /-- LINK_TOPO_GET (opcode 0x0808), R338: Returns the topology. -/
  | linkTopoGet (r : Req)
  /-- PEER_CMD_SEND (opcode 0x0809), R339: Sends a packet to the port's partner or as a broadcast. -/
  | peerCmdSend (r : Req)
  /-- BULK_RX_SET (opcode 0x080A), R340: Sets a bulk receive binding. -/
  | bulkRxSet (r : Req)
  /-- BULK_RX_STATUS (opcode 0x080B), R341: Returns a binding's counters and write position. -/
  | bulkRxStatus (r : Req)
  /-- LANE_UP, R307: A TRAINING lane sees 64 consecutive valid ordered sets and goes UP. -/
  | laneUp (n : Fin 92)
  /-- TRAINING_TIMEOUT, R307: A lane does not reach UP within 2 ms and goes to TEST or ABSENT. -/
  | trainingTimeout (n : Fin 92)
  /-- LANE_ERROR, R308: An UP lane loses signal, exceeds its error count or misses commas, and goes to TEST. -/
  | laneError (n : Fin 92) (code disp : Nat) (silent : Bool)
  /-- LANE_SELFTEST_DONE, R309: The PRBS31 loopback self-test of a lane ends with a pass or a fail. -/
  | laneSelftestDone (n : Fin 92) (errors : Nat)
  /-- LANE_RETRY, R307: RETRY_MS after entering ABSENT, the lane re-enters TRAINING. -/
  | laneRetry (n : Fin 92)
  /-- SKIP_SEND, R303: A SKIP falls due after 1,024 slots and is sent. -/
  | skipSend (n : Fin 92) (adjusted : Nat)
  /-- IDENT_SEND, R304: 4,096 slots after the previous IDENT, the lane sends an IDENT sequence. -/
  | identSend (n : Fin 92)
  /-- IDENT_RECEIVE, R324: A received IDENT updates the lane's partner, flags and usability. -/
  | identReceive (n : Fin 92) (bytes : List Byte)
  /-- IDENT_STALE, R324: No valid IDENT arrives for 100 µs and the lane stops being usable. -/
  | identStale (n : Fin 20)
  /-- CMD_FRAME_RECEIVE, R318: A received CMD frame is checked and its packet passed to the port's stream, or handled as a broadcast. -/
  | cmdFrameReceive (p : Fin 4) (whole : Bool) (bytes : List Byte)
  /-- FEEDBACK_FRAME_LINK, R318: A received FEEDBACK frame is checked and delivered to the feedback lane or relayed. -/
  | feedbackFrameLink (p : Fin 4) (whole : Bool) (bytes : List Byte)
  /-- BULK_FRAME_RECEIVE, R329: A received BULK record is written through its binding, relayed, or dropped. -/
  | bulkFrameReceive (p : Fin 4) (whole : Bool) (bytes : List Byte)
  /-- EVENT_FRAME_RECEIVE, R509: A received EVENT frame fires its channel when an IMPORT entry matches. -/
  | eventFrameReceive (p : Fin 4) (whole : Bool) (bytes : List Byte)
  /-- REORDER_HOLD_EXPIRY, R317: A frame's predecessor is missing for 20 µs, so the gap is counted and the held frames are delivered. -/
  | reorderHoldExpiry (p : Fin 4)
  /-- PEER_DEADLINE, R327: A peer command has no reply within the peer deadline and ends with E_PEER_DOWN. -/
  | peerDeadline (p : Fin 4) (index : BitVec 32)
  /-- TIME_GET (opcode 0x0900), R371: Returns device time, role and flags. -/
  | timeGet (r : Req)
  /-- TIME_SET (opcode 0x0901), R372: Steps a grandmaster or free-running device to NEWTIME at AT. -/
  | timeSet (r : Req)
  /-- TIME_CFG_SET (opcode 0x0902), R373: Sets Thread priority, intervals, ports and step policy. -/
  | timeCfgSet (r : Req)
  /-- TIME_CFG_GET (opcode 0x0903), R373: Returns the Thread configuration. -/
  | timeCfgGet (r : Req)
  /-- TIME_STATUS (opcode 0x0904), R374: Returns the role, grandmaster, estimate and step state. -/
  | timeStatus (r : Req)
  /-- TIME_STEP_AUTH (opcode 0x0905), R375: Authorises the pending step named by STEP_ID within MAXABS. -/
  | timeStepAuth (r : Req)
  /-- TIME_ASYM_SET (opcode 0x0906), R376: Sets a port's asymmetry constant and restarts its estimate set. -/
  | timeAsymSet (r : Req)
  /-- TIME_PORT_STATUS (opcode 0x0907), R377: Returns a port's Thread role and measurements. -/
  | timePortStatus (r : Req)
  /-- TIME_TXTS_READ (opcode 0x0908), R378: Returns and removes slot transmit timestamps. -/
  | timeTxtsRead (r : Req)
  /-- TRIG_SET (opcode 0x0909), R379: Sets a TRIG pin's input or output schedule. -/
  | trigSet (r : Req)
  /-- TRIG_GET (opcode 0x090A), R379: Returns a TRIG pin's settings and counters. -/
  | trigGet (r : Req)
  /-- TRIG_IN_READ (opcode 0x090B), R380: Returns queued TRIG input stamps. -/
  | trigInRead (r : Req)
  /-- LAUNCH_SET (opcode 0x090C), R381: Places a frame in a launch slot for time T. -/
  | launchSet (r : Req)
  /-- LAUNCH_CANCEL (opcode 0x090D), R381: Cancels a launch slot before its launch. -/
  | launchCancel (r : Req)
  /-- LAUNCH_STATUS (opcode 0x090E), R381: Returns the slot states and counters. -/
  | launchStatus (r : Req)
  /-- ANNOUNCE, R353: A received ANNOUNCE updates the port's vector and master selection. -/
  | timeAnnounce (p : Fin 4) (x : TimeFrame)
  /-- SYNC, R350: A received SYNC is stamped with t2. -/
  | timeSync (p : Fin 4) (x : TimeFrame)
  /-- FOLLOW_UP, R350: A received FOLLOW_UP delivers t1 and makes the device send DELAY_REQ. -/
  | timeFollowUp (p : Fin 4) (x : TimeFrame)
  /-- DELAY_REQ, R350: A received DELAY_REQ is stamped with t4 and answered with DELAY_RESP. -/
  | timeDelayReq (p : Fin 4) (x : TimeFrame)
  /-- DELAY_RESP, R352: A received DELAY_RESP completes an exchange and updates the offset estimate. -/
  | timeDelayResp (p : Fin 4) (x : TimeFrame)
  /-- SYNC_INTERVAL, R350: Every 2^SYNC_LOG2 µs a downstream port sends SYNC and then FOLLOW_UP. -/
  | syncInterval (p : Fin 4)
  /-- ANNOUNCE_INTERVAL, R350: Every 1 ms the device sends ANNOUNCE on every enabled port. -/
  | announceInterval
  /-- MASTER_TIMEOUT, R350: A port entry expires 3 ms after its last ANNOUNCE. -/
  | masterTimeout (p : Fin 4)
  /-- WITHDRAW_IGNORE_END, R355: The 4 ms during which the old grandmaster is ignored end. -/
  | withdrawIgnoreEnd (p : Fin 4)
  /-- EXCH_LOST, R350: An exchange is not complete 100 µs after its SYNC and is discarded. -/
  | exchLost (p : Fin 4)
  /-- STEP_APPLY, R360: An authorised or automatic step moves device time and halts, cancels and ends time-dependent work. -/
  | stepApply
  /-- TRIG_PULSE, R365: A scheduled TRIG output pulse becomes active at the land and fires its channel. -/
  | trigPulse (n : Fin 16)
  /-- TRIG_INPUT_EDGE, R366: An accepted TRIG input edge is stamped and queued, and fires its channel. -/
  | trigInputEdge (n : Fin 16) (high : Bool) (time : Nat)
  /-- LAUNCH, R368: A slot frame leaves at its time T and its actual time is queued. -/
  | slotLaunch (p : Fin 4) (j : Fin 4)
  /-- REF_CFG_SET (opcode 0x0A00), R408: Sets EREF_EN, REF_POLICY, HOLDOVER_MAX and EV_REF. -/
  | refCfgSet (r : Req)
  /-- REF_STATUS (opcode 0x0A01), R409: Returns the selected reference and qualification data, clearing TIME_GAP. -/
  | refStatus (r : Req)
  /-- FREQ_MEASURE (opcode 0x0A02), R410: Counts one clock against another over a window. -/
  | freqMeasure (r : Req)
  /-- FREQ_MEASURE_DONE, R410: The measurement window ends and the DEFERRED reply carries the ratio. -/
  | freqMeasureDone (count : Option Nat)
  /-- ISLAND_STATUS (opcode 0x0A03), R411: Returns an island's state, gates and counters. -/
  | islandStatus (r : Req)
  /-- DVFS_SET (opcode 0x0A04), R412: Sets a core island's DVFS mode and fixed point. -/
  | dvfsSet (r : Req)
  /-- DVFS_GET (opcode 0x0A05), R412: Returns a core island's DVFS state. -/
  | dvfsGet (r : Req)
  /-- ENERGY_READ (opcode 0x0A06), R413: Returns every energy and work counter taken at one tick. -/
  | energyRead (r : Req)
  /-- WORK_READ (opcode 0x0A07), R413: Returns one Quire's work counters. -/
  | workRead (r : Req)
  /-- SUPPLY_CFG_SET (opcode 0x0A08), R414: Sets the supply-monitor filter. -/
  | supplyCfgSet (r : Req)
  /-- SUPPLY_STATUS (opcode 0x0A09), R414: Returns rail status and voltages, clearing LOST. -/
  | supplyStatus (r : Req)
  /-- QUALIFICATION_WINDOW_END, R384: A candidate's counting window ends and qualifies or disqualifies it. -/
  | qualificationWindowEnd (isRec locked : Bool) (nom : Fin 4) (ppb : Int)
  /-- MISSING_EDGE, R385: A candidate shows no edge for 2 µs; EREF is lost or REC becomes REC-HOLD. -/
  | missingEdge (isRec output : Bool)
  /-- HOLDOVER_MAX_EXPIRY, R386: REC-HOLD has lasted HOLDOVER_MAX, so the device switches to EREF or applies REF_POLICY. -/
  | holdoverMaxExpiry
  /-- LIVE_SWITCH, R388: The device switches hitlessly between two live reference sources. -/
  | liveSwitch
  /-- FORCED_RELEASE, R389: A switch away from a lost source resets and releases the reference-rooted islands. -/
  | forcedRelease (gap : Nat)
  /-- SLIP, R393: A pinned Stitch's occupancy deviates, so it is counted, re-centred and tested. -/
  | slip (k : Fin 50)
  /-- PIN_ENTER, R394: At the first coarse tick after reaching P1 with a need, the QS–QC crossing becomes pinned. -/
  | pinEnter (q : Fin 16)
  /-- DVFS_TRANSITION_DONE, R396: A core island's DVFS transition completes and the next one toward the target begins. -/
  | dvfsTransitionDone (p : Fin 17)
  /-- VAUX_GOOD, R30: VAUX becomes good and the device enters BOOT. -/
  | vauxGood
  /-- VAUX_LOSS, R30: VAUX is lost and the device goes OFF. -/
  | vauxLoss
  /-- RAIL_GOOD, R400: A rail becomes good and the islands it feeds are released. -/
  | railGood (r : Rail)
  /-- RAIL_LOSS, R400: A rail stays outside its window for FILTER µs and is declared lost. -/
  | railLoss (e : Excursion)
  /-- BOOT_SUPPLY_TIMEOUT, R30: Supplies are not all good within the boot supply timeout and the device enters ENDPAPER. -/
  | bootSupplyTimeout
  /-- SYS_RST_N, R402: The reset pin resets every island except EPI, TMU and BSC and re-enters BOOT. -/
  | sysRstN (p : PinSpan)
  /-- PERST_N, R402: The PCIe reset pin resets the host interface. -/
  | perstN (low : Bool)
  /-- FIRMWARE_VERIFIED, R403: The boot firmware slot verifies and starts, or no slot verifies and the device enters ENDPAPER. -/
  | firmwareVerified
  /-- BOOT_SELFTEST_COMPLETE, R403: The Quire self-tests complete and the device enters RUN or REDUCED. -/
  | bootSelftestComplete (failed : List (Nat × Nat))
  /-- TEMPERATURE_SHUTDOWN, R589: A die sensor reads above 115 °C for 1 ms and the device enters ENDPAPER. -/
  | temperatureShutdown (milliC : List Int)
  /-- HARDWARE_THERMAL_TRIP, R589: A sensor exceeds 125 °C and hardware powers down the hot parts and enters ENDPAPER. -/
  | hardwareThermalTrip (milliC : List Int)
  /-- DRAM_REFRESH_DOUBLE, R589: A DRAM stack crosses 85 °C and its refresh rate doubles. -/
  | dramRefreshDouble (stack : Fin 2) (above : Bool)
  /-- CAP_CONFIG (opcode 0x0B00), R433: Configures a capture unit, or defers a change of NSEG to the next wrap. -/
  | capConfig (r : Req)
  /-- CAP_CONFIG_GET (opcode 0x0B01), R433: Returns a capture unit's configuration. -/
  | capConfigGet (r : Req)
  /-- CAP_TRIG_SET (opcode 0x0B02), R434: Sets a capture unit's trigger. -/
  | capTrigSet (r : Req)
  /-- CAP_MASK_WRITE (opcode 0x0B03), R435: Writes mask table entries. -/
  | capMaskWrite (r : Req)
  /-- CAP_ARM (opcode 0x0B04), R436: Checks and arms a capture unit. -/
  | capArm (r : Req)
  /-- CAP_FORCE (opcode 0x0B05), R423: Forces a capture trigger. -/
  | capForce (r : Req)
  /-- CAP_STOP (opcode 0x0B06), R436: Stops a capture unit. -/
  | capStop (r : Req)
  /-- CAP_STATUS (opcode 0x0B07), R437: Returns a capture unit's status. -/
  | capStatus (r : Req)
  /-- CAP_HDR_READ (opcode 0x0B08), R438: Returns segment headers from DRAM. -/
  | capHdrRead (r : Req)
  /-- CAPTURE_TRIGGER, R422: An edge or event trigger fires on a source sample and a segment starts. -/
  | captureTrigger (n : Fin 16) (x : List AdcIn)
  /-- SEGMENT_END, R419: A segment's last sample is recorded, its header is written and EV_SEG fires. -/
  | segmentEnd (n : Fin 16) (x : List AdcIn)
  /-- HOLDOFF_END, R425: 160 ns after a segment, the unit accepts triggers again and starts any queued trigger. -/
  | holdoffEnd (n : Fin 16) (x : List AdcIn)
  /-- TIN_INPUT_SET (opcode 0x0C00), R449: Sets a TIN input's threshold, hysteresis, filter and termination. -/
  | tinInputSet (r : Req)
  /-- TIN_INPUT_GET (opcode 0x0C01), R448: Returns a TIN input's settings. -/
  | tinInputGet (r : Req)
  /-- TIN_CAL_RUN (opcode 0x0C02), R441: Runs a code-density calibration of a delay line. -/
  | tinCalRun (r : Req)
  /-- TIN_CAL_DONE, R441: Both calibration runs finish, and the table is accepted or discarded. -/
  | tinCalDone (n : Fin 8) (hits1 hits2 : List Nat) (milliC : Int)
  /-- TIN_CAL_READ (opcode 0x0C03), R450: Returns bin widths. -/
  | tinCalRead (r : Req)
  /-- TIN_MEAS_SET (opcode 0x0C04), R451: Configures an interval engine. -/
  | tinMeasSet (r : Req)
  /-- TIN_MEAS_START (opcode 0x0C05), R452: Starts an interval engine. -/
  | tinMeasStart (r : Req)
  /-- TIN_MEAS_STOP (opcode 0x0C06), R452: Stops an interval engine. -/
  | tinMeasStop (r : Req)
  /-- TIN_STATS_READ (opcode 0x0C07), R453: Returns measurement statistics. -/
  | tinStatsRead (r : Req)
  /-- TIN_STAMP_READ (opcode 0x0C08), R453: Returns queued stamps. -/
  | tinStampRead (r : Req)
  /-- TIN_STATUS (opcode 0x0C09), R454: Returns engine and calibration status. -/
  | tinStatus (r : Req)
  /-- TIN_EDGE, R440: An accepted TIN edge is stamped and used by its engine. -/
  | tinEdge (src : Fin 15) (rising : Bool) (tclk taps held : Nat) (milliC : Int)
  /-- NO_STOP, R442: A start edge has no stop edge within TIMEOUT and is dropped. -/
  | noStop (n : Fin 8)
  /-- BIAS_SET (opcode 0x0D00), R483: Sets a bias channel's target and slew. -/
  | biasSet (r : Req)
  /-- BIAS_GET (opcode 0x0D01), R483: Returns a bias channel's codes and settings. -/
  | biasGet (r : Req)
  /-- BIAS_RANGE_SET (opcode 0x0D02), R464: Changes a channel's range under hold, or via 0 V. -/
  | biasRangeSet (r : Req)
  /-- RANGE_RELEASE, R464: 20 updates after the range switch the land is released and the DEFERRED OK is sent. -/
  | rangeRelease (n : Fin 64)
  /-- BIAS_GEN_SET (opcode 0x0D03), R485: Starts a bias waveform generator. -/
  | biasGenSet (r : Req)
  /-- BIAS_TABLE_WRITE (opcode 0x0D04), R486: Writes a bias waveform table. -/
  | biasTableWrite (r : Req)
  /-- BIAS_SAFETY_SET (opcode 0x0D05), R465: Writes a channel's live safety fields. -/
  | biasSafetySet (r : Req)
  /-- BIAS_STATUS (opcode 0x0D06), R487: Returns a bias channel's state and counters. -/
  | biasStatus (r : Req)
  /-- BIAS_CAL_RUN (opcode 0x0D07), R488: Runs a trim or two-point calibration of a bias channel. -/
  | biasCalRun (r : Req)
  /-- BIAS_UPDATE, R457: Every microsecond each channel computes its source, limit, correction, slew and deglitch, and updates its DAC. -/
  | biasUpdate
  /-- BCLR_N, R467: The clear pin, after its filter, makes every channel CLEARED and drives it to its clear value. -/
  | bclrN (low : Bool)
  /-- OVERLOAD, R468: An output stays in current limit for 100 µs, so OVERLOAD is set and the alarm fires. -/
  | biasOverload (n : Fin 64) (on : Bool)
  /-- POWER_UP_RAMP, R466: Once its safe-code entry is valid and the bias rails are good, a channel's clamp opens and it slews to SAFE. -/
  | powerUpRamp (n : Fin 64)
  /-- MON_CH_SET (opcode 0x0E00), R490: Sets a monitor channel's range, limits, action and coefficients. -/
  | monChSet (r : Req)
  /-- MON_CH_GET (opcode 0x0E01), R490: Returns a monitor channel's settings. -/
  | monChGet (r : Req)
  /-- MON_SEQ_WRITE (opcode 0x0E02), R491: Writes the shadow host sequence table. -/
  | monSeqWrite (r : Req)
  /-- MON_SEQ_RUN (opcode 0x0E03), R491: Starts or stops the host sequence. -/
  | monSeqRun (r : Req)
  /-- MON_READ (opcode 0x0E04), R492: Returns a channel's latest value. -/
  | monRead (r : Req)
  /-- MON_INJECT (opcode 0x0E05), R474: Queues an urgent conversion of a channel. -/
  | monInject (r : Req)
  /-- MON_SYSCAL (opcode 0x0E06), R476: Runs one step of an external-channel system calibration. -/
  | monSyscal (r : Req)
  /-- CAL_CFG_SET (opcode 0x0E07), R494: Sets a calibration class's step and interval, and the band-gap tolerance. -/
  | calCfgSet (r : Req)
  /-- CAL_STATUS (opcode 0x0E08), R494: Returns calibration controller status. -/
  | calStatus (r : Req)
  /-- MON_STATUS (opcode 0x0E09), R495: Returns monitor sequence status. -/
  | monStatus (r : Req)
  /-- SYSTEM_SLOT, R472: A system slot converts the next channel of the fixed round. -/
  | systemSlot (x : BitVec 18)
  /-- HOST_SLOT, R473: A host slot runs a pending injection or the next conversion of the host sequence. -/
  | hostSlot (x : BitVec 18)
  /-- BANDGAP_COMPARE, R481: Every 10 s band-gap A is compared with B, suspending or resuming the controller. -/
  | bandgapCompare (a b : BitVec 18)
  /-- CORRECTION_INTERVAL, R480: At each INTERVAL boundary every in-force correction moves toward its target by at most STEP. -/
  | correctionInterval (k : Fin 4)
  /-- EV_CHAN_SET (opcode 0x0F00), R513: Frees an event channel, hands it over or sets SECURE. -/
  | evChanSet (r : Req)
  /-- EV_CHAN_GET (opcode 0x0F01), R513: Returns a channel's owner, masks and entries. -/
  | evChanGet (r : Req)
  /-- EV_ROUTE_ADD (opcode 0x0F02), R514: Adds a device entry to a channel. -/
  | evRouteAdd (r : Req)
  /-- EV_ROUTE_DEL (opcode 0x0F03), R514: Removes a device entry from a channel. -/
  | evRouteDel (r : Req)
  /-- EV_FIRE (opcode 0x0F04), R508: Fires the channels in MASK from the executing island. -/
  | evFire (r : Req)
  /-- EV_STATUS (opcode 0x0F05), R516: Returns, and optionally clears, a channel's counters. -/
  | evStatus (r : Req)
  /-- EV_COINC_READ (opcode 0x0F06), R516: Returns and removes coincidence log entries. -/
  | evCoincRead (r : Req)
  /-- EV_FIRE_WRITE, R507: A BAR0 write to EV_FIREr fires the channels of its set bits that have a SOFT entry for port 0. -/
  | evFireWrite (r : Fin 8) (value : BitVec 32)
  /-- EVENT_ACTIVATION, R503: An event channel activates at a task at the end of a destination cycle. -/
  | eventActivation (k more : Nat)
  /-- FAULT_LOG_READ (opcode 0x1000), R549: Returns fault log entries. -/
  | faultLogRead (r : Req)
  /-- FAULT_POLICY_SET (opcode 0x1001), R549: Sets TRANS_LIMIT, TRANS_WINDOW and EV_FAULT. -/
  | faultPolicySet (r : Req)
  /-- SPARE_STATUS (opcode 0x1002), R550: Returns binding, spare and per-Quire fault status. -/
  | spareStatus (r : Req)
  /-- SELFTEST_RUN (opcode 0x1003), R551: Runs a unit's targeted self-test without changing fault state. -/
  | selftestRun (r : Req)
  /-- UNIT_READMIT (opcode 0x1004), R535: Tests a retired unit and returns it to service on a pass. -/
  | unitReadmit (r : Req)
  /-- UNIT_RETIRE (opcode 0x1005), R551: Retires a healthy unit for service. -/
  | unitRetire (r : Req)
  /-- QUIRE_MIGRATE (opcode 0x1006), R541: Starts moving a logical Quire's work to the spare physical Quire. -/
  | quireMigrate (r : Req)
  /-- PRECOPY_DONE, R542: A pre-copy pass completes and another pass runs or the switch is awaited. -/
  | precopyDone (dirty : Nat)
  /-- MIGRATION_SWITCH, R542: At an eligible tick the dirty lines and registers are copied and QBIND.PQ and SPQ change. -/
  | migrationSwitch
  /-- FW_ACTIVATE (opcode 0x1007), R545: Stages the other firmware slot and hands over at the next command boundary. -/
  | fwActivate (r : Req)
  /-- HANDOVER_PAUSE, R545: At a command boundary, command processing pauses and the new firmware starts from the state record. -/
  | handoverPause
  /-- HANDOVER_READY_TIMEOUT, R545: The new firmware is not ready within 150 µs and the old firmware resumes. -/
  | handoverReadyTimeout (host : List (List (Option (List Byte))))
  /-- FW_CONFIRM (opcode 0x1008), R546: Makes the trial firmware the active slot and advances counter 0. -/
  | fwConfirm (r : Req)
  /-- TRIAL_TIMEOUT, R546: CONFIRM_S passes without FW_CONFIRM and the device hands back to the old slot. -/
  | trialTimeout
  /-- WATCHDOG_EXPIRY, R546: The watchdog expires during the trial and the device hands back. -/
  | watchdogExpiry
  /-- LOCKSTEP_MISMATCH, R546: The lockstep pair mismatches during the trial and the device hands back. -/
  | lockstepMismatch
  /-- MEM_ALLOC (opcode 0x1009), R540: Allocates and zeroes a DRAM region. -/
  | memAlloc (r : Req)
  /-- MEM_FREE (opcode 0x100A), R540: Frees a DRAM region and ends its users. -/
  | memFree (r : Req)
  /-- MEM_INFO (opcode 0x100B), R553: Returns a region's size, owner and users. -/
  | memInfo (r : Req)
  /-- ERROR_DETECTED, R527: A detected error is logged, contained and its unit's targeted self-test starts. -/
  | errorDetected (kind : Fin 14) (phys detail : BitVec 32) (lost : Lost) (page : Option (Nat × Nat))
  /-- SELFTEST_DONE, R527: A targeted self-test ends, the outcome is logged and the unit is returned, spared or retired. -/
  | selftestDone (k : Nat) (pass : Bool)
  /-- SPARE_MOVE, R533: At a boundary a Folio or column is moved into or back from its spare. -/
  | spareMove (k : Nat)
  /-- ID_CERT_GET (opcode 0x1100), R573: Returns bytes of a device certificate. -/
  | idCertGet (r : Req)
  /-- TRUST_NONCE_GET (opcode 0x1101), R562: Issues a fresh nonce to the stream. -/
  | trustNonceGet (r : Req)
  /-- NONCE_EXPIRY, R562: An outstanding nonce expires 300 s after issue. -/
  | nonceExpiry (src : Src)
  /-- COLOPHON_GET (opcode 0x1102), R569: Returns a signed attestation report. -/
  | colophonGet (r : Req)
  /-- CFG_LOG_READ (opcode 0x1103), R570: Returns configuration apply log entries. -/
  | cfgLogRead (r : Req)
  /-- OWNER_KEY_SET (opcode 0x1104), R565: Writes an owner public key into a slot. -/
  | ownerKeySet (r : Req)
  /-- OWNER_KEY_REVOKE (opcode 0x1105), R566: Revokes an owner key slot. -/
  | ownerKeyRevoke (r : Req)
  /-- OWNER_KEY_GET (opcode 0x1106), R573: Returns the key slots. -/
  | ownerKeyGet (r : Req)
  /-- OWNER_RELEASE (opcode 0x1107), R567: Returns the device to the unowned state. -/
  | ownerRelease (r : Req)
  /-- PRIV_SET (opcode 0x1108), R568: Sets a port's privilege. -/
  | privSet (r : Req)
  /-- PRIV_GET (opcode 0x1109), R573: Returns the port privileges. -/
  | privGet (r : Req)
  /-- CTR_ADVANCE (opcode 0x110A), R559: Advances a rollback counter. -/
  | ctrAdvance (r : Req)
  /-- CTR_GET (opcode 0x110B), R573: Returns the rollback counters. -/
  | ctrGet (r : Req)
  /-- DEBUG_UNLOCK (opcode 0x110C), R571: Raises the debug level with a token. -/
  | debugUnlock (r : Req)
  /-- DEBUG_LOCK (opcode 0x110D), R571: Returns the debug level to 0. -/
  | debugLock (r : Req)
  /-- FLASH_OPERATION_DONE, R75: A flash erase or program started by IMAGE_WRITE_BEGIN, IMAGE_COMMIT, IMAGE_ERASE or OWNER_RELEASE finishes, and the slot becomes valid or stays invalid with the DEFERRED reply sent. -/
  | flashOperationDone (w : FlashWork) (ok : Bool)
  /-- REGION_ZEROED, R540: The zeroing of a newly allocated MEMREGION finishes and MEM_ALLOC's DEFERRED OK with the handle is sent. -/
  | regionZeroed (h : Fin 2048)
  /-- LANE_TEST_END, R334: A commanded LANE_TEST reaches its DURATION_MS, the lane leaves TEST for TRAINING, and the DEFERRED OK carries BITS and ERRORS. -/
  | laneTestEnd (n : Fin 92) (errors : Nat)
  /-- FIRMWARE_STAGED, R545: Staging of the other firmware slot finishes, and the state-record import check either fails with FW_STATE_INCOMPAT or passes, arming the hand-over at the next command boundary. -/
  | firmwareStaged (ok : Bool)
  /-- NEW_FIRMWARE_READY, R545: The new firmware becomes ready within 150 µs of the pause, processing resumes, HANDOVER clears and the new firmware sends the DEFERRED OK, putting it on trial. -/
  | newFirmwareReady (host : List (List (Option (List Byte))))
  /-- FABRIC_STALL, R25: A request waits longer than 10 µs at a bulk port, is reported as a fabric stall and increments the port's stall counter. -/
  | fabricStall (port : Fin 26)
  /-- ADC_CAL_DUE, R290: An ADC line's calibration PERIOD elapses, making a reference calibration due, running it at once under POLICY 2, and incrementing CAL_MISSED if one is still due. -/
  | adcCalDue (n : Fin 16)
  /-- BIAS_CHIPLET_FAULT, R469: The bias chiplet's reference, control link or logic checks fail, and the device enters ENDPAPER with CAUSE KIND 4. -/
  | biasChipletFault (on : Bool)
  /-- INT_PLL_LOCK, R391: The internal oscillator's PLL locks, letting the reference-rooted islands held in reset after a forced release to INT (or at boot) be released. -/
  | intPllLock
  deriving DecidableEq, Repr

end Sys2Proof
end

