-- ==== Sys2Proof/Config.lean ====
section
/-! DEFINITION. What an implementation fixes and the spec does not give: identification values, keys and certificates,
the cryptographic functions of 17 and the free values. None of them has a body, so nothing can be proved of their
values. -/
namespace Sys2Proof.Config

/-- REVISION of BAR0 (R56): implementation. -/
opaque revision : BitVec 16
/-- SERIAL of BAR0 (R56): implementation. -/
opaque serial : BitVec 64
/-- The sequence of random nonces of TRUST_NONCE_GET (R562): a free value for each request. -/
opaque nonce : Nat → BitVec 128
/-- Values that the spec leaves open, one for each use; the state counts the uses (field `free` of State). -/
opaque freeValue : Nat → BitVec 64
/-- SHA-384 as a function of the bytes (17; a standard outside the spec). -/
opaque sha384Bits : List Byte → BitVec 384
/-- Whether a P-384 signature verifies: public key, signed bytes, signature (17). -/
opaque verifies : List Byte → List Byte → List Byte → Bool
/-- Whether an uncompressed public key is a valid point on P-384 (R565). -/
opaque pointOnCurve : List Byte → Bool
/-- The vendor image key, and the vendor service key in ROM (R556, R560). -/
opaque vendorKey : List Byte
opaque serviceKey : List Byte
/-- A signature by the identity key (R554, R569). -/
opaque identitySig : List Byte → BitVec 768
/-- The two certificates (R555). -/
opaque certificate : Nat → List Byte
/-- The settings that a section of an owner configuration image makes: opcode, object, parameters (R77). The spec does
not give the format of an image body. Section 16 is the device's, section q that of logical Quire q. -/
opaque imageSection : List Byte → Nat → List (Nat × Nat × List Byte)
/-- The boot supply timeout in seconds, 1 to 600, that a configuration image sets (R30). -/
opaque bootTimeout : List Byte → Option Nat
/-- The SMBus address that a configuration image gives, if it gives one (R67). -/
opaque smbusAddr : List Byte → Option (BitVec 7)

/-- The twiddles of the channeliser's FFT (R217), of a butterfly that spans `m` values, in units of 2^-17, and whether it decimates in time: the spec
gives neither their rounding nor the order of the stages. -/
opaque twiddle : Nat → Nat → BitVec 18 × BitVec 18
opaque fftInTime : Bool

/-- The taps of the fixed filters, newest sample first, and the power of two in whose reciprocal they are given: the DDC's decimator (R285), a Folio's
decimator (R134) and the interpolator of a DAC line (R276; tap 16 i + j serves DAC sample j). The spec bounds their responses and gives no taps. -/
opaque ddcTaps : List Int
opaque ddcScale : Nat
opaque demodTaps : List Int
opaque demodScale : Nat
opaque interpTaps : List Int
opaque interpScale : Nat

/-- The bin table that the calibration at boot gives a delay line of Thread (R445), in 2^-24 ns. -/
opaque bootBins : Nat → List Nat

/-- The GATES word of an island (R411) from its open gates, which Clocks numbers: the spec numbers no bits. -/
opaque gateWord : Nat → List Nat → BitVec 32

/-- VERSION and signature of the images with which a module ships (R591), by IMAGE index. -/
opaque shippedVersion : Nat → BitVec 32
opaque shippedSig : Nat → BitVec 768
/-- The reference value of band-gap A in µV, and the sensor table: its bytes, MON index and y give m°C; both from IMAGE 0x080 (R471, R477),
whose body the spec does not lay out. -/
opaque bgValue : List Byte → Nat
opaque sensorTemp : List Byte → Nat → Int → Int

/-- SHA-384 as 48 octets, first octet most significant. -/
def sha384 (bs : List Byte) : List Byte := (leBytes 48 (sha384Bits bs).toNat).reverse

/-- A signature r ‖ s as 96 octets. -/
def identitySign (bs : List Byte) : List Byte := (leBytes 96 (identitySig bs).toNat).reverse

end Sys2Proof.Config
end

