-- ==== Sys2Proof/Machine/StateLink.lean ====
section
/-! DEFINITION. State of the serial lanes and array links (09) and of device time, Thread and the timed outputs (10). -/
namespace Sys2Proof.Machine

/-! ### Lanes (R300 to R310) -/

/-- Lane states (R306). -/
inductive LState where
  | disabled | training | up | test | absent | faulty
  deriving DecidableEq, Repr

/-- A character of a lane: a control character (R302) or a data one. -/
inductive Chr where
  | k (code : Byte)
  | d (value : Byte)
  deriving DecidableEq, Repr

/-- What a valid IDENT reports (R304). -/
structure Ident where
  addr : Nat
  kind : Nat
  lane : Nat
  level : Nat
  flags : Nat
  rate : Nat
  deriving DecidableEq, Repr

/-- What a transmitter sends outside brackets (R302): a frame, an IDENT, or an ordered set or K28.6 by itself. -/
inductive TxKind where
  | frame | ident | set
  deriving DecidableEq, Repr

/-- Characters that a lane has been given to send outside brackets, from an instant on. -/
structure TxFrame where
  kind : TxKind
  start : Nat
  cs : List Chr
  deriving DecidableEq, Repr

/-- A pre-emption bracket that a lane sends (R315): from when to when, its characters, whether it holds a SKIP set, and for a FEEDBACK frame the LGA cycle in
which the lane was given it (R316). -/
structure TxPre where
  start : Nat
  stop : Nat
  cs : List Chr
  skip : Bool
  cyc : Option Nat
  deriving DecidableEq, Repr

/-- One lane. `since` is when it entered its state, `passed` that a self-test has passed since it was enabled or last left
UP, `fromUp` that TEST was entered from UP, `cmdTest` a commanded test (its end, and whether the far end sends), `usable` and `active` the role
of R324, `joinAt` the LGA cycle in which it last became usable, `left` when it last stopped being usable while ACTIVE and whether a SPARE took over, `eq` the entries of LANE_EQ_SET for each rate, `eqSet` the
settings loaded (R305), `errs` the errors of the last 256 slots (when, how many), `txBits` the line bits sent up to `txFrom`, `txBase` those that
LANE_STATUS has cleared, `skipAt` and `identTx` when it last sent each, `frames` and `pres` what it has been
given to send and has not finished, `rd` the running disparity, positive or not, of all that it has sent up to `rdAt` (R301). -/
structure LaneSt where
  st : LState
  since : Nat
  passed : Bool
  fromUp : Bool
  cmdTest : Option (Nat × Bool)
  ident : Option Ident
  identAt : Nat
  usable : Bool
  active : Bool
  joinAt : Nat
  left : Option (Nat × Bool)
  eq : List (Nat × Nat)
  eqSet : Nat
  eqDefault : Bool
  errs : List (Nat × Nat)
  codeErr : Nat
  dispErr : Nat
  laneErr : Nat
  upCount : Nat
  skipAdj : Nat
  identBad : Nat
  txBits : Nat
  txBase : Nat
  txFrom : Nat
  skipAt : Nat
  identTx : Nat
  frames : List TxFrame
  pres : List TxPre
  rd : Bool
  rdAt : Nat
  deriving DecidableEq, Repr

/-- The settings of a lane without a valid entry: PRE 0, MAIN 48, POST 8, CTLE 6, the taps 0 (R305). -/
def eqFallback : Nat := 48 * 2 ^ 4 + 8 * 2 ^ 10 + 6 * 2 ^ 16

/-- Lane `n` at reset: DISABLED; lanes 0 to 3 of a port have the role ACTIVE, lane 4 SPARE (R324). -/
def LaneSt.reset (n : Nat) : LaneSt :=
  { st := .disabled, since := 0, passed := false, fromUp := false, cmdTest := none, ident := none, identAt := 0, usable := false, joinAt := 0, left := none,
    active := decide (72 ≤ n) && decide ((n - 72) % 5 ≠ 4), eq := [], eqSet := eqFallback, eqDefault := true, errs := [], codeErr := 0, dispErr := 0,
    laneErr := 0, upCount := 0, skipAdj := 0, identBad := 0, txBits := 0, txBase := 0, txFrom := 0, skipAt := 0, identTx := 0, frames := [],
    pres := [], rd := false, rdAt := 0 }

/-- The settings of a group (0 to 3) or a port (4 to 7): rate, retry interval and enabled lanes (R331). -/
structure LaneCfg where
  rate : Nat
  retryMs : Nat
  enmask : Nat
  deriving DecidableEq, Repr

/-- A group or port at reset: 25.0 Gbaud by design choice, RETRY_MS 100 (R307), every lane enabled. -/
def LaneCfg.reset (n : Nat) : LaneCfg := { rate := 2, retryMs := 100, enmask := if n < 4 then 2 ^ 18 - 1 else 31 }

/-! ### Ports (R311 to R341) -/

/-- A peer command that awaits its reply (R327): its number (its first SEQ), the packet as sent, its SEQ, when it was sent, the
partner, and whether it has been resent. -/
structure PeerCmd where
  id : Nat
  packet : List Byte
  seq : Nat
  sentAt : Nat
  addr : Nat
  resent : Bool
  deriving DecidableEq, Repr

/-- A frame that waits for its predecessor, and since when (R317); no bytes stand for one that the receiver has dropped. -/
structure HeldFrame where
  pseq : Nat
  at' : Nat
  bytes : List Byte
  deriving DecidableEq, Repr

/-- The 13 counters of PORT_STATUS, in its order (R337). -/
inductive PCount where
  | framesTx | framesRx | crcErr | aborted | unknownClass | rightDrop | hopDrop | noRoute | notNeighbour | lost | relayDrop
  | noBinding | peerTimeout
  deriving DecidableEq, Repr

/-- The place of a counter in PORT_STATUS. -/
def PCount.idx : PCount → Nat
  | .framesTx => 0 | .framesRx => 1 | .crcErr => 2 | .aborted => 3 | .unknownClass => 4 | .rightDrop => 5 | .hopDrop => 6
  | .noRoute => 7 | .notNeighbour => 8 | .lost => 9 | .relayDrop => 10 | .noBinding => 11 | .peerTimeout => 12

/-- A selection vector (R353). -/
structure TVec where
  prio : Nat
  cls : Nat
  gm : Nat
  steps : Nat
  deriving DecidableEq, Repr

/-- An exchange in progress: its MSEQ, when its SYNC was sent or received, and the stamps taken so far, in 2^-16 ns. -/
structure Exch where
  mseq : Nat
  since : Nat
  t1 : Option Nat
  t2 : Option Nat
  t3 : Option Nat
  deriving DecidableEq, Repr

/-- An entry of a transmit timestamp queue (R363). -/
structure TxStamp where
  msgid : Nat
  time : Nat
  deriving DecidableEq, Repr

/-- STATE of a launch slot (R381). -/
inductive SlotSt where
  | empty | armed | sent | lost | late
  deriving DecidableEq, Repr

/-- A launch slot: its time and its frame (R368). -/
structure Slot where
  st : SlotSt
  tag : Nat
  time : Nat
  frame : List Byte
  deriving DecidableEq, Repr

def Slot.reset : Slot := { st := .empty, tag := 0, time := 0, frame := [] }

/-- One array port. `pseqTx` is the next PSEQ sent, `pseqRx` the next expected, `held` the frames that wait, `relay` the relayed frames and when each has left,
`peerSeq` and `peerTo` the outgoing stream, `peers` the commands that await a reply. The
rest is Thread's: the partner's vector and when it was announced, the grandmasters ignored and until when, the exchange
in progress, the last eight offsets, the mean delay. -/
structure LinkPort where
  rights : Nat
  peerMs : Nat
  counts : List Nat
  pseqTx : Nat
  pseqRx : Option Nat
  held : List HeldFrame
  relay : List (Nat × Nat)
  peerSeq : Nat
  peerTo : Option Nat
  peers : List PeerCmd
  vec : Option TVec
  vecAt : Nat
  ignore : List (Nat × Nat)
  exch : Option Exch
  mseq : Nat
  thetas : List Int
  done : Nat
  delay : Nat
  asym : Int
  timeBad : Nat
  txts : List TxStamp
  txtsOvf : Bool
  slots : List Slot
  slotLost : Nat
  slotLate : Nat
  deriving DecidableEq, Repr

/-- A port at reset: all rights granted (R326), a peer deadline of 10 ms (R327), ASYM 0. -/
def LinkPort.reset : LinkPort :=
  { rights := 15, peerMs := 10, counts := List.replicate 13 0, pseqTx := 0, pseqRx := none, held := [],
    relay := [], peerSeq := 0, peerTo := none, peers := [], vec := none, vecAt := 0, ignore := [],
    exch := none, mseq := 0, thetas := [], done := 0, delay := 0, asym := 0, timeBad := 0, txts := [], txtsOvf := false,
    slots := [.reset, .reset, .reset, .reset], slotLost := 0, slotLate := 0 }

/-- The topology (R338). -/
structure Topo where
  sx : Nat
  sy : Nat
  torus : Nat
  levelCap : Nat
  deriving DecidableEq, Repr

/-- A bulk receive binding (R329, R340). -/
structure BulkBind where
  kind : Nat
  dma : Nat
  src : Nat
  region : Nat
  records : Nat
  drops : Nat
  wraps : Nat
  wrpos : Nat
  deriving DecidableEq, Repr

def BulkBind.reset : BulkBind :=
  { kind := 0, dma := 0xFF, src := 0, region := 0xFFFF, records := 0, drops := 0, wraps := 0, wrpos := 0 }

/-! ### Device time (R342 to R381) -/

/-- Time roles (R346). -/
inductive TRole where
  | freerun | grandmaster | follower | holdover
  deriving DecidableEq, Repr

/-- The fields of TIME_CFG_SET (R373). -/
structure TimeCfg where
  prio : Nat
  syncLog2 : Nat
  ports : Nat
  autoFirst : Bool
  stepThr : Nat
  slewPpb : Nat
  evState : Nat
  evStep : Nat
  deriving DecidableEq, Repr

/-- The defaults of R373; no event channel. -/
def TimeCfg.reset : TimeCfg :=
  { prio := 128, syncLog2 := 7, ports := 15, autoFirst := true, stepThr := 1000, slewPpb := 10, evState := 0xFFFF, evStep := 0xFFFF }

/-- A step by −PENDING that has been authorised (R375), or that R359 applies by itself: when it is applied, and MAXABS of the authorisation. -/
structure StepAt where
  time : Nat
  maxAbs : Option Nat
  deriving DecidableEq, Repr

/-- One TRIG pin (R365, R366, R379). `next` is the next pulse, `activeTo` the end of the pulse last issued, `stamps` the input
queue with the NC flag of each stamp. -/
structure Trig where
  mode : Nat
  pol : Nat
  fine : Nat
  edge : Nat
  period : Nat
  width : Nat
  count : Nat
  start : Nat
  filter : Nat
  ev : Nat
  next : Nat
  activeTo : Nat
  issued : Nat
  missed : Nat
  stamps : List (Nat × Bool)
  inOvf : Bool
  deriving DecidableEq, Repr

/-- A TRIG pin at reset: an input with a filter of 16 ns and no event (R367). -/
def Trig.reset : Trig :=
  { mode := 0, pol := 0, fine := 0, edge := 1, period := 0, width := 0, count := 0, start := 0, filter := 16, ev := 0xFFFF,
    next := 0, activeTo := 0, issued := 0, missed := 0, stamps := [], inOvf := false }

/-- The time unit. `up` is the UPSTREAM port (0 to 3), `sel` the vector selected, `est` the offset estimate, `slew` what
remained of it to be removed at `slewAt`, and `rest` what remained then of the remainder of a step, which is exempt from STEP_THR (R357, R360), and `grace` by how much a new bin table
may have moved an estimate (R445), all in 2^-18 ns, with how many exchanges must still pass before one within STEP_THR ends that;
`setTo` AT and NEWTIME of a TIME_SET that waits (R372). -/
structure Tmu where
  role : TRole
  cfg : TimeCfg
  up : Option Nat
  sel : TVec
  est : Int
  slew : Int
  slewAt : Nat
  rest : Int
  grace : Nat × Nat
  pending : Option Int
  stepId : Nat
  step : Option StepAt
  setTo : Option (Nat × Nat)
  timeSet : Bool
  everFollower : Bool
  tlaneChanged : Bool
  stepCount : Nat
  exchLost : Nat
  refused : Nat
  lastStep : Nat
  upDelay : Nat
  deriving DecidableEq, Repr

/-- The time unit at VAUX good: FREERUN (R345). -/
def Tmu.reset : Tmu :=
  { role := .freerun, cfg := .reset, up := none, sel := { prio := 0xFF, cls := 0xFF, gm := 0xFFFFFFFF, steps := 0 }, est := 0,
    slew := 0, slewAt := 0, rest := 0, grace := (0, 0), pending := none, stepId := 0, step := none, setTo := none, timeSet := false, everFollower := false, tlaneChanged := false,
    stepCount := 0, exchLost := 0, refused := 0, lastStep := 0, upDelay := 0 }

/-- Lanes, ports and time. -/
structure Link where
  lanes : List (Nat × LaneSt)
  cfgs : List (Nat × LaneCfg)
  ports : List LinkPort
  topo : Topo
  binds : List BulkBind
  tmu : Tmu
  trigs : List Trig
  deriving DecidableEq, Repr

def Link.reset : Link :=
  { lanes := [], cfgs := [], ports := [.reset, .reset, .reset, .reset], topo := { sx := 0, sy := 0, torus := 0, levelCap := 2 },
    binds := List.replicate 8 .reset, tmu := .reset, trigs := List.replicate 16 .reset }

end Sys2Proof.Machine
end

