-- ==== Sys2Proof/Machine/Coding.lean ====
section
/-! DEFINITION. The line code of the serial lanes (09, R301 to R303, R311 to R315): characters, their 8b/10b codes, the ordered sets
and the frames as they go out. The spec names the code and gives no table; the table is that of the family (PRESUMED). -/
namespace Sys2Proof.Machine

/-! ### Control characters (R302) -/

/-- K`x`.`y`. -/
def ctl (x y : Nat) : Chr := .k (BitVec.ofNat 8 (32 * y + x))

/-- D21.5, which fills the ordered sets. -/
def d21_5 : Chr := .d 0xB5

/-- The idle ordered set (R303). -/
def idleSet : List Chr := [ctl 28 5, d21_5, d21_5, d21_5]
/-- The SKIP ordered set (R303). -/
def skipSet : List Chr := [ctl 28 0, d21_5, d21_5, d21_5]

/-- Characters within a pre-emption bracket (R313, R315). -/
def inBracket (cs : List Chr) : List Chr := [ctl 28 4] ++ cs ++ [ctl 28 2]

/-- A frame of bytes: K28.1 opens a TIME frame, K27.7 any other; a pre-emptive one is always bracketed (R302, R313, R314). -/
def frameChars (cls : Nat) (b : List Byte) : List Chr :=
  let f := [if cls = 1 then ctl 28 1 else ctl 27 7] ++ b.map Chr.d ++ [ctl 29 7]
  if cls = 1 ∨ cls = 2 then inBracket f else f

/-- An IDENT sequence (R304). -/
def identChars (b : List Byte) : List Chr := ctl 28 3 :: b.map Chr.d

/-! ### 8b/10b (R301) -/

/-- The six-bit codes abcdei of D0 to D31 at negative disparity. -/
def sixCodes : List Nat :=
  [0x27, 0x1D, 0x2D, 0x31, 0x35, 0x29, 0x19, 0x38, 0x39, 0x25, 0x15, 0x34, 0x0D, 0x2C, 0x1C, 0x17,
   0x1B, 0x23, 0x13, 0x32, 0x0B, 0x2A, 0x1A, 0x3A, 0x33, 0x26, 0x16, 0x36, 0x0E, 0x2E, 0x1E, 0x2B]

/-- The four-bit codes fghj of .0 to .7 at negative disparity, of data characters and of K28. -/
def fourCodes : List Nat := [0xB, 0x9, 0x5, 0xC, 0xD, 0xA, 0x6, 0xE]
def k28Codes : List Nat := [0x4, 0x9, 0x5, 0x3, 0x2, 0xA, 0x6, 0x8]

/-- The ones among the lowest `n` bits. -/
def onesOf (n v : Nat) : Nat := (List.range n).countP fun k => bitOf v k

/-- The code of a character at a running disparity (true: positive), abcdei first. -/
def Chr.code (rd : Bool) : Chr → Nat
  | .k c =>
    let x := c.toNat % 32
    let y := c.toNat / 32
    let v := if x = 28 then 16 * 0x0F + lget 0 k28Codes y else 16 * lget 0 sixCodes x + 8
    if rd then 1023 - v else v
  | .d c =>
    let x := c.toNat % 32
    let y := c.toNat / 32
    let six := lget 0 sixCodes x
    let a := if rd && (onesOf 6 six != 3 || x == 7) then 63 - six else six
    let rd' := rd != (onesOf 6 six != 3)
    let alt := y == 7 && (if rd' then [11, 13, 14] else [17, 18, 20]).contains x
    let four := if alt then 7 else lget 0 fourCodes y
    let b := if rd' && (onesOf 4 four != 2 || y == 3) then 15 - four else four
    16 * a + b

/-- A character turns the running disparity over: its code has not as many ones as zeros. -/
def Chr.flips (c : Chr) : Bool := onesOf 10 (c.code false) != 5

/-- The running disparity after some characters. -/
def runDisp (rd : Bool) (cs : List Chr) : Bool := cs.foldl (fun d c => d != c.flips) rd

/-! ### What a lane has been given to send (R303, R315). Times are instants, `ct` the time of a character. -/

/-- The first character boundary of a lane at or after an instant: its characters follow one another without a break since it was enabled. -/
def LaneSt.charAt (l : LaneSt) (ct t : Nat) : Nat := l.txFrom + ceilDiv (t - l.txFrom) ct * ct

/-- When `n` characters that begin at an instant have left: the brackets that open among them push the rest back. -/
def LaneSt.runOut (l : LaneSt) (ct start n : Nat) : Nat :=
  l.pres.foldl (fun (t : Nat) p => if start ≤ p.start ∧ p.start < t then t + (p.stop - p.start) else t) (start + n * ct)

def LaneSt.stopOf (l : LaneSt) (ct : Nat) (f : TxFrame) : Nat := l.runOut ct f.start f.cs.length

/-- When the transmit queue empties, when the last bracket closes, and when the IDENT on its way ends. -/
def LaneSt.txFree (l : LaneSt) (ct : Nat) : Nat := l.frames.foldl (fun (m : Nat) f => max m (l.stopOf ct f)) 0
def LaneSt.bracket (l : LaneSt) : Nat := l.pres.foldl (fun (m : Nat) p => max m p.stop) 0
def LaneSt.identTo (l : LaneSt) (ct : Nat) : Nat := l.frames.foldl (fun (m : Nat) f => if f.kind = .ident then max m (l.stopOf ct f) else m) 0

/-- How many of a frame's characters have left by an instant. -/
def LaneSt.sentOf (l : LaneSt) (ct t : Nat) (f : TxFrame) : Nat :=
  let held := (l.pres.filter fun p => decide (f.start ≤ p.start) && decide (p.start < t)).foldl (fun (n : Nat) p => n + (min t p.stop - p.start)) 0
  min f.cs.length ((t - f.start - held) / ct)

/-- Spans in the order of their starts. -/
def insSpan (x : Nat × Nat) : List (Nat × Nat) → List (Nat × Nat)
  | [] => [x]
  | y :: t => if x.1 ≤ y.1 then x :: y :: t else y :: insSpan x t

/-- The idle sets begun from `rdAt` to an instant, outside some spans: each has one comma, and of a set that something follows at once only the first
characters go out, the comma with them. -/
def LaneSt.idles (l : LaneSt) (ct t : Nat) (spans : List (Nat × Nat)) : Nat :=
  let r := (spans.foldr insSpan []).foldl (fun (a : Nat × Nat) x =>
    let to' := min t x.1
    (max a.1 (min t x.2), a.2 + ceilDiv (to' - a.1) (4 * ct))) (l.rdAt, 0)
  r.2 + ceilDiv (t - r.1) (4 * ct)

/-- The running disparity at an instant (R301). The order of the characters does not matter to it, only which have gone out. -/
def LaneSt.dispAt (l : LaneSt) (ct t : Nat) : Bool :=
  let a := l.frames.foldl (fun d f => runDisp d (f.cs.take (l.sentOf ct t f))) l.rd
  let b := l.pres.foldl (fun d p => runDisp d (p.cs.take ((t - p.start) / ct))) a
  b != (l.idles ct t (l.frames.map (fun f => (f.start, l.stopOf ct f)) ++ l.pres.map fun p => (p.start, p.stop)) % 2 == 1)

/-- What has been sent by an instant is counted in the disparity and kept no longer. -/
def LaneSt.settle (l : LaneSt) (ct t : Nat) : LaneSt :=
  let live := l.frames.filter fun f => decide (t < l.stopOf ct f)
  let from' := live.foldl (fun (m : Nat) f => min m f.start) t
  let gone := l.pres.filter fun p => decide (p.stop ≤ from')
  let to' := (gone.map (·.stop) ++ ((l.frames.filter fun f => decide (l.stopOf ct f ≤ t)).map (l.stopOf ct))).foldl max l.rdAt
  { l with frames := live, pres := l.pres.filter fun p => !decide (p.stop ≤ from'), rd := l.dispAt ct to', rdAt := to' }

/-- The transmitter breaks off: nothing that waits goes out any more. -/
def LaneSt.cutAt (l : LaneSt) (ct t : Nat) : LaneSt := { l with frames := [], pres := [], rd := l.dispAt ct t, rdAt := max l.rdAt t }

/-- Of the frames that wait none begins before the one ahead of it has ended, nor inside a bracket. -/
def LaneSt.order (l : LaneSt) (ct : Nat) : Nat → List TxFrame → List TxFrame
  | _, [] => []
  | t, f :: fs =>
    let at' := l.pres.foldl (fun (x : Nat) p => if p.start ≤ x ∧ x < p.stop then p.stop else x) (max t f.start)
    { f with start := at' } :: LaneSt.order l ct (l.runOut ct at' f.cs.length) fs

/-- Characters enter the frames of a lane at an instant, before those that would begin then or later. -/
def insFrame (x : TxFrame) : List TxFrame → List TxFrame
  | [] => [x]
  | y :: t => if y.start < x.start then y :: insFrame x t else x :: y :: t
def LaneSt.frame (l : LaneSt) (ct : Nat) (kind : TxKind) (at' : Nat) (cs : List Chr) : LaneSt :=
  { l with frames := l.order ct 0 (insFrame { kind := kind, start := at', cs := cs } l.frames) }

/-- Brackets follow one another. -/
def insPre (x : TxPre) : List TxPre → List TxPre
  | [] => [x]
  | y :: t => if y.start < x.start then y :: insPre x t else x :: y :: t
def orderPres : Nat → List TxPre → List TxPre
  | _, [] => []
  | t, p :: ps =>
    let at' := max t p.start
    { p with start := at', stop := at' + (p.stop - p.start) } :: orderPres (at' + (p.stop - p.start)) ps

/-- A bracket opens on a lane at an instant, before those that would open then or later; a frame that it interrupts ends so much later, and so do those that
wait (R315). -/
def LaneSt.openBracket (l : LaneSt) (ct at' : Nat) (cs : List Chr) (skip : Bool) (cyc : Option Nat) : LaneSt :=
  let l1 := { l with pres := orderPres 0 (insPre { start := at', stop := at' + cs.length * ct, cs := cs, skip := skip, cyc := cyc } l.pres) }
  { l1 with frames := l1.order ct 0 l1.frames }

end Sys2Proof.Machine
end

