-- ==== Sys2Proof/Machine/StateBias.lean ====
section
/-! DEFINITION. State of the bias chiplet (13): bias channels, the monitor converter and the calibration controller. Output
values are kept in 2^-15 µV, in which every code of every range is a whole number (R455). -/
namespace Sys2Proof.Machine

/-- The live safety fields (R465). -/
structure Safety where
  range : Nat
  clrNow : Bool
  epRamp : Bool
  owner : Nat
  safe : Int
  clr : Int
  lo : Int
  hi : Int
  puSlew : Nat
  slew : Nat
  trim : Bool
  deriving DecidableEq, Repr

/-- The fields before a safe-code entry has been read: those of the shipped entry (R591). -/
def Safety.reset : Safety :=
  { range := 0, clrNow := false, epRamp := false, owner := 0xFF, safe := 0, clr := 0, lo := -1250000, hi := 1250000, puSlew := 1000,
    slew := 1000, trim := false }

/-- A generator (R461, R485): its fields, its first update K0, and the noise state. -/
structure Gen64 where
  wave : Nat
  table : Nat
  nf : Nat
  freq : Nat
  phase : Nat
  offset : Int
  amp : Int
  k0 : Nat
  lfsr : Nat
  f : Rat
  deriving DecidableEq, Repr

/-- A source that takes over at the first update at or after an instant (R456, R463): a target with its slew, or a
generator. -/
inductive BiasSrc where
  | target (v : Int) (slew : Nat)
  | gen (g : Gen64)
  deriving DecidableEq, Repr

/-- A range change (R464): asked for, on its way to 0 V first, held since update `k`, or released after that hold; with its new range and TARGET,
which a command that has taken effect meanwhile, or ENDPAPER, removes. -/
inductive RangeStep where
  | wait (t : Nat) | zero | held (k : Nat) | rel (k : Nat)
  deriving DecidableEq, Repr
structure RangeSw where
  step : RangeStep
  range : Nat
  target : Option Int
  deriving DecidableEq, Repr

/-- The states that a channel does not derive from its sources (R487). -/
inductive BiasSt where
  | clamped | ramping | on | retired | nosafe
  deriving DecidableEq, Repr

/-- One bias channel. `pos` is the output in 2^-15 µV and `code` the code last converted; `moving` that the last update did
not reach its source; `ep` the ENDPAPER ramp's source with its slew, `hold` that the output
keeps its code since ENDPAPER until a command (R468), `clrEp` that the clear pin was asserted when ENDPAPER began (R469); `rampAt` the instant at which the clamp is open;
`bad` the consecutive bad read-backs; `avg` the read-backs averaged for the background trim and `avgLast` the last average; `cal`
that a calibration runs. -/
structure BiasCh where
  live : Safety
  st : BiasSt
  range : Nat
  pos : Int
  code : Int
  moving : Bool
  target : Int
  slew : Nat
  gen : Option Gen64
  pend : List (Nat × BiasSrc)
  sw : Option RangeSw
  cleared : Bool
  clrStep : Bool
  ep : Option (Int × Nat)
  hold : Bool
  clrEp : Bool
  rampAt : Nat
  overload : Bool
  slewLimited : Nat
  deglitch : Nat
  limited : Nat
  overloads : Nat
  rbErr : Nat
  readback : Int
  bad : Nat
  avg : List Int
  avgLast : Option Int
  cal : Bool
  deriving DecidableEq, Repr

/-- A channel at reset: CLAMPED with the land near 0 V (R401, R466). -/
def BiasCh.reset : BiasCh :=
  { live := .reset, st := .clamped, range := 0, pos := 0, code := 0, moving := false, target := 0, slew := 1000, gen := none, pend := [],
    sw := none, cleared := false, clrStep := false, ep := none, hold := false, clrEp := false, rampAt := 0, overload := false, slewLimited := 0, deglitch := 0,
    limited := 0, overloads := 0, rbErr := 0, readback := 0, bad := 0, avg := [], avgLast := none, cal := false }

/-! ### The monitor converter (R470 to R476) -/

/-- A correction: the value in force and its target, both in units of 1/720,720 of the quantity's own unit, so that every STEP_DIV
divides STEP exactly (R480). -/
structure CorrVal where
  cur : Int
  target : Int
  deriving DecidableEq, Repr

/-- The latest result of a channel (R492). -/
structure MonRes where
  y : Int
  value : Int
  time : Nat
  avg : Nat
  sys : Bool
  deriving DecidableEq, Repr

/-- One monitor channel. `zero` is the mean of an accepted STEP 0 of MON_SYSCAL, in raw LSB (R476). -/
structure MonCh where
  range : Nat
  action : Nat
  ev : Nat
  lo : Int
  hi : Int
  hyst : Nat
  isLo : Bool
  isHi : Bool
  last : MonRes
  zero : Option Rat
  deriving DecidableEq, Repr

/-- A channel at reset: no action, and no limit by design choice. -/
def MonCh.reset : MonCh :=
  { range := 0, action := 0, ev := 0xFFFF, lo := -(2 ^ 31), hi := 2 ^ 31 - 1, hyst := 0, isLo := false, isHi := false,
    last := { y := 0, value := 0, time := 0, avg := 0, sys := false }, zero := none }

/-- Who asked for an urgent conversion (R474): MON_INJECT, a step of MON_SYSCAL, a calibration of a bias channel, or its
targeted self-test. -/
inductive InjWho where
  | cmd
  | syscal (step : Nat) (value : Int)
  | bias (n : Nat)
  | test (n : Nat)
  deriving DecidableEq, Repr

/-- An urgent conversion of `count` conversions: what remains of its SETTLE, whether it has begun, the conversions made, the sums
of their raw and corrected values, those sums after the first half, and the conversions of a self-test out of tolerance. -/
structure Inj where
  ch : Nat
  avg : Nat
  count : Nat
  settle : Nat
  who : InjWho
  begun : Bool
  done : Nat
  raw : Int
  sum : Int
  halfRaw : Int
  halfSum : Int
  bad : Nat
  first : Nat
  deriving DecidableEq, Repr

/-- The host sequence (R473, R491). `entry`, `idle`, `conv`, `sum` and `first` are the entry in progress; `again` how often it
has been restarted in a row, `delayed` that injections wait for it; `passFrom` the first slot of the pass in progress. -/
structure MonSeq where
  active : List (Nat × Nat)
  shadow : List (Nat × Nat)
  swap : Bool
  run : Bool
  stopping : Bool
  region : Nat
  evPass : Nat
  entry : Nat
  idle : Nat
  conv : Nat
  sum : Int
  first : Nat
  again : Nat
  delayed : Bool
  ringPos : Nat
  passFrom : Option Nat
  passUs : Nat
  passes : Nat
  injections : Nat
  restarts : Nat
  injDelayed : Nat
  limits : Nat
  deriving DecidableEq, Repr

def MonSeq.reset : MonSeq :=
  { active := [], shadow := [], swap := false, run := false, stopping := false, region := 0xFFFF, evPass := 0xFFFF, entry := 0, idle := 0,
    conv := 0, sum := 0, first := 0, again := 0, delayed := false, ringPos := 0, passFrom := none, passUs := 0, passes := 0, injections := 0,
    restarts := 0, injDelayed := 0, limits := 0 }

/-! ### The calibration controller (R477 to R481) -/

/-- A running BIAS_CAL_RUN (R488): the measured errors so far, in 2^-15 µV. -/
structure BiasCal where
  n : Nat
  full : Bool
  v1 : Int
  v2 : Int
  back : Int
  errs : List Rat
  deriving DecidableEq, Repr

/-- A class of corrections (R494). -/
structure CalClass where
  div : Nat
  intervalMs : Nat
  last : Nat
  deriving DecidableEq, Repr

/-- The controller. `corrs` are the corrections of the monitor channels (16 ch + 2 range, and one more for the gain) and of the
bias channels (4,096 + 2 n, and one more for the gain); `zeros` and `bgs` the latest raw values of the internal zero and of band-gap A. -/
structure Cal where
  classes : List CalClass
  tolPpm : Nat
  suspended : Bool
  agree : Nat
  bgA : Int
  bgB : Int
  bgDiff : Int
  accepted : Nat
  disagree : Nat
  suspends : Nat
  lastAccept : Nat
  corrs : List (Nat × CorrVal)
  zeros : List Int
  bgs : List Int
  deriving DecidableEq, Repr

/-- The defaults of R480 and R481. -/
def Cal.reset : Cal :=
  { classes := [⟨1, 10, 0⟩, ⟨1, 1, 0⟩, ⟨1, 10, 0⟩, ⟨1, 10, 0⟩], tolPpm := 500, suspended := false, agree := 0, bgA := 0, bgB := 0, bgDiff := 0,
    accepted := 0, disagree := 0, suspends := 0, lastAccept := 0, corrs := [], zeros := [], bgs := [] }

/-- The bias chiplet. `k` is the index of the last update, `sysSlot` and `hostSlot` the µs index of the last system and host
slot, `round` the place in the system round, `bclr` the filtered pin, `mayRamp` that power-up is under way, `tables` the entries of
tables 1 to 7 (4,096 t + i), `bgAt` the last comparison. -/
structure Bsc where
  chs : List (Nat × BiasCh)
  k : Nat
  bclr : Bool
  bclrFilter : Nat
  mayRamp : Bool
  tables : List (Nat × Int)
  mons : List (Nat × MonCh)
  sysSlot : Nat
  hostSlot : Nat
  round : Nat
  seq : MonSeq
  injs : List Inj
  cal : Cal
  calRuns : List BiasCal
  bgAt : Nat
  deriving DecidableEq, Repr

/-- The bias chiplet at reset: BCLR_FILTER 100 ns (R465); the pin presumed deasserted. -/
def Bsc.reset : Bsc :=
  { chs := [], k := 0, bclr := false, bclrFilter := 100, mayRamp := true, tables := [], mons := [], sysSlot := 0, hostSlot := 0, round := 0,
    seq := .reset, injs := [], cal := .reset, calRuns := [], bgAt := 0 }

end Sys2Proof.Machine
end

