-- ==== Sys2Proof/Machine/StateCap.lean ====
section
/-! DEFINITION. State of the capture units and the interval meter (12). -/
namespace Sys2Proof.Machine

/-- CAP_CONFIG (R433). `skind` is 0 RAW, 1 DDC, 2 DEMOD. -/
structure CapCfg where
  skind : Nat
  line : Nat
  dec : Nat
  mask : Bool
  quire : Nat
  folio : Nat
  rsets : Nat
  ring : Bool
  region : Nat
  mcomp : Nat
  queue1 : Bool
  nseg : Nat
  seglen : Nat
  pre : Nat
  evSeg : Nat
  evDone : Nat
  evAlarm : Nat
  mhyst : Nat
  mlevel : Int
  deriving DecidableEq, Repr

/-- CAP_TRIG_SET (R434). -/
structure CapTrig where
  tsrc : Nat
  tcomp : Nat
  slope : Nat
  level : Int
  hyst : Nat
  evch : Nat
  deriving DecidableEq, Repr

/-- STATE of CAPSTAT (R429). -/
inductive CapSt where
  | idle | armed | recording | holdoff | done | stopped
  deriving DecidableEq, Repr

/-- The segment being recorded: the index of its trigger point among the source's samples, the samples missing before it, its
flags, QDELAY, and its samples so far, newest first. -/
structure CapRec where
  trig : Nat
  short : Nat
  flags : Nat
  qdelay : Nat
  data : List RoSample
  deriving DecidableEq, Repr

/-- One capture unit. `from'` is the index of the next source sample, `hist` the last 65,536 samples, newest first; `up` and
`down` that the detectors are primed; `force` the instant of a CAP_FORCE, `evAt` when an event came that waits for its sample and
`evHops` its EHOPS; `opened` the start labels of the open windows that a DEMOD unit records; `held` the sample of a queued trigger and the EHOPS of one that sets EVTRIG, `hops` the EHOPS that the segment passes on; `holdTo` the instant at which the hold-off ends; `stopping`
a CAP_STOP with MODE 0; `nsegPend` a deferred NSEG, `nsegOld` the NSEG before it once the wrap has come and slot 0 of the new layout is yet to be written, `trigPend` a CAP_TRIG_SET
that waits for the end of the hold-off, with its port. -/
structure CapUnit where
  cfg : Option CapCfg
  trig : Option CapTrig
  st : CapSt
  cause : Nat
  nsegPend : Option Nat
  nsegOld : Option Nat
  trigPend : Option (CapTrig × Nat)
  mstep : Nat
  mtab : List (Nat × (Int × Int))
  from' : Nat
  hist : List RoSample
  up : Bool
  down : Bool
  force : Option Nat
  evAt : Option Nat
  evHops : Nat
  opened : List Nat
  cur : Option CapRec
  held : Option (Nat × Option Nat)
  hops : Nat
  holdTo : Nat
  stopping : Bool
  seg : Nat
  next : Nat
  during : Nat
  preShort : Nat
  srcErr : Nat
  maskFail : Nat
  wraps : Nat
  lastTime : Nat
  deriving DecidableEq, Repr

/-- A unit at reset: not configured, IDLE, every mask entry (−32,768, 32,767) (R428, R429, R436). -/
def CapUnit.reset : CapUnit :=
  { cfg := none, trig := none, st := .idle, cause := 0, nsegPend := none, nsegOld := none, trigPend := none, mstep := 0, mtab := [], from' := 0,
    hist := [], up := false, down := false, force := none, evAt := none, evHops := 0, opened := [], cur := none, held := none, hops := 0, holdTo := 0,
    stopping := false, seg := 0, next := 0, during := 0, preShort := 0, srcErr := 0, maskFail := 0, wraps := 0, lastTime := 0 }

/-! ### The interval meter (R439 to R454) -/

/-- One TIN input (R439 to R441): its settings, its bin table in 2^-24 ns, its calibration, and the last accepted edge.
`calBy` holds the TIN object and LOG2HITS of a run in progress. -/
structure TinIn where
  thresh : Int
  hyst : Nat
  filter : Nat
  term : Nat
  table : Option (List Nat)
  tablePend : Option (List Nat)
  calTemp : Int
  calTime : Nat
  disagree : Nat
  edges : Nat
  calBy : Option (Nat × Nat)
  lastEdge : Option Nat
  deriving DecidableEq, Repr

def TinIn.reset : TinIn :=
  { thresh := 0, hyst := 0, filter := 0, term := 0, table := none, tablePend := none, calTemp := 0, calTime := 0, disagree := 0,
    edges := 0, calBy := none, lastEdge := none }

/-- TIN_MEAS_SET (R451). -/
structure TinCfg where
  mode : Nat
  srcA : Nat
  slopeA : Nat
  srcB : Nat
  slopeB : Nat
  dest : Nat
  region : Nat
  n : Nat
  timeout : Nat
  evDone : Nat
  evAlarm : Nat
  rep : Bool
  deriving DecidableEq, Repr

def TinCfg.reset : TinCfg :=
  { mode := 0, srcA := 0, slopeA := 1, srcB := 0xFF, slopeB := 0, dest := 0, region := 0xFFFF, n := 0, timeout := 1, evDone := 0xFFFF,
    evAlarm := 0xFFFF, rep := false }

/-- Sums of measurements in 2^-16 ns (R443). -/
structure TinSums where
  n : Nat
  sum : Int
  sq : Nat
  min : Int
  max : Int
  deriving DecidableEq, Repr

def TinSums.zero : TinSums := { n := 0, sum := 0, sq := 0, min := 0, max := 0 }

/-- A stamp (R453), in 2^-16 ns. -/
structure TinStamp where
  time : Nat
  input : Nat
  edge : Nat
  flags : Nat
  deriving DecidableEq, Repr

/-- One engine (R442 to R444). `open'` is the start edge of a measurement in progress: its stamp and the instant it came. -/
structure TinEng where
  cfg : TinCfg
  running : Bool
  start : Nat
  open' : Option (Int × Nat)
  sums : TinSums
  fixed : Option TinSums
  noStop : Nat
  tooFast : Nat
  overlap : Nat
  discard : Nat
  queue : List TinStamp
  ovf : Bool
  ringPos : Nat
  deriving DecidableEq, Repr

def TinEng.reset : TinEng :=
  { cfg := .reset, running := false, start := 0, open' := none, sums := .zero, fixed := none, noStop := 0, tooFast := 0, overlap := 0,
    discard := 0, queue := [], ovf := false, ringPos := 0 }

/-- Capture and interval measurement. `lines` are the inputs 0 to 7 and, from 16 on, Thread's delay lines; `temp` the junction
temperature in m°C that came latest; `divs` how many rising edges of an internal source have gone by since it last presented one (R442). -/
structure Caps where
  units : List (Nat × CapUnit)
  lines : List (Nat × TinIn)
  engs : List (Nat × TinEng)
  temp : Int
  divs : List (Nat × Nat)
  deriving DecidableEq, Repr

def Caps.reset : Caps := { units := [], lines := [], engs := [], temp := 0, divs := [] }

end Sys2Proof.Machine
end

