-- ==== Sys2Proof/Machine/StateClk.lean ====
section
/-! DEFINITION. State of the clocks, supplies and counters of work (11): the reference, the islands, the DVFS sequencers, the
pinned crossings, the frequency meter and the rails. -/
namespace Sys2Proof.Machine

/-- Counters of one island (R411). Islands are numbered 0 to 15 as in R5, 16 + p for the core island and 33 + p for the
synthesis island of physical Quire p. -/
structure Island where
  discont : Nat
  slips : Nat
  deriving DecidableEq, Repr

def Island.reset : Island := { discont := 0, slips := 0 }

/-- The DVFS sequencer of a core island (R396, R397): the point in use since an instant (0 to 3 for P0 to P3, 4 for PS), the
transition in progress (the point it leads to and its end), the target and TRANSITIONS. -/
structure CoreIsl where
  use : Nat
  since : Nat
  trans : Option (Nat × Nat)
  target : Nat
  count : Nat
  deriving DecidableEq, Repr

/-- A core island at reset: its Quire is OFF, so PS (R395). -/
def CoreIsl.reset : CoreIsl := { use := 4, since := 0, trans := none, target := 4, count := 0 }

/-- REF_CFG_SET (R408). -/
structure RefCfg where
  erefEn : Bool
  stop : Bool
  holdMax : Nat
  evRef : Nat
  deriving DecidableEq, Repr

/-- The defaults of R408; no event channel. -/
def RefCfg.reset : RefCfg := { erefEn := true, stop := false, holdMax := 3600, evRef := 0xFFFF }

/-- A running FREQ_MEASURE (R410). -/
structure Meter where
  a : Nat
  b : Nat
  wlog2 : Nat
  deriving DecidableEq, Repr

/-- The clocks. `incoh` holds the spans of device time without a coherent reference, newest first; the newest is open
while there is none. `pinned` lists the logical Quires whose QS–QC crossing is pinned (R394). `sel` is the SRC code of R383,
`switchTo` the target of a live switch in progress, `lostE` and `lostR` that EREF's and REC's PLL have been declared lost, `lostSel` that the selected source is lost and the forced release has yet
to come, `lostTo` the source that was the best one then, `waitCoh` that a forced release found INT's PLL unlocked, so that RF and the bias outputs wait for a coherent source (R391), `stopAt` when REF_POLICY STOP acts that has been set without a coherent source (R408), `relFrom` and `relTo` when EPI's last forced release began and ended, `rootReset` that the islands of the device reference wait for INT's PLL, `evTick` the coarse tick in which EV_REF last fired. `modes` holds DVFS_SET's fixed point plus one by logical Quire,
`energy` the counters in the order of R413, `energyAt` when they were last integrated, `qcells` CELLOPS by logical Quire. `good` and `lost` are masks of rails, `regsBad` the islands whose regulator is outside its window,
`filterWas` earlier values of FILTER and until when each was in force, `vbias` that VBIAS_P or VBIAS_N was lost and has not returned; `sAt` is the moment S of R403, `dramHot` the stacks above
85 °C; `temps` the latest readings of MON 58 to 81 and of the two DRAM stacks in m°C (R589), `bscFault` a bias chiplet fault. -/
structure Clk where
  incoh : List (Nat × Option Nat)
  pinned : List Nat
  sel : Nat
  recPort : Nat
  qualE : Bool
  qualR : Bool
  erefNom : Nat
  erefPpb : Int
  recPpb : Int
  holdAt : Nat
  switchTo : Option Nat
  lostE : Bool
  lostR : Bool
  lostSel : Bool
  lostTo : Nat
  waitCoh : Bool
  stopAt : Option Nat
  relFrom : Nat
  relTo : Nat
  forced : Nat
  liveSwitch : Nat
  loss : Nat
  timeGap : Bool
  lastChange : Nat
  everCoh : Bool
  evTick : Option Nat
  cfg : RefCfg
  intLock : Bool
  rootReset : Bool
  islands : List (Nat × Island)
  cores : List (Nat × CoreIsl)
  modes : List (Nat × Nat)
  meter : Option Meter
  good : Nat
  lost : Nat
  filter : Nat
  filterWas : List (Nat × Nat)
  regsBad : List Nat
  vbias : Bool
  energy : List Nat
  energyAt : Nat
  cellops : Nat
  pairs : Nat
  qcells : List (Nat × Nat)
  vauxAt : Nat
  sAt : Option Nat
  dramHot : List Nat
  temps : List Int
  bscFault : Bool
  deriving DecidableEq, Repr

/-- The clocks right after VAUX good (R30, R382, R408): INT selected and its PLL not yet locked, the islands in reset, only VAUX
known to be good, FILTER 4 µs (R400). -/
def Clk.reset : Clk :=
  { incoh := [(0, none)], pinned := [], sel := 0, recPort := 0xFF, qualE := false, qualR := false, erefNom := 0, erefPpb := 0,
    recPpb := 0, holdAt := 0, switchTo := none, lostE := false, lostR := false, lostSel := false, lostTo := 0, waitCoh := false, stopAt := none, relFrom := 0, relTo := 0, forced := 0, liveSwitch := 0, loss := 0, timeGap := false,
    lastChange := 0, everCoh := false, evTick := none, cfg := .reset, intLock := false, rootReset := true,
    islands := [], cores := [], modes := [], meter := none, good := 1, lost := 0, filter := 4,
    filterWas := [], regsBad := [], vbias := false, energy := List.replicate 50 0, energyAt := 0, cellops := 0, pairs := 0, qcells := [], vauxAt := 0, sAt := none, dramHot := [], temps := List.replicate 26 0, bscFault := false }

end Sys2Proof.Machine
end

