-- ==== Sys2Proof/Machine/StateDev.lean ====
section
/-! DEFINITION. State of the device as a whole (01, 02, 16, 17): the ports and their streams, the commands that wait,
the rings, the mailbox, the DMA channels, the SMBus assembler, the flash slots, the binding table, the fault log, the
memory regions, ownership and attestation. Every structure is plain data; its `reset` value is the one its docstring
names, and the inventory lists each field's rule and reset value. -/
namespace Sys2Proof.Machine

/-- The device states (R29). -/
inductive DevState where
  | off | boot | run | reduced | endpaper
  deriving DecidableEq, Repr

/-- The personalities of a logical Quire (R18, R27). -/
inductive Pers where
  | off | control | correlate | beamform | service
  deriving DecidableEq, Repr

/-- The privileges, lowest first (R50). -/
inductive Priv where
  | observer | operator | owner
  deriving DecidableEq, Repr

/-- A packet that has reached the device: its opcode and the rest of it. `quiet`: it came to every device at once, and gets no reply (R70). -/
structure Pkt where
  code : Nat
  req : Req
  quiet : Bool := false
  deriving DecidableEq, Repr

/-- One sequence stream of a port (R41, R42, R47, R72). `expect` is E, `last` the CRC of the last packet taken,
`stored` the last reply sent to it, `chain` the packets of a partly received chain, oldest first, `chainAt` when the
first of them arrived, and the eight counters are those of PORT_STATS_GET, in its order. -/
structure Stream where
  expect : BitVec 32
  last : Option (BitVec 32)
  stored : Option (List Byte)
  chain : List Pkt
  chainAt : Nat
  taken : Nat
  eCrc : Nat
  eVersion : Nat
  eLength : Nat
  eSequence : Nat
  eTimeout : Nat
  bcast : Nat
  smbusErr : Nat
  deriving DecidableEq, Repr

/-- A stream after its port's reset: E is 0 and nothing is stored (R41); the counters are 0. -/
def Stream.reset : Stream :=
  { expect := 0, last := none, stored := none, chain := [], chainAt := 0, taken := 0, eCrc := 0, eVersion := 0,
    eLength := 0, eSequence := 0, eTimeout := 0, bcast := 0, smbusErr := 0 }

/-- What a command that has not sent its final reply waits for. `a` and `b` name the object. -/
inductive WaitKind where
  | persChange | configApply | imageBegin | imageCommit | imageErase | seqRing | seqArm | seqStop | seqGo
  | roRoute | weave | covar | fbSwap | fbStop | fbLoad | intakeSrc | intakeDelay | chan | gain | ct
  | corrStart | corrStop | corrExport | beamStart | beamStop | beamExport | beamCommit
  | dacLine | unmute | adcLine | convCal | laneTest | laneSwap | laneCfg | portCfg | topo | peerCmd
  | timeSet | timeStep | launch | refCfg | freqMeter | dvfs | capArm | capTrig | tinCal | tinStart | tinStop
  | biasSet | biasRange | biasCal | monInject | monSyscal | monSeq | evRoute
  | selftest | readmit | retire | migrate | fwActivate | memAlloc | ownerRelease | endpaper
  deriving DecidableEq, Repr

/-- One condition that a waiting command waits for. -/
structure Wait where
  kind : WaitKind
  a : Nat
  b : Nat
  deriving DecidableEq, Repr

/-- A command that is running or deferred (R39, R53, R54). `accepted`: it has replied ACCEPTED (or would have, R43).
`keys` are the resources it holds, `waits` what it still waits for, `pnr` that it is past its point of no return,
`since` when its current deadline began, `at?` the instant fixed in device time at which it ends, if there is one, `undo` the Quires whose
personality a wildcard PERS_SET has changed already, each with the personality and the controlling port it had (R55). -/
structure Held where
  pkt : Pkt
  accepted : Bool
  keys : List Nat
  waits : List Wait
  pnr : Bool
  since : Nat
  at? : Option Nat
  undo : List (Nat × Pers × Option Nat)
  deriving DecidableEq, Repr

/-- A TIMED command or chain that has not started (R44): its packets, its execution time and whether it is FAST. -/
structure Timed where
  pkts : List Pkt
  time : Nat
  fast : Bool
  deriving DecidableEq, Repr

/-- One submission and completion ring pair (R58, R59). `hostTail` is the last SQ_TAIL doorbell value, `hostHead` the
last CQ_HEAD doorbell value, `phase` the PHASE bit of the next completion entry, `reserved` the completion entries
reserved for replies not yet written (R61), `late` the replies that wait for the host to free an entry, oldest first. -/
structure Ring where
  sqBase : Nat
  cqBase : Nat
  en : Bool
  depthLog2 : Nat
  esize : Nat
  vector : Nat
  irqEn : Bool
  cfgErr : Bool
  dbErr : Bool
  cqWait : Bool
  fetchErr : Bool
  sqHead : Nat
  hostTail : Nat
  hostHead : Nat
  cqTail : Nat
  phase : Bool
  reserved : Nat
  fetchErrs : Nat
  late : List (List Byte)
  deriving DecidableEq, Repr

/-- Ring `n` at reset: every field 0 but VECTOR, which is n (R58). -/
def Ring.reset (n : Nat) : Ring :=
  { sqBase := 0, cqBase := 0, en := false, depthLog2 := 0, esize := 0, vector := n, irqEn := false, cfgErr := false,
    dbErr := false, cqWait := false, fetchErr := false, sqHead := 0, hostTail := 0, hostHead := 0, cqTail := 0,
    phase := true, reserved := 0, fetchErrs := 0, late := [] }

/-- The device streams that can bind a DMA channel (R65). -/
inductive StreamUse where
  | readout (q : Nat)
  | corr (set path : Nat)
  | beam (set path : Nat)
  | bulk (index : Nat)
  deriving DecidableEq, Repr

/-- One DMA channel (R65, R66). -/
structure Dma where
  hostAddr : Nat
  region : Nat
  regOffset : Nat
  length : Nat
  dir : Bool
  circ : Bool
  irqEn : Bool
  stream : Option StreamUse
  busy : Bool
  done : Bool
  err : Bool
  errCode : Nat
  doneCount : Nat
  moved : Nat
  deriving DecidableEq, Repr

/-- A DMA channel at reset: the control bits are 0 (R65); the other registers are 0 by design choice. -/
def Dma.reset : Dma :=
  { hostAddr := 0, region := 0, regOffset := 0, length := 0, dir := false, circ := false, irqEn := false,
    stream := none, busy := false, done := false, err := false, errCode := 0, doneCount := 0, moved := 0 }

/-- One MSI-X table entry (R56): message address, message data and vector control. -/
structure Msix where
  addr : Nat
  data : Nat
  ctrl : Nat
  deriving DecidableEq, Repr

/-- The Endpaper mailbox (R63). `request` is the request buffer (sparse), `reply` the reply buffer, `deferred` the
DEFERRED replies that wait for the reply buffer, `places` the DEFERRED places held. -/
structure Mailbox where
  request : List (Nat × Byte)
  reply : List Byte
  ready : Bool
  busy : Bool
  showsDeferred : Bool
  waiting : List (Bool × List Byte)
  places : Nat
  deriving DecidableEq, Repr

/-- The mailbox at reset: empty. -/
def Mailbox.reset : Mailbox :=
  { request := [], reply := [], ready := false, busy := false, showsDeferred := false, waiting := [], places := 0 }

/-- The SMBus transport (R67, R68). `partialReq` is the request being assembled, `next` the next fragment index, `since`
when its last fragment came, `replies` the stored replies, oldest first, at most four, `late` those that wait for a place
among them, `sentTo` the bytes of the oldest reply already read. -/
structure Smbus where
  addr : Nat
  assembling : Bool
  partialReq : List Byte
  next : Nat
  since : Nat
  asmErr : Bool
  replies : List (List Byte)
  late : List (List Byte)
  sentTo : Nat
  frag : Nat
  deriving DecidableEq, Repr

/-- The SMBus transport at reset: address 0x5A, nothing assembled or stored. -/
def Smbus.reset : Smbus :=
  { addr := 0x5A, assembling := false, partialReq := [], next := 0, since := 0, asmErr := false, replies := [],
    late := [], sentTo := 0, frag := 0 }

/-- One copy of an image in the flash (R73, R75): its bytes (an unlisted byte reads 0xFF), its length, whether it is
valid, and a number that rises with each commit. -/
structure ImgCopy where
  len : Nat
  bytes : List (Nat × Byte)
  valid : Bool
  age : Nat
  deriving DecidableEq, Repr

/-- An erased copy. -/
def ImgCopy.erased : ImgCopy := { len := 0, bytes := [], valid := false, age := 0 }

/-- A flash slot: its two copies (a one-copy slot uses the first), and the open write, if any: the copy written and
whether its erasure has ended. -/
structure ImgSlot where
  a : ImgCopy
  b : ImgCopy
  opened : Option Nat
  begun : Bool
  deriving DecidableEq, Repr

/-- A slot with nothing in it. -/
def ImgSlot.empty : ImgSlot := { a := .erased, b := .erased, opened := none, begun := false }

/-- One logical Quire of the binding table (R18) and what the personality rules keep for it (R27, R51, R78). `pendLost`: capacity of the
Quire was lost while its personality change was pending (R28). -/
structure QBind where
  pq : Nat
  pers : Pers
  fhole : Nat
  flost : Bool
  cspared : Nat
  clost : Nat
  busy : Bool
  ctrl : Option Nat
  pendPers : Option Pers
  pendSlot : Option Nat
  pendPort : Nat
  pendConfig : Option Nat
  lostFolios : List Nat
  stopped : Bool
  capOnce : Bool
  pendLost : Bool
  deriving DecidableEq, Repr

/-- Logical Quire `q` after SYS_RST_N: bound to physical Quire q, OFF, no spare in use (R18). -/
def QBind.reset (q : Nat) : QBind :=
  { pq := q, pers := .off, fhole := 32, flost := false, cspared := 0, clost := 0, busy := false, ctrl := none,
    pendPers := none, pendSlot := none, pendPort := 0, pendConfig := none, lostFolios := [],
    stopped := false, capOnce := false, pendLost := false }

/-- What SPARE_STATUS keeps of one physical Quire (R550): SROWS, FBAD, XCOL and MCODE, and beside them the lasting-faulty
columns of each array as masks and the arrays that are lost. -/
structure PhysQuire where
  srows : Nat
  fbad : Nat
  xcol : List Nat
  cbad : List Nat
  alost : Nat
  mcode : Nat
  deriving DecidableEq, Repr

/-- A physical Quire with no spare in use. -/
def PhysQuire.reset : PhysQuire :=
  { srows := 0, fbad := 0, xcol := [32, 32, 32, 32, 32, 32],
    cbad := [0, 0, 0, 0, 0, 0], alost := 0, mcode := 0 }

/-- A unit of R528: its kind and its physical identity. -/
structure FUnit where
  kind : Nat
  phys : Nat
  deriving DecidableEq, Repr

/-- One fault-log entry (R536). -/
structure FaultEntry where
  lseq : Nat
  time : Nat
  unit : FUnit
  outcome : Nat
  flags : Nat
  object : Nat
  detail : Nat
  deriving DecidableEq, Repr

/-- Why a self-test runs (R527, R535, R551). -/
inductive TestWhy where
  | error | selftest | readmit
  deriving DecidableEq, Repr

/-- A targeted self-test in progress: its unit and reason, the object and DETAIL of its log entry, when it ends, whether its
row is remapped, and the page of a region that its DRAM row lies in. -/
structure RunTest where
  unit : FUnit
  why : TestWhy
  object : Nat
  detail : Nat
  till : Nat
  remapped : Bool
  page : Option (Nat × Nat)
  deriving DecidableEq, Repr

/-- A move of a Folio or column into its spare that waits for its boundary (R533), or back. A unit that is moved out is then tested, or,
with a verdict, is lasting-faulty (the OUTCOME, where it is not the usual one) with log FLAGS. -/
structure PendMove where
  unit : FUnit
  back : Bool
  verdict : Option (Option Nat)
  flags : Nat
  object : Nat
  detail : Nat
  deriving DecidableEq, Repr

/-- Why a migration runs: QUIRE_MIGRATE, a failed Quire (R532), or UNIT_RETIRE (R551). -/
inductive MigWhy where
  | command | failure | retire
  deriving DecidableEq, Repr

/-- A Quire migration in progress (R541): of logical Quire `q` to physical Quire `target`; whether a command, a failure or
UNIT_RETIRE asked for it, when its present pass began, whether a pass has left it ready to switch, and the bytes still dirty. -/
structure Migration where
  q : Nat
  target : Nat
  why : MigWhy
  since : Nat
  first : Bool
  copied : Bool
  dirty : Nat
  deriving DecidableEq, Repr

/-- The firmware hand-over (R545, R546). -/
inductive Handover where
  | idle
  | staging (slot confirm : Nat)
  | waitPause (slot confirm : Nat)
  | pause (slot confirm : Nat) (since : Nat) (back : Bool)
  deriving DecidableEq, Repr

/-- One DRAM region (R540, R553). -/
structure Region where
  size : Nat
  owner : Nat
  shared : Bool
  mfault : Bool
  zeroed : Bool
  retiredPages : List Nat
  deriving DecidableEq, Repr

/-- An owner key slot (R564). -/
inductive KeySlot where
  | empty
  | valid (key : List Byte)
  | revoked
  deriving DecidableEq, Repr

/-- One entry of the apply log (R570). -/
structure ApplyEntry where
  slot : Nat
  object : Nat
  hash : List Byte
  deriving DecidableEq, Repr

/-- CAUSE (R592). -/
structure Cause where
  kind : Nat
  detail : Nat
  reason : Nat
  deriving DecidableEq, Repr

end Sys2Proof.Machine
end

