-- ==== Sys2Proof/Machine/StateEv.lean ====
section
/-! DEFINITION. State of the event fabric (14): the 256 channels, the activations on their way, the coincidence log and
the queues of outgoing EVENT frames. -/
namespace Sys2Proof.Machine

/-- A device entry of kinds 1 to 5 (R498): 1 FORWARD, 2 EXPORT, 3 MSIX (tasks), 4 IMPORT, 5 SOFT (producers). -/
structure Route where
  kind : Nat
  port : Nat
  target : Nat
  addr : Nat
  deriving DecidableEq, Repr

/-- A registration that a field of a function opcode makes (R499): the object and a number for the field. -/
structure ObjReg where
  obj : Nat
  field : Nat
  deriving DecidableEq, Repr

/-- One event channel (R496, R497, R516). -/
structure EvChan where
  owner : Option Nat
  secure : Bool
  routes : List Route
  prods : List ObjReg
  cons : List ObjReg
  acts : Nat
  coincide : Nat
  impDrop : Nat
  expDrop : Nat
  hopLimit : Nat
  hopFlag : Bool
  last : Nat
  coincAt : Option Nat
  deriving DecidableEq, Repr

/-- A channel at reset: FREE, non-secure and empty (R496); its counters are 0. -/
def EvChan.reset : EvChan :=
  { owner := none, secure := false, routes := [], prods := [], cons := [], acts := 0, coincide := 0, impDrop := 0,
    expDrop := 0, hopLimit := 0, hopFlag := false, last := 0, coincAt := none }

/-- A task of a channel: an object that consumes it, or a device entry. -/
inductive TaskRef where
  | obj (id : Nat)
  | route (r : Route)
  deriving DecidableEq, Repr

/-- An arrival on its way to one task (R506: the task was in the tables when the activation entered the hub, an object by `fields`). -/
structure Flight where
  ch : Nat
  task : TaskRef
  fields : List Nat
  prod : Nat
  ehops : Nat
  time : Nat
  deriving DecidableEq, Repr

/-- One entry of the coincidence log (R504). -/
structure Coinc where
  time : Nat
  ch : Nat
  nprod : Nat
  task : Nat
  prod0 : Nat
  prod1 : Nat
  deriving DecidableEq, Repr

/-- The event fabric. `outq` holds for each EVENT frame of this device its port and when it has left (R509); `acted` the tasks and channels that have activated
at the end of a destination cycle not before the present (R503); `before` the tables that the hub still goes by until its next cycle boundary (R506). -/
structure Ev where
  chans : List (Nat × EvChan)
  flights : List Flight
  log : List Coinc
  logOvf : Bool
  fireDenied : Nat
  outq : List (Nat × Nat)
  acted : List (Nat × TaskRef × Nat)
  before : Option (Nat × List (Nat × EvChan))
  deriving DecidableEq, Repr

/-- The fabric at reset (R496). -/
def Ev.reset : Ev := { chans := [], flights := [], log := [], logOvf := false, fireDenied := 0, outq := [], acted := [], before := none }

end Sys2Proof.Machine
end

