-- ==== Sys2Proof/Machine/StateSyn.lean ====
section
/-! DEFINITION. State of pulse synthesis (03): contexts, tone generators, step sequencers with their memories, rings and
waits, and each Quire's envelope library and declared lines. -/
namespace Sys2Proof.Machine

/-- A context: one qubit's frame (R81). -/
structure Ctx where
  fw : BitVec 48
  phase : BitVec 32
  ascale : Nat
  lineA : Nat
  lineB : Nat
  epoch : BitVec 48
  deriving DecidableEq, Repr

/-- A context after reset: it plays nothing (R82). -/
def Ctx.reset : Ctx := { fw := 0, phase := 0, ascale := 0, lineA := 0xFF, lineB := 0xFF, epoch := 0 }

/-- What a generator's envelope is (R84, R90): silence, library samples, FLAT, or a held value. -/
inductive EnvMode where
  | silent
  | lib (rate addr : Nat)
  | flat
  | held (v : Iq)
  deriving DecidableEq, Repr

/-- A tone generator: the step it plays, with the frame it read at the step's start, and the spill sample of the
finished step that is added at `start` (R86). -/
structure Gen where
  env : EnvMode
  start : Nat
  dur : Nat
  fw : BitVec 48
  phase : BitVec 32
  epoch : BitVec 48
  ascale : Nat
  line : Nat
  amp : Nat
  fine : Nat
  ctx : Nat
  spill : Option (Iq × Nat × Bool)
  deriving DecidableEq, Repr

/-- A silent generator. -/
def Gen.reset : Gen :=
  { env := .silent, start := 0, dur := 0, fw := 0, phase := 0, epoch := 0, ascale := 0, line := 0xFF, amp := 0,
    fine := 0, ctx := 0, spill := none }

/-- The states of a Folio (R106); GATED is computed from the personality. -/
inductive FState where
  | idle | armed | running | waiting | late | halted
  deriving DecidableEq, Repr

/-- An open repeat level (R103): the word after its REPEAT_BEGIN, whether that word is a ring word and its place in the
stream, the iterations and the zero-based index. -/
structure Rep where
  body : Nat
  inRing : Bool
  pos : Nat
  iters : Nat
  index : Nat
  deriving DecidableEq, Repr

/-- An effect that a zero-time word has at the next boundary (R95). -/
inductive BoundOp where
  | frame (ctx : Nat) (entry : Nat) (reepoch : Bool)
  | shift (ctx : Nat) (delta : BitVec 32)
  | emit (ch : Nat)
  deriving DecidableEq, Repr

/-- What a WAITING Folio waits for (R99 to R101): until a sample, for an event until a sample, or for the STEPWAIT
trigger until a sample (`due` is the output start once the trigger has come). -/
inductive FWait where
  | until (endAt : Nat) (bnd : Bool)
  | event (ch startAt endAt : Nat) (toHalt : Bool)
  | trig (startAt endAt : Nat) (due : Option Nat)
  deriving DecidableEq, Repr

/-- A register or flag with its recent changes (time and the value before it, newest first), so that a condition can be
taken at a decision point that lies a little in the past (R96, R98, R113). -/
structure Hist where
  val : Nat
  old : List (Nat × Nat)
  deriving DecidableEq, Repr

/-- The fields of SEQ_CONFIG (R122). -/
structure SeqCfg where
  stepwait : Bool
  lateHalt : Bool
  trigEv : Nat
  trigTo : Nat
  proceed : Bool
  bndMin : Nat
  evMark : Nat
  evLate : Nat
  evHalt : Nat
  evLwm : Nat
  deriving DecidableEq, Repr

/-- SEQ_CONFIG at reset (R122). -/
def SeqCfg.reset : SeqCfg :=
  { stepwait := false, lateHalt := false, trigEv := 0xFFFF, trigTo := 16777215, proceed := false, bndMin := 50,
    evMark := 0xFFFF, evLate := 0xFFFF, evHalt := 0xFFFF, evLwm := 0xFFFF }

/-- A setting of the ring and its stream (R123). -/
structure RingCfg where
  base : Nat
  region : Nat
  lwm : Nat
  start : Nat
  length : Nat
  deriving DecidableEq, Repr

/-- The ring at reset: none. -/
def RingCfg.reset : RingCfg := { base := 2048, region := 0xFFFF, lwm := 0, start := 0, length := 0 }

/-- The ring of a Folio as it runs (R108, R109): stream words fetched, the next stream word to execute, the stream word
that lies at the ring's first address in the present pass, whether LWM has fired, and `log` the latest fetches, newest first, each with the words
fetched before it. -/
structure RingRun where
  fetched : Nat
  next : Nat
  origin : Nat
  lwmFired : Bool
  log : List (Nat × Nat)
  deriving DecidableEq, Repr

/-- One Folio (R79 to R128). `boundary` is the output start of the next timed step, `free` the sample in issue time at
which the sequencer can take its next word, `run` the zero-time words since the last decision point's BRANCH,
`pendHalt` and `pendLate` a halt cause or LATE cause that acts at the boundary, `prevDp` and `dp` the previous decision point and the one of the
next boundary (instants), `evLog` the arrivals of channels since then, `acqs` the ACQUIREs started (number and output
start, newest first), `latch` the early trigger (the sample issued when it came), `frOld` what FR4 to FR7 read before their latest changes, newest first, each with the instant of the
change, `trigQ` triggers that came too near
the boundary to be judged yet, `stop0` the first sample that SEQ_STOP with MODE 0 can halt before, and `cut` the first
sample that an issue-time halt makes zero (R593). `past` says of a halted Folio that the word at `pc` has been processed (R127). -/
structure Folio where
  steps : List (Nat × Nat)
  params : List (Nat × Nat)
  ctxs : List (Nat × Ctx)
  fr : List Hist
  timeout : Bool
  stale : Bool
  lateSeen : Bool
  wordErr : Bool
  st : FState
  cfg : SeqCfg
  pc : Nat
  past : Bool
  inRing : Bool
  reps : List Rep
  haltCause : Nat
  lateCause : Nat
  lateCount : Nat
  skipCount : Nat
  staleCount : Nat
  earlyDrop : Nat
  wordErrCount : Nat
  satCount : Nat
  latch : Option Nat
  go : Nat
  boundary : Nat
  ops : List BoundOp
  free : Nat
  run : Nat
  pendHalt : Option Nat
  pendLate : Option Nat
  prevDp : Nat
  dp : Option Nat
  wait : Option FWait
  evLog : List (Nat × Nat)
  acqs : List (Nat × Nat)
  acqNo : Nat
  frOld : List (Nat × List Nat)
  stop0 : Option Nat
  trigQ : List Nat
  cut : Option Nat
  ring : RingCfg
  rr : RingRun
  ringPend : Option RingCfg
  genA : Gen
  genB : Gen
  deriving DecidableEq, Repr

/-- A Folio after reset (R82, R105, R106, R122); memories read 0, registers 0. -/
def Folio.reset : Folio :=
  { steps := [], params := [], ctxs := [], fr := [⟨0, []⟩, ⟨0, []⟩, ⟨0, []⟩, ⟨0, []⟩], timeout := false,
    stale := false, lateSeen := false, wordErr := false, st := .idle, cfg := .reset, pc := 0, past := false, inRing := false,
    reps := [], haltCause := 0, lateCause := 0, lateCount := 0, skipCount := 0, staleCount := 0, earlyDrop := 0,
    wordErrCount := 0, satCount := 0, latch := none, go := 0, boundary := 0, ops := [], free := 0, run := 0,
    pendHalt := none, pendLate := none, prevDp := 0, dp := none, wait := none, evLog := [], acqs := [], acqNo := 0, frOld := [], stop0 := none, trigQ := [], cut := none,
    ring := .reset, rr := { fetched := 0, next := 0, origin := 0, lwmFired := false, log := [] }, ringPend := none,
    genA := .reset, genB := .reset }

/-- A declared line of a Quire: the DAC line, its LSHIFT, its saturation counter (R88, R116), and the stream's latest sample. -/
structure SynLine where
  line : Nat
  shift : Nat
  sat : Nat
  val : Iq
  deriving DecidableEq, Repr

/-- A write to the envelope library that recent fetches may predate (R87): when, where, and the value before it. -/
structure EnvOld where
  time : Nat
  addr : Nat
  old : Nat
  deriving DecidableEq, Repr

/-- One Quire's synthesis island: its Folios, its envelope library and its declared lines. -/
structure SynQuire where
  folios : List (Nat × Folio)
  env : List (Nat × Nat)
  envOld : List EnvOld
  lines : List SynLine
  tones : Nat
  deriving DecidableEq, Repr

/-- A Quire's synthesis at reset: no line declared. -/
def SynQuire.reset : SynQuire := { folios := [], env := [], envOld := [], lines := [], tones := 0 }

/-- Pulse synthesis: the Quires, and the first output sample that has not been formed yet. -/
structure Syn where
  quires : List (Nat × SynQuire)
  formed : Nat
  deriving DecidableEq, Repr

/-- Pulse synthesis at reset. -/
def Syn.reset : Syn := { quires := [], formed := 0 }

end Sys2Proof.Machine
end

