-- ==== Sys2Proof/Machine/StateFb.lean ====
section
/-! DEFINITION. State of the feedback cores (05): the cores' registers, memories, banks, FIFOs and waits, and each Quire's
condition flags, routes, send queue and the frames on the feedback lane. A cycle is a count of 1.28 ns synthesis cycles
of device time (R162). -/
namespace Sys2Proof.Machine

/-- The states of a core (R176); GATED is computed from the personality. -/
inductive CState where
  | idle | running | waiting | halted | fault
  deriving DecidableEq, Repr

/-- A walk descriptor (R166): ORIGIN, EXTENT, ORDER and STRIDE. -/
structure Walk where
  origin : BitVec 13
  extent : BitVec 14
  order : BitVec 2
  stride : BitVec 16
  deriving DecidableEq, Repr

/-- A walk after reset: SEQUENTIAL from word 0 with STRIDE 0 (R166). -/
def Walk.reset : Walk := { origin := 0, extent := 0, order := 0, stride := 0 }

/-- The status register (R164), without RDEPTH and CDEPTH, which the stacks give. -/
structure CSr where
  z : Bool
  n : Bool
  c : Bool
  v : Bool
  t : Bool
  e : Bool
  s : Bool
  ov : Bool
  deriving DecidableEq, Repr

/-- SR after reset (R164). -/
def CSr.reset : CSr := { z := false, n := false, c := false, v := false, t := false, e := false, s := false, ov := false }

/-- An open block repeat (R174): the addresses of its first and last body word and the iterations that remain after the
one in progress. -/
structure CRep where
  start : Nat
  fin : Nat
  left : Nat
  deriving DecidableEq, Repr

/-- A result in a FIFO and the first cycle in which it is there (R177). -/
structure CRes where
  cycle : Nat
  word : BitVec 64
  deriving DecidableEq, Repr

/-- An inbound frame in a FIFO and the first cycle in which it is there (R186): its three words and its IFSRC word. -/
structure CFrame where
  cycle : Nat
  d0 : BitVec 16
  d1 : BitVec 16
  d2 : BitVec 16
  src : BitVec 16
  deriving DecidableEq, Repr

/-- A WAIT in progress (R175): its KIND, its event input, its issue cycle and its COUNT. -/
structure CWait where
  kind : Nat
  ei : Nat
  since : Nat
  count : Nat
  deriving DecidableEq, Repr

/-- The fields of FB_CONFIG (R194); 0xFFFF is none. -/
structure CCfg where
  fmask : BitVec 32
  evi : List Nat
  evo : List Nat
  alarm : Nat
  deriving DecidableEq, Repr

/-- FB_CONFIG at reset: no Folio, no channel. -/
def CCfg.reset : CCfg :=
  { fmask := 0, evi := List.replicate 4 0xFFFF, evo := List.replicate 4 0xFFFF, alarm := 0xFFFF }

/-- One feedback core. `next` is the cycle in which its next instruction issues, `eilat` for each event input the cycle
in which its latch was set, `tsh` the latched TSH, `swap` an armed swap (entry, KEEP, and the cycle in
which it was armed), `lastSt` the last store (cycle, whether to Y, address, and what the word held), `stopSafe` an FB_STOP with
MODE 0 that waits for a SAFE. -/
structure FbCore where
  d : List (BitVec 16)
  a0 : BitVec 40
  a1 : BitVec 40
  x : List (BitVec 13)
  y : List (BitVec 13)
  wx : List Walk
  wy : List Walk
  sr : CSr
  pc : Nat
  rl : BitVec 64
  calls : List Nat
  reps : List CRep
  xmem : List (Nat × BitVec 16)
  ymem : List (Nat × BitVec 16)
  bank0 : List (Nat × BitVec 32)
  bank1 : List (Nat × BitVec 32)
  active : Bool
  st : CState
  cause : Nat
  next : Nat
  wait : Option CWait
  swap : Option (Nat × Bool × Nat)
  stopSafe : Bool
  rfifo : List CRes
  ififo : List CFrame
  ifd : List (BitVec 16)
  ifsrc : BitVec 16
  eilat : List (Option Nat)
  tsh : BitVec 16
  cfg : CCfg
  rfDrop : Nat
  ifDrop : Nat
  sendDrop : Nat
  flagDenied : Nat
  eiOvr : Nat
  framesSent : Nat
  framesRecv : Nat
  issued : Nat
  safeSt : Nat
  lastSt : Option (Nat × Bool × Nat × BitVec 16)
  deriving DecidableEq, Repr

/-- A core after reset: memories and banks 0 (R189), nothing queued. D0 to D7, A0, A1, RL, IFD, IFSRC and TSH are 0: R163 gives them no reset value.
DESIGN CHOICE. -/
def FbCore.reset : FbCore :=
  { d := List.replicate 8 0, a0 := 0, a1 := 0, x := List.replicate 4 0, y := List.replicate 4 0,
    wx := List.replicate 4 .reset, wy := List.replicate 4 .reset, sr := .reset, pc := 0, rl := 0, calls := [],
    reps := [], xmem := [], ymem := [], bank0 := [], bank1 := [], active := false, st := .idle, cause := 0, next := 0,
    wait := none, swap := none, stopSafe := false, rfifo := [], ififo := [], ifd := [0, 0, 0], ifsrc := 0,
    eilat := [none, none, none, none], tsh := 0, cfg := .reset, rfDrop := 0, ifDrop := 0, sendDrop := 0,
    flagDenied := 0, eiOvr := 0, framesSent := 0, framesRecv := 0, issued := 0, safeSt := 0, lastSt := none }

/-- A route entry (R183) with its counters (R185, R195). -/
structure FbRoute where
  port : Nat
  addr : Nat
  dq : Nat
  dcore : Nat
  group : Nat
  fseq : Nat
  sent : Nat
  lost : Nat
  deriving DecidableEq, Repr

/-- A route entry at reset: PORT 0xFF, none. -/
def FbRoute.reset : FbRoute :=
  { port := 0xFF, addr := 0, dq := 0, dcore := 0, group := 0, fseq := 0, sent := 0, lost := 0 }

/-- A frame in the send queue: its issue cycle, its core, its route and what it carries (R184). -/
structure FbSend where
  issue : Nat
  core : Nat
  route : Nat
  port : Nat
  addr : Nat
  payload : List Byte
  deriving DecidableEq, Repr

/-- A frame on the feedback lane towards a Quire: the cycle in which it arrives, its place in the order of R182, and its
payload; `remote` marks a frame from another device. -/
structure FbFlight where
  arrive : Nat
  order : Nat
  remote : Bool
  payload : List Byte
  deriving DecidableEq, Repr

/-- The feedback part of one Quire. `written` holds the cycle of the last frame's flag writes, the flags frames wrote in
it and those already counted as collisions (R182). -/
structure FbQuire where
  cores : List (Nat × FbCore)
  flags : List (Nat × Hist)
  owners : List Nat
  routes : List (Nat × FbRoute)
  sendq : List FbSend
  lastLaunch : Option Nat
  inbound : List FbFlight
  written : Nat × BitVec 64 × BitVec 64
  flagCollide : Nat
  remoteDenied : Nat
  deriving DecidableEq, Repr

/-- A Quire's feedback part at reset: flag f is owned by core f ÷ 16 (R180). -/
def FbQuire.reset : FbQuire :=
  { cores := [], flags := [],
    owners := List.replicate 16 0 ++ List.replicate 16 1 ++ List.replicate 16 2 ++ List.replicate 16 3,
    routes := [], sendq := [], lastLaunch := none, inbound := [], written := (0, 0, 0), flagCollide := 0,
    remoteDenied := 0 }

end Sys2Proof.Machine
end

