-- ==== Sys2Proof/Machine/StatePlan.lean ====
section
/-! DEFINITION. State of intake, channelisers, corner turn and the plans (06, 07). -/
namespace Sys2Proof.Machine

/-! ### Intake (R208, R212 to R215, R234) -/

/-- What INTAKE_SRC_SET binds (R228). -/
structure SrcCfg where
  kind : Nat
  format : Nat
  source : Nat
  line : Nat
  nomlen : Nat
  mul : Nat
  div : Nat
  goff : Nat
  first : Nat
  nchan : Nat
  deriving DecidableEq, Repr

/-- No source. -/
def SrcCfg.none : SrcCfg :=
  { kind := 0, format := 0, source := 0, line := 0, nomlen := 0, mul := 1, div := 1, goff := 0, first := 0, nchan := 0 }

/-- A staged sample, or a run of channels from `first` on of a row of channel samples, with its FLAGGED bit. -/
structure Staged where
  vals : List Iq
  flagged : Bool
  first : Nat
  deriving DecidableEq, Repr

/-- A delay that waits for its label: DELAY, FRAC and the instant from which it applies (R215). -/
structure DelayPend where
  time : Nat
  delay : Nat
  frac : Nat
  deriving DecidableEq, Repr

/-- One input. `lent` says that the device set the Quire's slot for its internal source (R211); `staged` is keyed by the input's sample number and
holds for each the pieces that frames have brought: of a channelised row the channels of each frame, of a raw sample one piece (R212). -/
structure Input where
  src : SrcCfg
  slot : Nat
  lent : Bool
  delay : Nat
  frac : Nat
  delayMax : Nat
  pend : List DelayPend
  staged : List (Nat × List Staged)
  seq : Option Nat
  frames : Nat
  missing : Nat
  flagged : Nat
  lateFrame : Nat
  earlyFrame : Nat
  dup : Nat
  offgrid : Nat
  clip : Nat
  ovf : Nat
  power : Nat
  powAcc : Nat
  blkMissing : Nat
  blkFlagged : Nat
  deriving DecidableEq, Repr

/-- An input after reset: no source, DELAY 0. -/
def Input.reset : Input :=
  { src := .none, slot := 0xFF, lent := false, delay := 0, frac := 0, delayMax := 0, pend := [], staged := [], seq := none, frames := 0,
    missing := 0, flagged := 0, lateFrame := 0, earlyFrame := 0, dup := 0, offgrid := 0, clip := 0, ovf := 0, power := 0,
    powAcc := 0, blkMissing := 0, blkFlagged := 0 }

/-- The counters of an intake lane (R234). -/
structure LaneStats where
  framesOk : Nat
  formatErr : Nat
  crcErr : Nat
  unknownSrc : Nat
  mismatch : Nat
  idleDrop : Nat
  seqGap : Nat
  deriving DecidableEq, Repr

def LaneStats.reset : LaneStats :=
  { framesOk := 0, formatErr := 0, crcErr := 0, unknownSrc := 0, mismatch := 0, idleDrop := 0, seqGap := 0 }

/-! ### Channelisers and the corner turn (R217 to R225) -/

/-- The fields of CHAN_SET (R230). -/
structure ChanCfg where
  bypass : Bool
  taps : Nat
  log2p : Nat
  outBits : Nat
  ch0 : Nat
  f : Nat
  base : Nat
  count : Nat
  shift : Nat
  rshift : Nat
  deriving DecidableEq, Repr

/-- A gain write that waits for the next block, or for the first block at or after an instant (R221). -/
structure GainPend where
  time : Nat
  input : Nat
  ch : Nat
  vals : List Nat
  deriving DecidableEq, Repr

/-- The losses of one input in one block (R224). -/
structure BlockRec where
  block : Nat
  input : Nat
  missing : Nat
  flagged : Nat
  absent : Bool
  deriving DecidableEq, Repr

/-- One Quire's channeliser. `next` is the channel sample it processes next, `written` the blocks whose last row it has
written, `lost` rows that found their half still being read, `until'` the block at which a Quire that has left its plan stops writing (R265). Gains are keyed input × 16,384 + channel. -/
structure Chan where
  cfg : Option ChanCfg
  coefs : List (Nat × Nat)
  gains : List (Nat × Nat)
  gainPend : List GainPend
  next : Nat
  written : Nat
  lost : List (Nat × Nat)
  until' : Option Nat
  deriving DecidableEq, Repr

def Chan.reset : Chan := { cfg := none, coefs := [], gains := [], gainPend := [], next := 0, written := 0, lost := [], until' := none }

/-- The fields of CT_SET (R233). -/
structure CtCfg where
  region : Nat
  s : Nat
  f : Nat
  npad : Nat
  b : Nat
  align : Nat
  deriving DecidableEq, Repr

/-- The corner turn: its configuration, a change that waits for the wrap, the channel sample at which block 0 begins,
the next block boundary and the blocks released for reading, and the losses of blocks not yet read. Blocks are kept under
serial numbers that never restart; the block number of R224 is the serial number plus `off`, and `was` holds, oldest first, the earlier values of
`off` with the serial number of the first block that no longer has them. `seam` holds, newest first, the steps of device time that rows still to be written may lie
before: the first channel sample after the step, by how many samples it renumbered, and `off` before it. `void` are blocks that a step has cut. -/
structure Ct where
  cfg : Option CtCfg
  pend : Option CtCfg
  origin : Nat
  off : Int
  was : List (Nat × Int)
  nextB : Nat
  released : Nat
  recs : List BlockRec
  seam : List (Nat × Int × Int)
  void : List Nat
  deriving DecidableEq, Repr

def Ct.reset : Ct := { cfg := none, pend := none, origin := 0, off := 0, was := [], nextB := 0, released := 0, recs := [], seam := [], void := [] }

/-! ### Plans (R235 to R274) -/

/-- STATE of PLAN_STATUS (R274). -/
inductive PState where
  | idle | pending | running | stopping | stoppedCapacity
  deriving DecidableEq, Repr

/-- The clock of a plan's channel samples: sample j has the label (j × per + goff) × 0.64 ns ÷ mul (R218, R236). -/
structure PlanClk where
  per : Nat
  goff : Nat
  mul : Nat
  deriving DecidableEq, Repr

/-- The fields of CORR_PLAN_SET (R267). -/
structure CorrCfg where
  qmask : Nat
  mode : Nat
  rect : Bool
  na : Nat
  t : Nat
  nblk : Nat
  vregion : Nat
  pmax : Nat
  blank : Bool
  blankThr : Nat
  evInteg : Nat
  evAlarm : Nat
  deriving DecidableEq, Repr

/-- The fields of CORR_EXPORT_SET (R268). -/
structure CorrExport where
  paths : Nat
  dma : Nat
  baseline : Bool
  addrs : List Nat
  deriving DecidableEq, Repr

/-- The fields of BEAM_PLAN_SET (R271). -/
structure BeamCfg where
  qmask : Nat
  inBits : Nat
  outBits : Nat
  nbeam : Nat
  ch0 : Nat
  nch : Nat
  wgroup : Nat
  wregion : Nat
  pmax : Nat
  bshift : Nat
  evBlock : Nat
  evAlarm : Nat
  deriving DecidableEq, Repr

/-- One path of BEAM_EXPORT_SET (R261, R272): its beams and where they go. -/
structure BeamPath where
  first : Nat
  count : Nat
  addr : Nat
  deriving DecidableEq, Repr

/-- Counters and placement of a plan (R274). `start` is START (R269); `members` are the Quires in the plan, `share` the units each holds. -/
structure PlanRun where
  st : PState
  start : Nat
  clk : PlanClk
  point : Nat
  arrays : Nat
  umax : Nat
  members : List Nat
  exported : Nat
  overrun : Nat
  sat : Nat
  pathLost : Nat
  blanked : Nat
  clip : Nat
  cellops : Nat
  d : Nat
  proc : Nat
  refuse : List Nat
  deriving DecidableEq, Repr

def PlanRun.reset : PlanRun :=
  { st := .idle, start := 0, clk := { per := 1, goff := 0, mul := 1 }, point := 3, arrays := 0, umax := 0, members := [],
    exported := 0, overrun := 0, sat := 0, pathLost := 0, blanked := 0, clip := 0, cellops := 0, d := 0, proc := 0,
    refuse := [] }

/-- The loss counts of one input over an integration (R249). -/
structure Weight where
  missing : Nat
  flagged : Nat
  blanked : Nat
  deriving DecidableEq, Repr

/-- An integration: its number, its first block and the label of its first sample, the blocks it still has, those
accumulated, its flags and its weights, keyed by input. -/
structure Integ where
  number : Nat
  first : Nat
  time : Nat
  last : Nat
  blocks : Nat
  flags : Nat
  sat : Nat
  blankedSum : Nat
  weights : List (Nat × Weight)
  discard : Bool
  exp : Option CorrExport
  deriving DecidableEq, Repr

/-- The correlation plan. `stop`: 0 and 1 are the modes of a CORR_STOP that waits for its boundary; 2 and 3 that the blocks
before the last boundary are still processed, after which the plan is STOPPED_CAPACITY or IDLE. `chan` is the next channel of the block being processed, `cur` the integrations begun and not
finished (oldest first), `finished` the one being exported, `numBase` the number of the integration at block 0. -/
structure Corr where
  cfg : Option CorrCfg
  exp : Option CorrExport
  expPend : Option CorrExport
  run : PlanRun
  chan : Nat
  cur : List Integ
  finished : List Integ
  numBase : Nat
  nextNumber : Nat
  stop : Option Nat
  redo : Bool
  deriving DecidableEq, Repr

def Corr.reset : Corr :=
  { cfg := none, exp := none, expPend := none, run := .reset, chan := 0, cur := [], finished := [], numBase := 0,
    nextNumber := 0, stop := none, redo := false }

/-- The beam plan. `banks` and `exps` hold the weight bank and the export paths from a block (serial number) on, newest
first; `bankPend` a commit that waits and the instant from which it may act, `kept` for the paths of an entry of `exps`, by its block, and each path how many of its beams
a narrowed port still sends, `last` the block at which the plan stops. -/
structure Beam where
  cfg : Option BeamCfg
  exps : List (Nat × List (Option BeamPath))
  expPend : Option (List (Option BeamPath))
  run : PlanRun
  banks : List (Nat × Nat)
  bankPend : Option (Nat × Nat)
  kept : List ((Nat × Nat) × Nat)
  stagePos : Nat
  stop : Bool
  last : Option Nat
  redo : Bool
  deriving DecidableEq, Repr

def Beam.reset : Beam :=
  { cfg := none, exps := [], expPend := none, run := .reset, banks := [], bankPend := none, kept := [], stagePos := 0,
    stop := false, last := none, redo := false }

/-- Intake, corner turn and plans. -/
structure Plans where
  inputs : List (Nat × Input)
  lanes : List (Nat × LaneStats)
  chans : List (Nat × Chan)
  ct : Ct
  corr : Corr
  beam : Beam
  deriving DecidableEq, Repr

def Plans.reset : Plans := { inputs := [], lanes := [], chans := [], ct := .reset, corr := .reset, beam := .reset }

end Sys2Proof.Machine
end

