-- ==== Sys2Proof/Machine/StateRf.lean ====
section
/-! DEFINITION. State of the converter chiplets (08): DAC and ADC lines, muting and line calibration. -/
namespace Sys2Proof.Machine

/-- The fields of DAC_LINE_SET (R294); LEPOCH as a count of output samples. -/
structure DacCfg where
  mode : Nat
  cshift : Nat
  lfw : BitVec 48
  lphase : BitVec 32
  lepoch : Nat
  lgain : Nat
  deriving DecidableEq, Repr

/-- Calibration of a line (R289, R290, R298, R299): policy and period, whether a calibration is due and when the last PERIOD
ended, the one in progress (its end, and whether a command waits for it), the counters, and the correction in force and its
target. -/
structure LineCal where
  policy : Nat
  period : Nat
  due : Bool
  from' : Nat
  until' : Option Nat
  count : Nat
  disagree : Nat
  missed : Nat
  last : Nat
  inForce : List Int
  target : List Int
  deriving DecidableEq, Repr

/-- A line's calibration at reset: PERIOD 60 (R298); POLICY 0 by design choice. -/
def LineCal.reset : LineCal :=
  { policy := 0, period := 60, due := false, from' := 0, until' := none, count := 0, disagree := 0, missed := 0, last := 0,
    inForce := [0, 0, 0], target := [0, 0, 0] }

/-- One DAC line (R276 to R283). `cause` is MUTE_CAUSE; `mutes` the instants of RF_MUTE_SETs to come; `muteAt` the instant
at which another cause's mute takes effect; `zero` the DAC input at code 0, since `zeroAt`; `opened` the switch;
`resumeAt` when the input resumes; `settleTo` the end of the settling after OFF; `unmuteWait` an unmute that waits for it; `zs` the line sums that the
interpolator still holds, newest first. -/
structure DacLine where
  cfg : DacCfg
  cause : Nat
  mutes : List Nat
  muteAt : Option Nat
  zero : Bool
  zeroAt : Nat
  opened : Bool
  resumeAt : Option Nat
  settleTo : Option Nat
  unmuteWait : Bool
  zs : List Iq
  sat : Nat
  cal : LineCal
  deriving DecidableEq, Repr

/-- A DAC line at reset (R280, R294): HOST set, the switch open. -/
def DacLine.reset : DacLine :=
  { cfg := { mode := 0, cshift := 0, lfw := 0, lphase := 0, lepoch := 0, lgain := 0xFFFF }, cause := 1, mutes := [], muteAt := none,
    zero := true, zeroAt := 0, opened := true, resumeAt := none, settleTo := none, unmuteWait := false, zs := [], sat := 0, cal := .reset }

/-- The fields of ADC_LINE_SET (R297); AEPOCH as a count of output samples. -/
structure AdcCfg where
  afw : BitVec 48
  aphase : BitVec 32
  aepoch : Nat
  gain6 : Bool
  enable : Bool
  deriving DecidableEq, Repr

/-- One ADC line: its fields; `was` the earlier ones, newest first, each with the instant at which it was replaced; a WHEN 0 change that waits for a
boundary; the spans of device time in which it delivers no stream, newest first (R287, R290); and SAT_COUNT, counted up to `satAt` (R299). -/
structure AdcLine where
  cfg : AdcCfg
  was : List (Nat × AdcCfg)
  pend : Option (Nat × AdcCfg)
  gaps : List (Nat × Option Nat)
  sat : Nat
  satAt : Nat
  cal : LineCal
  deriving DecidableEq, Repr

/-- An ADC line at reset (R297). -/
def AdcLine.reset : AdcLine :=
  { cfg := { afw := 0, aphase := 0, aepoch := 0, gain6 := false, enable := true }, was := [], pend := none, gaps := [], sat := 0, satAt := 0, cal := .reset }

/-- The converters: the lines; FILTER, LATCH and NONCOH_ALLOW of RF_MUTE_POLICY_SET; whether the RF_MUTE_N pin is asserted, after
its glitch filter, when it was last asserted there, and before the filter; the chiplets above 110 °C, and those out of service (R13); and the spans in which ADC lines have had no stream
(R291), newest first, by what kept them silent: chiplet c out (c) or its link failed (4 + c), line n retired (16 + n), ENDPAPER (32). -/
structure Rf where
  dacs : List (Nat × DacLine)
  adcs : List (Nat × AdcLine)
  filter : Nat
  latch : Bool
  allow : Bool
  pin : Bool
  pinAt : Option Nat
  pinRaw : Bool
  hot : List Nat
  out : List Nat
  down : List (Nat × Nat × Option Nat)
  deriving DecidableEq, Repr

/-- The converters at reset: FILTER 16 (R283), LATCH 1 (R283), NONCOH_ALLOW 0. -/
def Rf.reset : Rf := { dacs := [], adcs := [], filter := 16, latch := true, allow := false, pin := false, pinAt := none, pinRaw := false, hot := [], out := [], down := [] }

end Sys2Proof.Machine
end

