-- ==== Sys2Proof/Machine/StateRo.lean ====
section
/-! DEFINITION. State of the read-out (04): source slots, read-out sets, windows, results, the kernel library, the host
result stream, weave and the covariance run. -/
namespace Sys2Proof.Machine

/-- The discriminator of a read-out set (R142, R156). -/
structure Disc where
  nstates : Nat
  a0 : Int
  b0 : Int
  a1 : Int
  b1 : Int
  a2 : Int
  b2 : Int
  c0 : Int
  c1 : Int
  c2 : Int
  margin : Nat
  deriving DecidableEq, Repr

/-- A read-out set (R136). -/
structure RSet where
  src : Nat
  cut : Bool
  weave : Bool
  dfw : BitVec 48
  dphase : BitVec 32
  depoch : BitVec 48
  kbase : Nat
  len : Nat
  dshift : Nat
  dest : Nat
  evDone : Nat
  evMatch : Nat
  matchMask : Nat
  disc : Disc
  deriving DecidableEq, Repr

/-- A read-out set after reset (R136). -/
def RSet.reset : RSet :=
  { src := 0, cut := false, weave := false, dfw := 0, dphase := 0, depoch := 0, kbase := 0, len := 4, dshift := 0,
    dest := 0, evDone := 0xFFFF, evMatch := 0xFFFF, matchMask := 0,
    disc := { nstates := 2, a0 := 0, b0 := 0, a1 := 0, b1 := 0, a2 := 0, b2 := 0, c0 := 0, c1 := 0, c2 := 0,
              margin := 0 } }

/-- A pending window (R138): the set it names, its first label and the number of its ACQUIRE. -/
structure PendWin where
  rset : Nat
  start : Nat
  acq : Nat
  deriving DecidableEq, Repr

/-- The weave values that one WEAVE_SET gives (R147, R160); `w` is keyed 32 i + j and holds I + 256 Q. -/
structure Weave where
  enable : Bool
  shift : Nat
  members : Nat
  msets : List Nat
  w : List (Nat × Nat)
  deriving DecidableEq, Repr

/-- Weave at reset: off. -/
def Weave.reset : Weave := { enable := false, shift := 0, members := 0, msets := List.replicate 32 0, w := [] }

/-- A member of weave or of a covariance run (R147, R151): its Folio, the line that its set's slot holds, and the set. -/
structure Member where
  folio : Nat
  line : Option Nat
  set : RSet
  deriving DecidableEq, Repr

/-- An open window, or one that has ended and whose result is on its way (R137 to R142): the set as read when it opened,
its labels [start, endAt), the line its slot held, the weave values in force when it integrates the weave output, and with them the line and the set of
each member, and whether it was cut. -/
structure Win where
  set : RSet
  rset : Nat
  start : Nat
  endAt : Nat
  acq : Nat
  line : Option Nat
  weave : Option Weave
  mems : List Member
  trunc : Bool
  wcount : Nat
  bad : Bool
  deriving DecidableEq, Repr

/-- A delivered result (R98, R143): its word, the ACQUIRE it belongs to and when it arrived. -/
structure Result where
  word : Nat
  acq : Nat
  time : Nat
  deriving DecidableEq, Repr

/-- One demodulator. `results` are the latest results, newest first. -/
structure Demod where
  sets : List (Nat × RSet)
  pend : List PendWin
  wins : List Win
  results : List Result
  wcount : Nat
  winCount : Nat
  ovlDrop : Nat
  ovlCut : Nat
  cancel : Nat
  satCount : Nat
  srcErr : Nat
  last : Nat
  deriving DecidableEq, Repr

/-- A demodulator after reset. -/
def Demod.reset : Demod :=
  { sets := [], pend := [], wins := [], results := [], wcount := 0, winCount := 0, ovlDrop := 0, ovlCut := 0,
    cancel := 0, satCount := 0, srcErr := 0, last := 3 }

/-- A covariance run (R151, R161): its members, in ascending order, as they were when it was accepted. -/
structure Covar where
  mems : List Member
  start : Nat
  nsamp : Nat
  deriving DecidableEq, Repr

/-- A record of the host result stream (R146), and the synthesis cycle of its arrival (R140). -/
structure RoRecord where
  cycle : Nat
  word : Nat
  wstart : Nat
  ai : Int
  aq : Int
  drops : Nat
  deriving DecidableEq, Repr

/-- A write to the kernel library that recent fetches may predate (R141). -/
structure KernOld where
  time : Nat
  addr : Nat
  old : Nat
  deriving DecidableEq, Repr

/-- The read-out of one Quire. A source slot holds a line, or 0xFF for none (R129). -/
structure RoQuire where
  slot0 : Nat
  slot1 : Nat
  pendRoute : Option (Nat × Nat)
  demods : List (Nat × Demod)
  kern : List (Nat × Nat)
  kernOld : List KernOld
  channel : Option Nat
  queue : List RoRecord
  drops : Nat
  weave : Weave
  weavePend : Option Weave
  weaveBank : Weave
  covar : Option Covar
  cov : List (Nat × (Int × Int))
  readouts : Nat
  deriving DecidableEq, Repr

/-- The read-out of logical Quire `q` at reset: slot S0 holds ADC line q (R129). -/
def RoQuire.reset (q : Nat) : RoQuire :=
  { slot0 := q, slot1 := 0xFF, pendRoute := none, demods := [], kern := [], kernOld := [], channel := none, queue := [],
    drops := 0, weave := .reset, weavePend := none, weaveBank := .reset, covar := none, cov := [], readouts := 0 }

end Sys2Proof.Machine
end

