-- ==== Sys2Proof/Machine/State.lean ====
section
/-! DEFINITION. The state of the block, its value right after reset, and the reasons a step can stop. -/
namespace Sys2Proof.Machine

/-- Why a step faults. Both are accesses to addresses that the spec says do not exist. -/
inductive Fault where
  /-- Raised by REG_WRITE at an offset outside the 64 KiB of BAR0 (R56). Safe: the machine stops where the host's bus
  would not have reached the device. -/
  | bar0Hole
  /-- Raised by BAR2_ACCESS at an offset outside the 1 GiB of BAR2 (R64). Safe, as `bar0Hole`. -/
  | bar2Hole
  deriving DecidableEq, Repr

/-- Why a step is refused. -/
inductive Refusal where
  /-- Raised by the arm of a command that has no meaning yet. Safe: nothing is claimed of such a command. -/
  | notModelled (mnemonic : String)
  deriving DecidableEq, Repr

/-- What the block has sent to the outside, in the model's own record (newest first). -/
inductive Out where
  /-- A reply packet to a source (R38). -/
  | reply (src : Src) (bytes : List Byte)
  /-- A write to host memory over PCIe (R60, R65). -/
  | hostWrite (addr : Nat) (bytes : List Byte)
  /-- An MSI-X message (R62). -/
  | msix (vector : Nat)
  /-- Characters sent on a lane, from the first to the last: a frame with its bracket, an IDENT, a SKIP or an abort (R302, R303, R304, R311 to
  R315). Where nothing is sent a lane sends idle sets. -/
  | line (lane : Nat) (chars : List Chr)
  /-- The data of a read through the BAR2 window (R64). -/
  | bar2 (bytes : List Byte)
  /-- The data bytes of an SMBus read (R67, R68). -/
  | smbus (bytes : List Byte)
  /-- A not-acknowledge on the SMBus (R68). -/
  | smbusNack
  /-- A TRIG output that becomes active at the land (R365). -/
  | trig (n : Nat) (time : Nat)
  deriving DecidableEq, Repr

/-- The ports, the commands and the transports (01, 02). `causeAt` is when CAUSE was recorded, `paused` the packets
that wait for the end of a hand-over pause (R545), oldest first, with whether their sequence number has been taken already, `claims` the
resources that commands of the Endpaper cycle of the instant `claimsAt` have changed, with their sources (R52). `perst` and `rst` are the reset pins while low, `fwUp` that the boot firmware runs, `bootAt` when
BOOT was entered (R403). -/
structure Dev where
  st : DevState
  cause : Cause
  causeAt : Nat
  addr : Nat
  priv : List Priv
  streams : List (Nat × Stream)
  deadlines : List (Nat × (Nat × Nat))
  timed : List Timed
  held : List Held
  paused : List (Pkt × Bool)
  claims : List (Nat × Nat)
  claimsAt : Nat
  rings : List Ring
  winRegion : Nat
  winEn : Bool
  winErr : Bool
  winBase : Nat
  dma : List (Nat × Dma)
  msix : List (Nat × Msix)
  msixPend : List Nat
  mbox : Mailbox
  smbus : Smbus
  images : List (Nat × ImgSlot)
  imgAge : Nat
  fwRunning : Nat
  fwActive : Nat
  qbind : List QBind
  faultOut : Bool
  perst : Bool
  rst : Bool
  fwUp : Bool
  bootAt : Nat
  stalls : List (Nat × Nat)
  deriving DecidableEq, Repr

/-- Faults, sparing, memory and live service (16). -/
structure Svc where
  phys : List (Nat × PhysQuire)
  retired : List Nat
  spq : Option Nat
  spare2 : List Nat
  log : List FaultEntry
  lseq : Nat
  logWrap : Nat
  unread : List Nat
  transLimit : Nat
  transWindow : Nat
  evFault : Nat
  transients : List (FUnit × Nat)
  corrected : List (FUnit × Nat × List Nat)
  tests : List RunTest
  moves : List PendMove
  retiredUnits : List FUnit
  spared : List FUnit
  migration : Option Migration
  handover : Handover
  trial : Option (Nat × Nat)
  regions : List (Nat × Option Region)
  dram : List Host.Cell
  dramRetired : Nat
  dramRows : List (Nat × Nat)
  sramRows : List (Nat × Nat)
  deriving DecidableEq, Repr

/-- Identity, keys and attestation (17). -/
structure Trust where
  keys : List KeySlot
  counters : List (Nat × Nat)
  nonces : List (Nat × Option (List Byte × Nat))
  record : List Byte
  applyLog : List ApplyEntry
  applyOvf : Bool
  lastApply : Option Nat
  dbg : Nat
  dbg1 : Bool
  dbg2 : Bool
  deriving DecidableEq, Repr

/-- A write that takes effect at an instant after the command that made it (R114, R128, R137 and the like). -/
inductive Effect where
  | ctxSet (q f c mask : Nat) (to' : Ctx)
  | ctxShift (q f c : Nat) (delta : BitVec 32)
  | seqStop (q f : Nat)
  | rset (q f set : Nat) (to' : RSet)
  | disc (q f set : Nat) (to' : Disc)
  | flags (q : Nat) (mask value : BitVec 64)
  | evout (q k ch : Nat)
  | coreStart (q k bank entry : Nat) (clear : Bool)
  | route (q n : Nat) (to' : FbRoute)
  | owners (q : Nat) (to' : List Nat)
  | dac (n mask : Nat) (to' : DacCfg)
  | adc (n mask : Nat) (to' : AdcCfg)
  | adcBound (n : Nat)
  | unmuteEnd (named : Nat)
  | unmute (mask : Nat)
  | fbOut (q k n port addr : Nat) (payload : List Byte)
  | fbRelay (port dest src hops : Nat) (payload : List Byte)
  | roDrain (q : Nat)
  | mutePin (low : Bool)
  | laneSwap (n : Nat)
  | settle (w : Wait)
  deriving DecidableEq, Repr

/-- An effect and the instant at which it comes about. Of two at one instant the one put in first comes first. -/
structure Delayed where
  time : Nat
  eff : Effect
  deriving DecidableEq, Repr

/-- The state of the block. `pending` is the queue of commands that wait, `now` the device time in units of
1/1,638,400 ns, `free` counts the free values used so far (the model's own field), `sent` is the model's own record
of what has left the block. -/
structure State where
  pending : List Instr
  now : Nat
  free : Nat
  sent : List Out
  dev : Dev
  svc : Svc
  trust : Trust
  ev : Ev
  syn : Syn
  ro : List (Nat × RoQuire)
  fb : List (Nat × FbQuire)
  clk : Clk
  plans : Plans
  link : Link
  rf : Rf
  cap : Caps
  bsc : Bsc
  delayed : List Delayed
  deriving DecidableEq, Repr

/-- The ports and commands at reset. -/
def Dev.reset : Dev :=
  { st := .boot, cause := { kind := 0, detail := 0, reason := 0 }, causeAt := 0, addr := 0,
    priv := [.operator, .observer, .observer, .observer, .observer, .owner],
    streams := [], deadlines := [], timed := [], held := [], paused := [], claims := [], claimsAt := 0,
    rings := [.reset 0, .reset 1, .reset 2, .reset 3, .reset 4, .reset 5, .reset 6, .reset 7],
    winRegion := 0, winEn := false, winErr := false, winBase := 0, dma := [], msix := [], msixPend := [],
    mbox := .reset, smbus := .reset, images := [], imgAge := 0, fwRunning := 0, fwActive := 0,
    qbind := [.reset 0, .reset 1, .reset 2, .reset 3, .reset 4, .reset 5, .reset 6, .reset 7, .reset 8, .reset 9,
      .reset 10, .reset 11, .reset 12, .reset 13, .reset 14, .reset 15],
    faultOut := true, perst := false, rst := false, fwUp := false, bootAt := 0, stalls := [] }

/-- Faults and memory at reset: no spare in use, physical Quire 16 the spare (R19), an empty log, no region. -/
def Svc.reset : Svc :=
  { phys := [], retired := [], spq := some 16, spare2 := [], log := [], lseq := 0, logWrap := 0, unread := [],
    transLimit := 16, transWindow := 3600, evFault := 0xFFFF, transients := [], corrected := [], tests := [], moves := [],
    retiredUnits := [], spared := [], migration := none, handover := .idle, trial := none, regions := [], dram := [],
    dramRetired := 0, dramRows := [], sramRows := [] }

/-- Ownership at reset: the shipped, unowned device (R591); the configuration record is 48 zero bytes (R570). -/
def Trust.reset : Trust :=
  { keys := [.empty, .empty, .empty, .empty], counters := [], nonces := [], record := zeros 48, applyLog := [],
    applyOvf := false, lastApply := none, dbg := 0, dbg1 := false, dbg2 := false }

/-- The block right after reset: VAUX has just become good, the device is in BOOT and device time is 0 (R30, R345). The pins stand as their pulls
leave them (R577): RF_MUTE_N low, so that PIN is set on every DAC line (R283), PERST_N low, SYS_RST_N and BCLR_N high. -/
def State.reset : State :=
  { pending := [], now := 0, free := 0, sent := [], dev := { Dev.reset with perst := true }, svc := .reset, trust := .reset, ev := .reset, syn := .reset, ro := [], fb := [], clk := .reset, plans := .reset, link := .reset,
    rf := { Rf.reset with pin := true, pinRaw := true, dacs := (List.range 40).map fun n => (n, { DacLine.reset with cause := 3 }) }, cap := .reset, bsc := .reset, delayed := [] }

end Sys2Proof.Machine
end

