-- ==== Sys2Proof/Machine/Objects.lean ====
section
/-! DEFINITION. Object identifiers (00, R3 to R8): classes, fields and the check of step 7 that belongs to the ID
itself. -/
namespace Sys2Proof.Machine

/-- The object classes (R4). -/
inductive Cls where
  | device | quire | folio | context | tonegen | demod | fbcore | gather | channelizer | intake | arrayport | capture
  | tin | bias | mon | event | trig | dacline | adcline | island | memregion | image
  deriving DecidableEq, Repr

/-- The class with a code (R4); codes 0x16 to 0x3F are reserved. -/
def Cls.ofCode (n : Nat) : Option Cls :=
  lget none [some .device, some .quire, some .folio, some .context, some .tonegen, some .demod, some .fbcore,
    some .gather, some .channelizer, some .intake, some .arrayport, some .capture, some .tin, some .bias, some .mon,
    some .event, some .trig, some .dacline, some .adcline, some .island, some .memregion, some .image] n

/-- The code of a class (R4). -/
def Cls.code : Cls → Nat
  | .device => 0 | .quire => 1 | .folio => 2 | .context => 3 | .tonegen => 4 | .demod => 5 | .fbcore => 6
  | .gather => 7 | .channelizer => 8 | .intake => 9 | .arrayport => 10 | .capture => 11 | .tin => 12 | .bias => 13
  | .mon => 14 | .event => 15 | .trig => 16 | .dacline => 17 | .adcline => 18 | .island => 19 | .memregion => 20
  | .image => 21

/-- The fields of an object ID (R3). -/
structure Obj where
  cls : Cls
  quire : Nat
  folio : Nat
  ctx : Nat
  index : Nat
  deriving DecidableEq, Repr

/-- The 32-bit ID of an object (R3). -/
def Obj.id (o : Obj) : Nat :=
  o.cls.code * 2 ^ 26 + o.quire * 2 ^ 20 + o.folio * 2 ^ 14 + o.ctx * 2 ^ 11 + o.index

/-- The object that a 32-bit ID spells, if its class is not reserved (R3). -/
def Obj.ofId (n : Nat) : Option Obj :=
  match Cls.ofCode (bits n 26 6) with
  | none => none
  | some c => some { cls := c, quire := bits n 20 6, folio := bits n 14 6, ctx := bits n 11 3, index := bits n 0 11 }

/-- Object IDs of the device's own objects. -/
def quireId (q : Nat) : Nat := 2 ^ 26 + q * 2 ^ 20
def folioId (q f : Nat) : Nat := 2 * 2 ^ 26 + q * 2 ^ 20 + f * 2 ^ 14
def demodId (q f : Nat) : Nat := 5 * 2 ^ 26 + q * 2 ^ 20 + f * 2 ^ 14
def coreId (q k : Nat) : Nat := 6 * 2 ^ 26 + q * 2 ^ 20 + k
def captureId (n : Nat) : Nat := 11 * 2 ^ 26 + n
def tinId (n : Nat) : Nat := 12 * 2 ^ 26 + n
def biasId (n : Nat) : Nat := 13 * 2 ^ 26 + n
def monId (n : Nat) : Nat := 14 * 2 ^ 26 + n
def trigId (n : Nat) : Nat := 16 * 2 ^ 26 + n
def dacId (n : Nat) : Nat := 17 * 2 ^ 26 + n
def adcId (n : Nat) : Nat := 18 * 2 ^ 26 + n
def regionId (n : Nat) : Nat := 20 * 2 ^ 26 + n
def imageId (n : Nat) : Nat := 21 * 2 ^ 26 + n
def chipletId (c : Nat) : Nat := 19 * 2 ^ 26 + 11 + c
def deviceId : Nat := 0

/-- The index of a class is in its range (R4, R5). -/
def Obj.indexOk (o : Obj) : Bool :=
  match o.cls with
  | .tonegen => decide (o.index < 2)
  | .fbcore => decide (o.index < 4)
  | .gather => decide (o.index < 6)
  | .intake =>
    if o.ctx = 0 then decide (o.index < 2048) else if o.ctx = 1 then decide (o.index < 72)
    else o.ctx == 2 && decide (o.index < 4)
  | .arrayport => if o.ctx = 0 then decide (o.index < 4) else o.ctx == 1 && decide (o.index < 20)
  | .capture => decide (o.index < 16)
  | .tin => decide (o.index < 8)
  | .bias => decide (o.index < 64)
  | .mon => decide (o.index < 146)
  | .event => decide (o.index < 256)
  | .trig => decide (o.index < 16)
  | .dacline => decide (o.index < 40)
  | .adcline => decide (o.index < 16)
  | .island => decide (o.index < 18)
  | .memregion => decide (o.index < 2048)
  | .image =>
    decide (o.index ≤ 2) || (decide (0x10 ≤ o.index) && decide (o.index ≤ 0x4F)) ||
      (decide (0x80 ≤ o.index) && decide (o.index ≤ 0x82))
  | _ => o.index == 0

/-- The class uses the Quire field (R4); ISLAND uses it for indices 16 and 17 only. -/
def Obj.usesQuire (o : Obj) : Bool :=
  match o.cls with
  | .quire | .folio | .context | .tonegen | .demod | .fbcore | .gather | .channelizer => true
  | .island => decide (16 ≤ o.index)
  | _ => false

/-- The class uses the Folio field (R4). -/
def Obj.usesFolio (o : Obj) : Bool :=
  match o.cls with
  | .folio | .context | .tonegen | .demod => true
  | _ => false

/-- The class uses the Context field (R4). -/
def Obj.usesCtx (o : Obj) : Bool :=
  match o.cls with
  | .context | .intake | .arrayport => true
  | _ => false

/-- The Quire or Folio field holds the wildcard (R6). -/
def Obj.wild (o : Obj) : Bool := (o.usesQuire && o.quire == 0x3F) || (o.usesFolio && o.folio == 0x3F)

/-- An object ID has none of the faults of R4; a wildcard passes here and is judged by R6. -/
def Obj.ok (o : Obj) : Bool :=
  o.indexOk &&
  (if o.usesQuire then decide (o.quire < 16) || o.quire == 0x3F else o.quire == 0) &&
  (if o.usesFolio then decide (o.folio < 32) || o.folio == 0x3F else o.folio == 0) &&
  (o.usesCtx || o.ctx == 0)

/-- The logical Quire that an object lies in, if it lies in one. -/
def Obj.quire? (o : Obj) : Option Nat := if o.usesQuire then some o.quire else none

/-- The objects that a wildcard ID matches (R6), in ascending Quire and then Folio order (R7): every logical Quire whose
personality is not OFF, and all 32 Folios of a matched Quire. An ID without a wildcard matches itself. -/
def Obj.expand (o : Obj) (live : List Nat) : List Obj :=
  let qs := if o.usesQuire && o.quire == 0x3F then live else [o.quire]
  let fs := if o.usesFolio && o.folio == 0x3F then List.range 32 else [o.folio]
  qs.flatMap fun q => fs.map fun f => { o with quire := q, folio := f }

end Sys2Proof.Machine
end

