-- ==== Sys2Proof/Machine/Ops.lean ====
section
/-! DEFINITION. The operations that every family shares: device time, the packet CRC, status codes, MSI-X vectors,
replies and their delivery by each transport, memory regions, and the record of what has left the block. -/
namespace Sys2Proof.Machine

/-! ### Device time. One unit is 1/1,638,400 ns: a sample is 2^20 units, FRAC counts 25 units (R342, R344). -/

def uNs : Nat := 1638400
def uSample : Nat := 1048576
def uCycle : Nat := 2097152
def uLga : Nat := 2621440
def uTick : Nat := 5242880
def uUs : Nat := 1638400000
def uMs : Nat := 1638400000000
def uS : Nat := 1638400000000000

/-- The 12 bytes of a device time (R342). -/
def dtBytes (t : Nat) : List Byte :=
  leBytes 12 (t % uNs / 25 + t / uNs % 1000000000 * 2 ^ 16 + t / uS % 2 ^ 48 * 2 ^ 48)

/-- The device time that 12 bytes spell, or none where NS exceeds 999,999,999 (R342). -/
def dtOf (bs : List Byte) : Option Nat :=
  let v := leNat (bs.take 12)
  if bits v 16 32 ≤ 999999999 then some (bits v 0 16 * 25 + bits v 16 32 * uNs + bits v 48 48 * uS) else none

/-- The first coarse tick at or after a time (R44). -/
def tickAt (t : Nat) : Nat := roundUp t uTick

/-- The first coarse tick after a time. -/
def tickAfter (t : Nat) : Nat := (t / uTick + 1) * uTick

/-! ### CRC-32C (R37) -/

/-- One bit of the reflected CRC-32C. -/
def crcBit (c : BitVec 32) : BitVec 32 := if c.getLsbD 0 then (c >>> 1) ^^^ 0x82F63B78#32 else c >>> 1

/-- One byte of the CRC. -/
def crcByte (c : BitVec 32) (b : Byte) : BitVec 32 :=
  crcBit (crcBit (crcBit (crcBit (crcBit (crcBit (crcBit (crcBit (c ^^^ b.setWidth 32))))))))

/-- CRC-32C of a byte string: initial value and final XOR 0xFFFF_FFFF (R37). -/
def crc32c (bs : List Byte) : BitVec 32 := ~~~ (bs.foldl crcByte 0xFFFFFFFF#32)

/-! ### Status codes (R48) -/

namespace Status
def ok : Nat := 0x0000
def accepted : Nat := 0x0001
def eOpcode : Nat := 0x0100
def eLength : Nat := 0x0101
def eRange : Nat := 0x0102
def eObject : Nat := 0x0103
def eState : Nat := 0x0104
def ePrivilege : Nat := 0x0105
def eAuth : Nat := 0x0106
def eBusy : Nat := 0x0107
def eTimeout : Nat := 0x0108
def eCrc : Nat := 0x0109
def eCapacity : Nat := 0x010A
def eLate : Nat := 0x010B
def eDegraded : Nat := 0x010C
def eGated : Nat := 0x010D
def ePeerDown : Nat := 0x010E
def eLoop : Nat := 0x010F
def eVersion : Nat := 0x0110
def eSequence : Nat := 0x0111
def chainAborted : Nat := 0x1000
def aborted : Nat := 0x1001
def abortLate : Nat := 0x1002
end Status

/-- A failure: its status, its status word and the further result bytes (R49). -/
structure Err where
  status : Nat
  word : Nat
  more : List Byte
  deriving DecidableEq, Repr

/-- A failure with a status word. -/
def err (status word : Nat) : Err := { status := status, word := word, more := [] }

/-- A failure of a wildcard command carries the failing object's ID after the status word (R7, R49). -/
def Err.named (e : Err) (wild : Bool) (id : Nat) : Err := if wild then { e with more := leBytes 4 id ++ e.more } else e

/-- A failure of one object of a wildcard command names that object. -/
def Err.naming (e : Err) (wild : Bool) (o : Obj) : Err := e.named wild o.id

/-- The first failure of a list of checks in order. -/
def firstErr : List (Option Err) → Option Err
  | [] => none
  | some e :: _ => some e
  | none :: t => firstErr t

/-- A check that fails with `e` where `b` holds. -/
def failIf (b : Bool) (e : Err) : Option Err := if b then some e else none

/-! ### Codes of the device's enumerations -/

/-- STATE of DEVSTAT (R57); 0 stands for OFF, in which nothing can be read. -/
def DevState.code : DevState → Nat
  | .off => 0 | .boot => 1 | .run => 2 | .reduced => 3 | .endpaper => 4

/-- PERS (R18). -/
def Pers.code : Pers → Nat
  | .off => 0 | .control => 1 | .correlate => 2 | .beamform => 3 | .service => 4

/-- The personality with a code (R78). -/
def Pers.ofCode (n : Nat) : Pers :=
  if n = 1 then .control else if n = 2 then .correlate else if n = 3 then .beamform else if n = 4 then .service
  else .off

/-- PRIV (R573): the order of R50 is the order of the codes. -/
def Priv.code : Priv → Nat
  | .observer => 0 | .operator => 1 | .owner => 2

/-- The privilege with a code. -/
def Priv.ofCode (n : Nat) : Priv := if n = 0 then .observer else if n = 1 then .operator else .owner

/-! ### Reading and changing parts of the state -/

/-- The state with its device part changed. -/
def State.onDev (s : State) (f : Dev → Dev) : State := { s with dev := f s.dev }
/-- The state with its service part changed. -/
def State.onSvc (s : State) (f : Svc → Svc) : State := { s with svc := f s.svc }
/-- The state with its trust part changed. -/
def State.onTrust (s : State) (f : Trust → Trust) : State := { s with trust := f s.trust }
/-- The state with its event fabric changed. -/
def State.onEv (s : State) (f : Ev → Ev) : State := { s with ev := f s.ev }

/-- The state with one more item sent to the outside. -/
def State.emit (s : State) (o : Out) : State := { s with sent := o :: s.sent }

/-- A free value, and the state that has used it: nothing constrains it. -/
def State.fresh (s : State) : Nat × State := ((Config.freeValue s.free).toNat, { s with free := s.free + 1 })

/-- The privilege of a port (R50). -/
def State.privOf (s : State) (port : Nat) : Priv := lget .observer s.dev.priv port

/-- A port holds OWNER privilege. -/
def State.isOwner (s : State) (port : Nat) : Bool := s.privOf port == .owner

/-- The stream of a source. -/
def State.stream (s : State) (src : Src) : Stream := tget .reset s.dev.streams src.key

/-- The state with the stream of a source changed. -/
def State.onStream (s : State) (src : Src) (f : Stream → Stream) : State :=
  s.onDev fun d => { d with streams := tmod .reset d.streams src.key f }

/-- Logical Quire `q` in the binding table. -/
def State.qb (s : State) (q : Nat) : QBind := lget (.reset q) s.dev.qbind q

/-- The state with one entry of the binding table changed. -/
def State.onQb (s : State) (q : Nat) (f : QBind → QBind) : State :=
  s.onDev fun d => { d with qbind := lput d.qbind q (f (lget (.reset q) d.qbind q)) }

/-- The personality of a logical Quire. -/
def State.pers (s : State) (q : Nat) : Pers := (s.qb q).pers

/-- The logical Quires whose personality is not OFF (R6). -/
def State.live (s : State) : List Nat := (List.range 16).filter fun q => s.pers q != .off

/-- A device state in which everything configured runs (R29). -/
def State.runs (s : State) : Bool := s.dev.st == .run || s.dev.st == .reduced

/-- The physical Quire bound to a logical Quire. -/
def State.pq (s : State) (q : Nat) : Nat := (s.qb q).pq

/-- What SPARE_STATUS keeps of a physical Quire. -/
def State.physQ (s : State) (p : Nat) : PhysQuire := tget .reset s.svc.phys p

/-- A DMA channel. -/
def State.dmaCh (s : State) (n : Nat) : Dma := tget .reset s.dev.dma n

/-- The state with a DMA channel changed. -/
def State.onDma (s : State) (n : Nat) (f : Dma → Dma) : State :=
  s.onDev fun d => { d with dma := tmod .reset d.dma n f }

/-! ### Memory regions (R540). A byte of region `h` at offset `o` has the key h × 2^40 + o; a byte that nothing has
written reads 0, since a region is zeroed before it is handed out. -/

/-- The canonical form of the memory: addresses strictly rising, and no byte listed that reads 0 anyway. -/
def Memory.wf (m : List Host.Cell) : Bool := twf 0 m

/-- The key of a byte of a region. -/
def memKey (h off : Nat) : Nat := h * 2 ^ 40 + off

/-- The page of 64 KiB that holds an offset of a region is retired, and reads as zero (R540). -/
def pageRetired (r : Region) (off : Nat) : Bool := r.retiredPages.contains (off / 65536)

/-- The region with handle `h`, if it is allocated and its zeroing has ended (R540). -/
def State.region (s : State) (h : Nat) : Option Region :=
  match tget none s.svc.regions h with
  | some r => if r.zeroed then some r else none
  | none => none

/-- One byte of a region. -/
def State.memByte (s : State) (h off : Nat) : Byte :=
  match s.region h with
  | none => 0
  | some r => if off < r.size && !pageRetired r off then tget 0 s.svc.dram (memKey h off) else 0

/-- `n` bytes of a region from an offset on. -/
def State.memRead (s : State) (h off : Nat) : Nat → List Byte
  | 0 => []
  | n + 1 => s.memByte h off :: s.memRead h (off + 1) n

/-- The state with one byte of a region written; a byte beyond the region, or in a retired page, is dropped. -/
def State.memPut (s : State) (h off : Nat) (b : Byte) : State :=
  match s.region h with
  | none => s
  | some r =>
    if off < r.size && !pageRetired r off then
      s.onSvc fun v => { v with dram := tput 0 v.dram (memKey h off) b }
    else s

/-- The state with bytes written to a region from an offset on. -/
def State.memWrite (s : State) (h off : Nat) : List Byte → State
  | [] => s
  | b :: bs => (s.memPut h off b).memWrite h (off + 1) bs

/-- A port may name a region: it owns the region, the region is shared, or the port holds OWNER privilege (R540). -/
def State.mayName (s : State) (port h : Nat) : Bool :=
  match s.region h with
  | none => false
  | some r => r.shared || r.owner == port || s.isOwner port

/-! ### Endpaper's dispatch cycles (R32) -/

/-- The dispatch cycle that an instant belongs to: the cycle of its microsecond; what reaches EPI during its forced release belongs to the
first cycle after the release, which has no number yet while the release lasts. -/
def State.cycleOf (s : State) (t : Nat) : Option Nat :=
  let c := s.clk
  if decide (c.relFrom ≤ t) && c.lostSel then none
  else if c.relFrom ≤ t ∧ t < c.relTo then some (ceilDiv c.relTo uUs) else some (t / uUs)

/-- Two instants lie in one dispatch cycle. -/
def State.sameCycle (s : State) (a b : Nat) : Bool := s.cycleOf a == s.cycleOf b

/-! ### MSI-X (R56, R62) -/

/-- Raises an MSI-X vector: a masked one sets its pending bit, another one is sent. -/
def State.raise (s : State) (v : Nat) : State :=
  if bitOf (tget { addr := 0, data := 0, ctrl := 0 } s.dev.msix v).ctrl 0 then
    if s.dev.msixPend.contains v then s else s.onDev fun d => { d with msixPend := v :: d.msixPend }
  else s.emit (.msix v)

/-- The host interface is out of reset: PERST_N is released, and its rails and its regulator are good (R400, R403). -/
def State.hifUp (s : State) : Bool := !s.dev.perst && bitOf s.clk.good 1 && bitOf s.clk.good 8 && !s.clk.regsBad.contains 0

/-- The reference is coherent at present. -/
def Clk.coherent (c : Clk) : Bool := match c.incoh with | (_, none) :: _ => false | _ => true

/-- ALERT_N is asserted (R537). -/
def State.alert (s : State) : Bool :=
  !s.dev.smbus.replies.isEmpty || (s.bsc.mons.any fun e => decide (2 ≤ e.2.action) && (e.2.isLo || e.2.isHi)) || s.bsc.cal.suspended ||
    !s.svc.unread.isEmpty

/-- DEVSTAT (R57). FAULT mirrors the pin. -/
def State.devstat (s : State) : Nat :=
  s.dev.st.code + 8 * s.dev.fwRunning + 16 * (match s.svc.handover with | .pause .. => 1 | _ => 0) + 32 * ofBool s.dev.faultOut +
    64 * ofBool s.alert + 128 * ofBool s.clk.coherent

/-- A change after which vector 24 is raised where it has changed DEVSTAT (R57). -/
def State.noting (s : State) (f : State → State) : State :=
  let t := f s
  if t.devstat = s.devstat then t else t.raise 24

/-- The device enters a state; FAULT_N follows (R537, R577). -/
def State.setDevSt (s : State) (st : DevState) : State :=
  s.noting fun s => s.onDev fun d => { d with st := st, faultOut := if st = .run then false else if st = .reduced ∨ st = .endpaper then true else d.faultOut }

/-! ### Array links (R300, R311 to R325): what the other families need of lanes and ports. Ports are numbered 0 ARN to 3 ARW,
lanes by their LANE_ID. -/

/-- The time of one character (R300). -/
def charTime (rate : Nat) : Nat := if rate = 0 then 2621440 else if rate = 1 then 1310720 else 655360

/-- The lane payload in Gb/s (R202). -/
def rateGbps (rate : Nat) : Nat := if rate = 0 then 5 else if rate = 1 then 10 else 20

/-- The state with its lanes and ports changed. -/
def State.onLink (s : State) (f : Link → Link) : State := { s with link := f s.link }
/-- A lane. -/
def State.lane (s : State) (n : Nat) : LaneSt := tget (.reset n) s.link.lanes n
/-- The state with a lane changed. -/
def State.onLane (s : State) (n : Nat) (f : LaneSt → LaneSt) : State :=
  s.onLink fun l => { l with lanes := tmod (.reset n) l.lanes n f }
/-- The settings of a group or port (4 to 7). -/
def State.laneCfg (s : State) (g : Nat) : LaneCfg := tget (.reset g) s.link.cfgs g
/-- The group (0 to 3) or port (4 to 7) of a lane (R300). -/
def laneGroup (n : Nat) : Nat := if n < 72 then n / 18 else 4 + (n - 72) / 5
/-- The rate of a lane. -/
def State.laneRate (s : State) (n : Nat) : Nat := (s.laneCfg (laneGroup n)).rate
/-- A port. -/
def State.port (s : State) (p : Nat) : LinkPort := lget .reset s.link.ports p
/-- The state with a port changed. -/
def State.onPort (s : State) (p : Nat) (f : LinkPort → LinkPort) : State :=
  s.onLink fun l => { l with ports := lput l.ports p (f (lget .reset l.ports p)) }
/-- A port's counter, one more. -/
def State.countPort (s : State) (p : Nat) (c : PCount) : State :=
  s.onPort p fun x => { x with counts := lput x.counts c.idx (inc32 (lget 0 x.counts c.idx)) }
/-- The lanes of a port. -/
def portLanes (p : Nat) : List Nat := (List.range 5).map fun k => 72 + 5 * p + k
/-- The ACTIVE lanes of a port (R324). -/
def State.active (s : State) (p : Nat) : List Nat :=
  (portLanes p).filter fun n => (s.lane n).usable && (s.lane n).active
/-- The port is not DOWN (R324). -/
def State.portUp (s : State) (p : Nat) : Bool := !(s.active p).isEmpty
/-- The derated capacity of a port in Mb/s (R253). -/
def State.portCap (s : State) (p : Nat) : Nat := (s.active p).length * rateGbps (s.laneCfg (4 + p)).rate * 900
/-- The timing lane (R324). -/
def State.timingLane (s : State) (p : Nat) : Option Nat := (s.active p).head?
/-- The port's partner: the report of its lowest-numbered UP lane that has one (R324). -/
def State.partner (s : State) (p : Nat) : Option Ident :=
  ((portLanes p).filterMap fun n => if (s.lane n).st = .up then (s.lane n).ident else none).head?
/-- The partner's address; 0x3_FFFF where there is none. -/
def State.partnerAddr (s : State) (p : Nat) : Nat := match s.partner p with | some i => i.addr | none => 0x3FFFF

/-- The common header (R312). -/
def frameHeader (cls dest src hops : Nat) : List Byte :=
  leBytes 1 (cls + hops / 256 % 4 * 16) ++ leBytes 3 dest ++ leBytes 3 src ++ leBytes 1 hops

/-- Bytes with their CRC (R37). -/
def withCrc (b : List Byte) : List Byte := b ++ leBytes 4 (crc32c b).toNat

/-- The time of a character on a lane. -/
def State.charOf (s : State) (n : Nat) : Nat := charTime (s.laneRate n)
/-- When the transmit queue of a lane empties. -/
def State.txFree (s : State) (n : Nat) : Nat := max s.now ((s.lane n).txFree (s.charOf n))

/-- The ACTIVE lane whose transmit queue empties first, the lowest-numbered on a tie (R317). -/
def State.firstFree (s : State) : List Nat → Option Nat
  | [] => none
  | n :: ns => match s.firstFree ns with
    | none => some n
    | some m => if s.txFree n ≤ s.txFree m then some n else some m

/-- A frame of so many characters that would begin on a lane at an instant does not run into the launch of an armed slot, which has the port's timing lane
to itself (R368). -/
def State.guarded (s : State) (p n chars base : Nat) : Nat :=
  let ct := s.charOf n
  if s.timingLane p = some n then
    (s.port p).slots.foldl (fun (b : Nat) x => if x.st == .armed && decide (b < x.time) && decide (x.time < b + chars * ct) then x.time + (x.frame.length + 6) * ct else b) base
  else base

/-- When a frame that joins a lane's queue can start: after what waits there, outside brackets. -/
def State.laneStart (s : State) (p n chars : Nat) : Nat :=
  (s.lane n).charAt (s.charOf n) (s.guarded p n chars (max (s.txFree n) (s.lane n).bracket))

/-- The first character boundary of a lane outside a frame: the end of the one that is being sent (R304, R335). -/
def State.frameEdge (s : State) (n : Nat) : Nat :=
  let l := s.lane n
  let ct := s.charOf n
  l.charAt ct ((l.frames.filter fun f => decide (f.start < s.now)).foldl (fun (m : Nat) f => max m (l.stopOf ct f)) s.now)

/-- When a bracket can open on a lane: at a character boundary after an open one, and not inside an IDENT (R315). The brackets of a cycle, which a TIME frame
goes before, do not count. -/
def State.bracketStart (s : State) (n : Nat) (cyc : Option Nat) : Nat :=
  let l := s.lane n
  let before := (l.pres.filter fun p => p.cyc.isNone || p.cyc != cyc).foldl (fun (m : Nat) p => max m p.stop) s.now
  l.charAt (s.charOf n) (max before (l.identTo (s.charOf n)))

/-- A lane is given something to send; what it has finished is kept no longer. -/
def State.onTx (s : State) (n : Nat) (g : LaneSt → LaneSt) : State := s.onLane n fun l => g (l.settle (s.charOf n) s.now)

/-- Characters of a lane enter the record of what has been sent, before the last `k` that the lane has been given. -/
def insSent (n : Nat) (cs : List Chr) : Nat → List Out → List Out
  | 0, l => .line n cs :: l
  | _, [] => [.line n cs]
  | k + 1, o :: l => o :: insSent n cs (match o with | .line m _ => if m = n then k else k + 1 | _ => k + 1) l
def State.emitLine (s : State) (n k : Nat) (cs : List Chr) : State := { s with sent := insSent n cs k s.sent }

/-- A non-pre-emptive frame leaves on a port (R314, R317), with the port's next PSEQ: the state, and when its last
character has left. Nothing leaves where the port is DOWN. -/
def State.sendFrame (s : State) (p cls dest src hops : Nat) (payload : List Byte) : State × Nat :=
  match s.firstFree (s.active p) with
  | none => (s, s.now)
  | some n =>
    let cs := frameChars cls (withCrc (frameHeader cls dest src hops ++ leBytes 4 (s.port p).pseqTx ++ leBytes 2 payload.length ++ zeros 2 ++ payload))
    let at' := s.laneStart p n cs.length
    let s1 := ((s.onPort p fun x => { x with pseqTx := (x.pseqTx + 1) % 2 ^ 32 }).onTx n fun l => l.frame (s.charOf n) .frame at' cs).countPort p .framesTx
    (s1.emit (.line n cs), s1.txFree n)

/-- The lane that takes a pre-emptive frame: the first lane in order whose bracket is closed, else the one whose bracket
closes first (R316). -/
def State.bracketLane (s : State) (order : List Nat) : Option Nat :=
  match order.find? fun n => decide ((s.lane n).bracket ≤ s.now) with
  | some n => some n
  | none => order.foldl (fun b n => match b with
    | none => some n
    | some m => if (s.lane n).bracket < (s.lane m).bracket then some n else some m) none

/-- What a FEEDBACK frame takes to the next LGA cycle and frame start (R188). -/
def insertion : Nat := 32 * uNs / 10

/-- The frames of a port's pre-emptive queue, originated and relayed: those that have yet to begin (R316). -/
def State.preQueue (s : State) (p : Nat) : Nat :=
  ((portLanes p).flatMap fun n => (s.lane n).pres.filter fun x => !x.skip && decide (s.now < x.start)).length

/-- A pre-emptive frame joins a port's pre-emptive queue (R313, R316): the state, when its bracket opens, and the lane; none where
the port is DOWN or the queue is full. A TIME frame goes on the timing lane, a FEEDBACK frame on another if it can; a TIME frame goes before the FEEDBACK
frames that the lane has been given in the same LGA cycle. -/
def State.sendPre (s : State) (p cls dest src hops : Nat) (payload : List Byte) : Option (State × Nat × Nat) :=
  let act := s.active p
  let order := if cls = 1 then act.take 1 else act.drop 1 ++ act.take 1
  match s.bracketLane order with
  | none => none
  | some n =>
    if 8 ≤ s.preQueue p then none
    else
      let cs := frameChars cls (withCrc (frameHeader cls dest src hops ++ payload))
      let ct := s.charOf n
      let cyc := some (ceilDiv s.now uLga)
      let slot := if cls = 2 then (s.lane n).charAt ct (max (s.now + insertion) (s.bracketStart n none)) else s.bracketStart n cyc
      let later := if cls = 2 then 0 else ((s.lane n).pres.filter fun x => x.cyc == cyc).length
      let s1 := s.onTx n fun l => l.openBracket ct slot cs false (if cls = 2 then cyc else none)
      some (((s1.countPort p .framesTx).emitLine n later cs), slot, n)

/-! ### Packets and replies (R35, R38) -/

/-- The object of a packet is a wildcard (R6). -/
def Pkt.wild (p : Pkt) : Bool := match Obj.ofId p.req.object.toNat with | some o => o.wild | none => false

/-- The header and parameters of a request packet, without the trailer (R35). -/
def Pkt.body (p : Pkt) : List Byte :=
  [1, p.req.flags] ++ leBytes 2 p.code ++ leBytes 2 p.req.tag.toNat ++ leBytes 2 p.req.params.length ++
    leBytes 4 p.req.object.toNat ++ leBytes 4 p.req.seq.toNat ++ p.req.params

/-- The trailer of a request packet (R37). -/
def Pkt.crc (p : Pkt) : BitVec 32 := crc32c p.body

/-- The whole packet, as it travels. -/
def Pkt.bytes (p : Pkt) : List Byte := p.body ++ leBytes 4 p.crc.toNat

/-- A reply packet (R38): byte 1 holds the request's flags [4:0], DEFERRED and REPLY; the status takes the place of
the opcode. -/
def replyBytes (p : Pkt) (status : Nat) (deferred : Bool) (result : List Byte) : List Byte :=
  let fl := p.req.flags.toNat % 32 + (if deferred then 32 else 0) + 128
  let b := [1, BitVec.ofNat 8 fl] ++ leBytes 2 status ++ leBytes 2 p.req.tag.toNat ++
    leBytes 2 result.length ++ leBytes 4 p.req.object.toNat ++ leBytes 4 p.req.seq.toNat ++ result
  b ++ leBytes 4 (crc32c b).toNat

/-- A reply cut to `n` result bytes, with the header length and the CRC of the delivered bytes (R60). -/
def cutReply (bytes : List Byte) (n : Nat) : List Byte :=
  let b := bytes.take 6 ++ leBytes 2 n ++ (bytes.drop 8).take (8 + n)
  b ++ leBytes 4 (crc32c b).toNat

/-- The size of a ring entry in bytes (R58). -/
def Ring.entry (r : Ring) : Nat := 64 * 4 ^ r.esize

/-- The entries of a ring (R58). -/
def Ring.depth (r : Ring) : Nat := 2 ^ r.depthLog2

/-- Ring `n`. -/
def State.ring (s : State) (n : Nat) : Ring := lget (.reset n) s.dev.rings n

/-- The state with ring `n` changed. -/
def State.onRing (s : State) (n : Nat) (f : Ring → Ring) : State :=
  s.onDev fun d => { d with rings := lput d.rings n (f (lget (.reset n) d.rings n)) }

/-- Writes one completion entry of ring `n` to host memory (R60): the prefix, then the reply, cut where it does not
fit, and raises the ring's vector where IRQ_EN is set. -/
def State.complete (s : State) (n : Nat) (bytes : List Byte) : State :=
  let r := s.ring n
  let full := u bytes 6 2
  let room := r.entry - 28
  let cut := decide (room < full)
  let rep := if cut then cutReply bytes room else bytes
  let pre := leBytes 2 (ofBool r.phase + 2 * ofBool cut) ++ leBytes 2 r.sqHead ++ leBytes 2 full ++ leBytes 2 0
  let s1 := s.emit (.hostWrite (r.cqBase + r.cqTail * r.entry) (pre ++ rep))
  let wrap := decide (r.cqTail + 1 = r.depth)
  let s2 := s1.onRing n fun r =>
    { r with cqTail := if wrap then 0 else r.cqTail + 1, phase := if wrap then !r.phase else r.phase,
             reserved := r.reserved - 1 }
  if r.irqEn then s2.raise r.vector else s2

/-- Every completion entry holds a reply that the host has not read: one entry stays free, so that a full ring differs from an empty one
(DEDUCED). -/
def Ring.full (r : Ring) : Bool := (r.cqTail + 1) % r.depth == r.hostHead

/-- A reply for ring `n` is written to its completion ring, or waits for the host to free an entry, so that the ring never overflows (R61). -/
def State.completeOr (s : State) (n : Nat) (bytes : List Byte) : State :=
  let r := s.ring n
  if r.full || !r.late.isEmpty then s.onRing n fun r => { r with late := r.late ++ [bytes] } else s.complete n bytes

/-- The replies that wait for completion entries are written as far as the entries go. -/
def State.completeLate (s : State) (n : Nat) : List (List Byte) → State
  | [] => s
  | b :: bs => if (s.ring n).full then s else ((s.onRing n fun r => { r with late := bs }).complete n b).completeLate n bs

/-- Shows the next waiting mailbox reply, if the reply buffer is free (R63). -/
def State.mailboxShow (s : State) : State :=
  match s.dev.mbox.ready, s.dev.mbox.waiting with
  | false, (dfr, b) :: rest =>
    (s.onDev fun d => { d with mbox := { d.mbox with reply := b, ready := true, showsDeferred := dfr, waiting := rest } }).raise 25
  | _, _ => s

/-- A reply for MGMT is stored; with four stored already it waits for a place (R68). -/
def Smbus.store (b : Smbus) (bytes : List Byte) : Smbus :=
  if b.replies.length < 4 then { b with replies := b.replies ++ [bytes] } else { b with late := b.late ++ [bytes] }

/-- Hands a reply to its transport: a completion entry, the mailbox, the SMBus store or a CMD frame (R61, R63, R68,
R69). -/
def State.deliver (s : State) (src : Src) (deferred : Bool) (bytes : List Byte) : State :=
  let s := s.emit (.reply src bytes)
  match src with
  | .ring n => if (s.ring n.val).en then s.completeOr n.val bytes else s
  | .mailbox =>
    (s.onDev fun d => { d with mbox := { d.mbox with waiting := d.mbox.waiting ++ [(deferred, bytes)] } }).mailboxShow
  | .array p => (s.sendFrame p.val 3 (s.partnerAddr p.val) s.dev.addr 0 bytes).1
  | .mgmt => s.noting fun s => s.onDev fun d => { d with smbus := d.smbus.store bytes }

/-- A place is kept for one more reply of a source: a ring entry, or for a DEFERRED reply of the mailbox one of its places (R61, R63). -/
def State.reserve (s : State) (src : Src) (deferred : Bool) : State :=
  match src with
  | .ring n => s.onRing n.val fun r => { r with reserved := r.reserved + 1 }
  | .mailbox => if deferred then s.onDev fun d => { d with mbox := { d.mbox with places := d.mbox.places + 1 } } else s
  | _ => s

/-- The place kept for a reply that is not sent is free again (R43, R61, R63). -/
def State.unreserve (s : State) (src : Src) (deferred : Bool) : State :=
  match src with
  | .ring n => s.onRing n.val fun r => { r with reserved := r.reserved - 1 }
  | .mailbox => if deferred then s.onDev fun d => { d with mbox := { d.mbox with places := d.mbox.places - 1 } } else s
  | _ => s

/-- The counters of PORT_STATS_GET (R72) follow the failures; a failure of a broadcast packet that has no counter of its own counts as a packet
discarded (R70). -/
def Stream.tally (t : Stream) (status : Nat) (quiet : Bool) : Stream :=
  if status = Status.eCrc then { t with eCrc := inc32 t.eCrc }
  else if status = Status.eVersion then { t with eVersion := inc32 t.eVersion }
  else if status = Status.eLength then { t with eLength := inc32 t.eLength }
  else if status = Status.eSequence then { t with eSequence := inc32 t.eSequence }
  else if status = Status.eTimeout then { t with eTimeout := inc32 t.eTimeout }
  else if quiet && decide (2 ≤ status) then { t with bcast := inc32 t.bcast } else t

/-- Sends a reply: OK and ACCEPTED only where ACK_REQ is set, failures always (R43), and nothing to a broadcast command (R70); the reply to the
packet last taken of its stream is stored (R42). -/
def State.reply (s : State) (p : Pkt) (status : Nat) (deferred : Bool) (result : List Byte) : State :=
  if p.quiet then s.onStream p.req.src fun t => t.tally status true
  else if status ≤ 1 && !p.req.flags.getLsbD 0 then s.unreserve p.req.src deferred
  else
    let b := replyBytes p status deferred (pad4 result)
    (s.onStream p.req.src fun t => { t.tally status false with stored := if t.expect = p.req.seq + 1 then some b else t.stored }).deliver p.req.src
      deferred b

/-- The reply to a packet that is not taken: a failure of R40 steps 1 to 4. -/
def State.bounce (s : State) (p : Pkt) (status : Nat) (result : List Byte) : State :=
  let s1 := s.onStream p.req.src fun t => t.tally status p.quiet
  if p.quiet then s1 else s1.deliver p.req.src false (replyBytes p status false result)

/-- The result bytes of a failure: the status word, then what the status adds (R49). -/
def Err.result (e : Err) : List Byte := leBytes 4 e.word ++ e.more

/-- Replies with a failure. -/
def State.replyErr (s : State) (p : Pkt) (deferred : Bool) (e : Err) : State :=
  s.reply p e.status deferred e.result

/-! ### Completing commands that wait (R39) -/

/-- The object whose part of a wildcard command waits (R7): a PERS_SET's Quire, or a SEQ_RING_SET's Folio. -/
def Wait.object (w : Wait) : Nat := if w.kind = .persChange then quireId w.a else w.a

/-- The waiting command, if any, whose waits include `w`. -/
def State.heldOn (s : State) (w : Wait) : Option Held := s.dev.held.find? fun h => h.waits.contains w

/-- BUSY of MBX_CTL (R63): a posted packet is being handled, that is it waits for the end of a pause or has no reply yet. -/
def Dev.mailBusy (d : Dev) : Bool :=
  (d.paused.any fun p => p.1.req.src == .mailbox) || d.held.any fun h => h.pkt.req.src == .mailbox && !h.accepted

/-- BUSY follows the packets and commands of the mailbox. -/
def State.syncMail (s : State) : State := s.onDev fun d => { d with mbox := { d.mbox with busy := d.mailBusy } }

/-- A failure that does not come from one of a packet's objects names the first that a wildcard matches (R49). DESIGN CHOICE. -/
def State.naming (s : State) (p : Pkt) (e : Err) : Err :=
  match (Obj.ofId p.req.object.toNat).bind fun o => (o.expand s.live).head? with
  | some o => e.naming p.wild o
  | none => e

/-- Ends a waiting command with OK or a failure: its DEFERRED reply, or its only reply if it had not replied yet. -/
def State.finish (s : State) (h : Held) (status : Nat) (result : List Byte) : State :=
  (s.onDev fun d => { d with held := d.held.filter fun x => x != h }).syncMail.reply h.pkt status h.accepted result

/-- One condition of a waiting command has come about: with its last condition the command ends with OK; with others left it has changed
something, and is past its point of no return (R72). -/
def State.resolve (s : State) (w : Wait) (result : List Byte) : State :=
  match s.heldOn w with
  | none => s
  | some h =>
    let ws := h.waits.filter fun x => x != w
    if ws.isEmpty then s.finish h Status.ok result
    else s.onDev fun d => { d with held := d.held.map fun x => if x = h then { h with waits := ws, pnr := true } else x }

/-- A waiting command fails. -/
def State.failWait (s : State) (w : Wait) (e : Err) : State :=
  match s.heldOn w with
  | none => s
  | some h => s.finish h e.status (e.named h.pkt.wild w.object).result

/-- A waiting command ends with E_TIMEOUT, which carries the elapsed milliseconds (R48). -/
def State.timeoutWait (s : State) (w : Wait) : State :=
  s.failWait w (err Status.eTimeout (match s.heldOn w with | some h => (s.now - h.since) / uMs | none => 0))

/-- A waiting command has changed something: it is past its point of no return (R72). -/
def State.passPoint (s : State) (w : Wait) : State :=
  s.onDev fun d => { d with held := d.held.map fun x => if x.waits.contains w then { x with pnr := true } else x }

end Sys2Proof.Machine
end

