-- ==== Sys2Proof/Machine/Events.lean ====
section
/-! DEFINITION. The event fabric's shared operations (14): firing a channel, the tables of registrations and the checks
of R497, R500, R501 and R511 that a change of them passes before it has any effect. -/
namespace Sys2Proof.Machine

namespace Status
def evNotProducer : Nat := 0x10F0
def evSecure : Nat := 0x10F1
def evNoEntry : Nat := 0x10F2
end Status

/-- Channel `c`. -/
def State.chan (s : State) (c : Nat) : EvChan := tget .reset s.ev.chans c

/-- The fabric with one channel changed. -/
def Ev.onChan (e : Ev) (c : Nat) (f : EvChan → EvChan) : Ev := { e with chans := tmod .reset e.chans c f }

/-- The objects of a list of registrations, each once, in order. -/
def regObjs (l : List ObjReg) : List Nat :=
  l.foldl (fun acc r => if acc.contains r.obj then acc else acc ++ [r.obj]) []

/-- The tasks of a channel (R496): its consumer objects, then its FORWARD, EXPORT and MSIX entries. -/
def EvChan.tasks (c : EvChan) : List TaskRef :=
  (regObjs c.cons).map TaskRef.obj ++ (c.routes.filter fun r => decide (r.kind ≤ 3)).map TaskRef.route

/-- The tables that the hub goes by: a change takes effect at its first cycle boundary from then on (R506). -/
def State.inForce (s : State) (c : Nat) : EvChan :=
  match s.ev.before with
  | some (t, old) => if s.now < t then tget .reset old c else s.chan c
  | none => s.chan c

/-- The channel tables changed. -/
def State.onTables (s : State) (f : List (Nat × EvChan) → List (Nat × EvChan)) : State :=
  s.onEv fun e =>
    { e with chans := f e.chans,
             before := match e.before with
               | some (t, old) => if s.now < t then some (t, old) else if s.now % uCycle = 0 then none else some (ceilDiv s.now uCycle * uCycle, e.chans)
               | none => if s.now % uCycle = 0 then none else some (ceilDiv s.now uCycle * uCycle, e.chans) }

/-- The fields by which a task consumes a channel. -/
def EvChan.fieldsOf (c : EvChan) : TaskRef → List Nat
  | .obj id => (c.cons.filter fun r => r.obj == id).map (·.field)
  | .route _ => []

/-- Fires a channel (R502, R506): the activation enters the hub under the tables now in force, one arrival for each
task. In ENDPAPER and OFF the hub is stopped and nothing is fired. 0xFFFF names no channel. -/
def State.fire (s : State) (ch prod ehops : Nat) : State :=
  if 256 ≤ ch || s.dev.st == .endpaper || s.dev.st == .off then s
  else
    let c := s.inForce ch
    s.onEv fun e =>
      { e.onChan ch (fun c => { c with acts := (c.acts + 1) % 2 ^ 64, last := s.now }) with
        flights := e.flights ++ c.tasks.map fun t => { ch := ch, task := t, fields := c.fieldsOf t, prod := prod, ehops := ehops, time := s.now } }

/-- Fires a channel by a producer object (R510), with an EHOPS that a capture unit passes on. The object must be among the channel's producers, as the opcode that
names the channel makes it (R499); after BOOT has emptied the tables it is not (R496). -/
def State.fireHops (s : State) (ch obj ehops : Nat) : State :=
  if (s.inForce ch).prods.any fun r => r.obj == obj then s.fire ch obj ehops else s

/-- Fires a channel by a producer object, with EHOPS 0. -/
def State.fireObj (s : State) (ch obj : Nat) : State := s.fireHops ch obj 0

/-- The producer that stands for SOFT or IMPORT of a port (R504). -/
def softProd (port : Nat) : Nat := 0x3F000000 + port

/-- The registrations that one field of an object makes: `prod` for a producer, and the channels it names. -/
structure EvField where
  field : Nat
  prod : Bool
  chs : List Nat
  deriving DecidableEq, Repr

/-- A field that names one channel, or none with 0xFFFF. -/
def evField (field : Nat) (prod : Bool) (ch : Nat) : EvField :=
  { field := field, prod := prod, chs := if ch < 256 then [ch] else [] }

/-- The channel tables after the fields of an object have been replaced (R499). A registration that stays keeps its place. -/
def evReplace (t : List (Nat × EvChan)) (obj : Nat) (fs : List EvField) : List (Nat × EvChan) :=
  let stays := fun (k : Nat) (prod : Bool) (r : ObjReg) =>
    r.obj != obj || !(fs.any fun f => f.field == r.field) || fs.any fun f => f.field == r.field && f.prod == prod && f.chs.contains k
  let t0 := t.map fun (k, c) => (k, { c with prods := c.prods.filter (stays k true), cons := c.cons.filter (stays k false) })
  fs.foldl (fun t f => f.chs.foldl (fun t ch =>
    tmod .reset t ch fun c =>
      let r : ObjReg := { obj := obj, field := f.field }
      if f.prod then { c with prods := if c.prods.contains r then c.prods else c.prods ++ [r] }
      else { c with cons := if c.cons.contains r then c.cons else c.cons ++ [r] }) t) t0

/-- An object ID lies in a Quire (its registrations are kept by the Quire's own segment, R497). -/
def inQuire (obj : Nat) : Bool := decide (1 ≤ obj / 2 ^ 26) && decide (obj / 2 ^ 26 ≤ 8)

/-- The device entries of a channel (R497): producers and tasks. -/
def EvChan.devProds (c : EvChan) : Nat :=
  (c.routes.filter fun r => decide (4 ≤ r.kind)).length + ((regObjs c.prods).filter fun o => !inQuire o).length
def EvChan.devTasks (c : EvChan) : Nat :=
  (c.routes.filter fun r => decide (r.kind ≤ 3)).length + ((regObjs c.cons).filter fun o => !inQuire o).length

/-- The limits of R497: 16 producer and 16 consumer entries on each channel, 1,024 on the device. -/
def evRoom (t : List (Nat × EvChan)) : Bool :=
  t.all (fun (_, c) => decide (c.devProds ≤ 16) && decide (c.devTasks ≤ 16)) &&
  decide (t.foldl (fun n (_, c) => n + c.devProds + c.devTasks) 0 ≤ 1024)

/-- The object that a producer is in the graph of R511: a channel named in RSET_SET makes the Folio its producer (R145),
though it fires under the demodulator's ID (R499). -/
def loopObj (o : Nat) : Nat := if o / 2 ^ 26 = 5 then o - 3 * 2 ^ 26 else o

/-- The edges of the graph of R511: FORWARD entries, and an object that consumes one channel and produces another. -/
def evEdges (t : List (Nat × EvChan)) : List (Nat × Nat) :=
  t.flatMap fun (a, c) =>
    (c.routes.filter fun r => r.kind == 1).map (fun r => (a, r.target)) ++
    (regObjs c.cons).flatMap fun o => (t.filter fun (_, d) => d.prods.any fun r => loopObj r.obj == o).map fun (b, _) => (a, b)

/-- Removes the edges that leave a node which no edge enters, `n` times. -/
def evPrune : Nat → List (Nat × Nat) → List (Nat × Nat)
  | 0, es => es
  | n + 1, es =>
    let es' := es.filter fun (a, _) => es.any fun (_, b) => a == b
    if es'.length = es.length then es else evPrune n es'

/-- The graph has a cycle (R511): some edge is left when no more can be removed. -/
def evLoop (t : List (Nat × EvChan)) : Bool := !(evPrune 257 (evEdges t)).isEmpty

/-- The channels whose lists differ between two tables. -/
def evChanged (t t' : List (Nat × EvChan)) : List Nat :=
  (List.range 256).filter fun c =>
    let a := tget EvChan.reset t c
    let b := tget EvChan.reset t' c
    decide (a.routes ≠ b.routes) || decide (a.prods ≠ b.prods) || decide (a.cons ≠ b.cons)

/-- OWNERPORT as a number: 0xFF for FREE (R513). -/
def EvChan.ownerNum (c : EvChan) : Nat := c.owner.getD 0xFF

/-- A port may change the lists of a channel (R500, R501). -/
def evMay (s : State) (port : Nat) (c : EvChan) : Bool :=
  s.isOwner port || (!c.secure && (c.owner == none || c.owner == some port))

/-- The checks of a change from the tables in force to `t'` (R497, R500, R501, R511). -/
def State.evCheck (s : State) (port : Nat) (t' : List (Nat × EvChan)) : Option Err :=
  let ch := evChanged s.ev.chans t'
  match ch.find? fun c => !evMay s port (s.chan c) with
  | some c => some (err Status.ePrivilege (s.chan c).ownerNum)
  | none =>
    if ch.isEmpty then none
    else if !evRoom t' then some (err Status.eCapacity 0)
    else if evLoop t' then some (err Status.eLoop 0)
    else none

/-- The channels that gain an entry. -/
def evGains (t t' : List (Nat × EvChan)) : List Nat :=
  (List.range 256).filter fun c =>
    let a := tget EvChan.reset t c
    let b := tget EvChan.reset t' c
    (b.routes.any fun r => !a.routes.contains r) || (b.prods.any fun r => !a.prods.contains r) || b.cons.any fun r => !a.cons.contains r

/-- The tables after a change that passed its checks: a FREE channel that gains an entry goes to the issuing port; removing one never changes
OWNERPORT (R500). -/
def State.evApply (s : State) (port : Nat) (t' : List (Nat × EvChan)) : State :=
  s.onTables fun t => (evGains t t').foldl (fun t c => tmod .reset t c fun x => if x.owner = none then { x with owner := some port } else x) t'

/-- The SOFT entries of SECURE channels name ports with OWNER privilege only: those of a port that loses it are removed (R501; the spec does not say how, DESIGN
CHOICE). -/
def State.secureSofts (s : State) : State :=
  if s.ev.chans.any fun e => e.2.secure && e.2.routes.any fun r => r.kind == 5 && !s.isOwner r.port then
    s.onTables fun t => t.map fun e => if e.2.secure then (e.1, { e.2 with routes := e.2.routes.filter fun r => !(r.kind == 5 && !s.isOwner r.port) }) else e
  else s

/-- The check and the effect of replacing the fields of an object (R499). -/
def State.evFieldsCheck (s : State) (port obj : Nat) (fs : List EvField) : Option Err :=
  s.evCheck port (evReplace s.ev.chans obj fs)
def State.evFieldsApply (s : State) (port obj : Nat) (fs : List EvField) : State :=
  s.evApply port (evReplace s.ev.chans obj fs)

/-- The range of a channel field: 0 to 255, or 0xFFFF for none. -/
def chField (v : Nat) : Bool := decide (v < 256) || v == 0xFFFF

end Sys2Proof.Machine
end

