-- ==== Sys2Proof/Machine/Operands.lean ====
section
/-! DEFINITION. The operands of a packet command: the decoded command, the parameter tables with their ranges (R10, R12)
and the description of an opcode that the acceptance checks of R40 read. -/
namespace Sys2Proof.Machine

/-- A command as its opcode sees it: its packet, its object, its own parameter bytes (after the TIMED prefix and before
the token), whether it is TIMED, whether it carries a token, and the instant at which it executes. -/
structure Cmd where
  pkt : Pkt
  obj : Obj
  p : List Byte
  timed : Bool
  signed : Bool
  deriving DecidableEq, Repr

/-- The issuing port. -/
def Cmd.port (c : Cmd) : Nat := c.pkt.req.src.port

/-- The logical Quire, the Folio and the index of the command's object. -/
def Cmd.q (c : Cmd) : Nat := c.obj.quire
def Cmd.f (c : Cmd) : Nat := c.obj.folio
def Cmd.i (c : Cmd) : Nat := c.obj.index

/-- Where the opcode's own parameters start: after the 12 bytes of the execution time when TIMED (R44). -/
def Cmd.base (c : Cmd) : Nat := if c.timed then 12 else 0

/-- E_RANGE at an offset of the opcode's own parameter table (R44, R48). -/
def Cmd.bad (c : Cmd) (off : Nat) : Err := err Status.eRange (c.base + off)

/-- The unsigned parameter of `n` bytes at `off`. -/
def Cmd.u (c : Cmd) (off n : Nat) : Nat := Sys2Proof.u c.p off n

/-- The signed parameter of `n` bytes at `off`. -/
def Cmd.sg (c : Cmd) (off n : Nat) : Int := sfld c.p off n

/-- One row of a parameter table: the offset and the test of the value. -/
structure Field where
  off : Nat
  ok : List Byte → Bool

/-- An unsigned field of `n` bytes with a range. -/
def fU (off n lo hi : Nat) : Field := { off := off, ok := fun p => decide (lo ≤ u p off n) && decide (u p off n ≤ hi) }

/-- A signed field of `n` bytes with a range. -/
def fS (off n : Nat) (lo hi : Int) : Field :=
  { off := off, ok := fun p => decide (lo ≤ sfld p off n) && decide (sfld p off n ≤ hi) }

/-- A reserved field of `n` bytes: zero (R10). -/
def fR (off n : Nat) : Field := { off := off, ok := fun p => allZero (slice p off n) }

/-- A channel field of two bytes: 0 to 255 or 0xFFFF. -/
def fCh (off : Nat) : Field := { off := off, ok := fun p => chField (u p off 2) }

/-- A field at `off` whose test reads the whole parameters. -/
def fX (off : Nat) (t : List Byte → Bool) : Field := { off := off, ok := t }

/-- A device-time field: its ns part is at most 999,999,999 (R342). -/
def fT (off : Nat) : Field := { off := off, ok := fun p => (dtOf (slice p off 12)).isSome }

/-- A field of `n` bytes with a test of its own. -/
def fP (off n : Nat) (t : Nat → Bool) : Field := { off := off, ok := fun p => t (u p off n) }

/-- The first parameter out of range, lowest offset first (R40 step 11). -/
def Cmd.range (c : Cmd) (fs : List Field) : Option Err :=
  match fs.find? fun f => !f.ok c.p with
  | some f => some (c.bad f.off)
  | none => none

/-- E_CAPACITY is judged on the parameters at `offs` before the ranges of the others, once they themselves are in range (R40 steps 10 and 11).
DEDUCED. -/
def Cmd.judge (c : Cmd) (fs : List Field) (offs : List Nat) (e : Option Err) : Option Err :=
  if fs.all fun f => !offs.contains f.off || f.ok c.p then e else none

/-- What the execution of a command answers: OK with its result, ACCEPTED with what it waits for, no reply yet (`later`:
one reply when its waits have come about), or a failure. -/
inductive Res where
  | ok (data : List Byte)
  | accepted (waits : List Wait) (pnr : Bool) (at? : Option Nat)
  | later (waits : List Wait) (pnr : Bool) (at? : Option Nat)
  | fail (e : Err)
  deriving DecidableEq, Repr

/-- A wait for one object. -/
def wait (k : WaitKind) (a b : Nat) : Wait := { kind := k, a := a, b := b }

/-- What the device knows of an opcode (R40 step 5 to 13): its target classes, whether it takes wildcards, its lowest
privilege, whether it is FAST, in the ENDPAPER subset, allowed TIMED, broadcast-capable, whether it needs a token and
changes anything; the lengths of its own parameters; its state check, its parameter table, its further checks, its
check for a free resource, the resources it changes, and its effect. `cap` is its check of the capacity in service (step 10), `ctx` lists the sub-kinds it accepts where its class has any, `objOk` a further test of the object, `may` a further check of the port (step 8), `ctl` the Quires whose controlling port may change
what it changes (R51), `reg` its check of the event registrations that it makes, which follows `more`, `first` that its reply goes out before its effect. -/
structure OpSpec where
  cls : List Cls
  wild : Bool := false
  priv : Cmd → Priv := fun _ => .operator
  fast : Bool := false
  ep : Cmd → Bool := fun _ => false
  timed : Bool := false
  bcast : Bool := false
  token : Cmd → State → Bool := fun _ _ => false
  changes : Bool := true
  len : Option Nat
  lenOk : Nat → Bool := fun _ => true
  lenMin : Nat := 0
  ctx : List Nat := []
  objOk : Obj → Bool := fun _ => true
  may : Cmd → State → Option Err := fun _ _ => none
  ctl : Cmd → State → List Nat := fun c _ => c.obj.quire?.toList
  state : Cmd → State → Option Err := fun _ _ => none
  cap : Cmd → State → Option Err := fun _ _ => none
  fields : Cmd → State → List Field := fun _ _ => []
  more : Cmd → State → Option Err := fun _ _ => none
  reg : Cmd → State → Option Err := fun _ _ => none
  busy : Cmd → State → Option Err := fun _ _ => none
  keys : Cmd → List Nat := fun c => [c.obj.id]
  first : Bool := false
  run : Cmd → State → State × Res

/-- An opcode that only reads: OBSERVER, changes nothing. -/
def readOp (cls : List Cls) (len : Nat) (run : Cmd → State → List Byte) : OpSpec :=
  { cls := cls, priv := fun _ => .observer, changes := false, len := some len, keys := fun _ => [],
    run := fun c s => (s, .ok (run c s)) }

/-- A status word of E_STATE: the device state (R48). -/
def eState (s : State) : Err := err Status.eState s.dev.st.code

/-- E_STATE where `b` holds. -/
def stateIf (s : State) (b : Bool) : Option Err := failIf b (eState s)

/-- E_CAPACITY with no status word of its own. -/
def eCapacity : Err := err Status.eCapacity 0

/-- E_BUSY with a retry hint in microseconds, which saturates (R53). -/
def eBusy (us : Nat) : Err := err Status.eBusy (min us 0xFFFFFFFF)

/-- The hint of R53 for a wait of unknown length. -/
def hintUnknown : Nat := 10000

/-- Whole microseconds from now until an instant, rounded up (R53). -/
def State.usUntil (s : State) (t : Nat) : Nat := ceilDiv (t - s.now) uUs

/-- E_LATE with the lateness in ns against the earliest time accepted (R48). -/
def eLate (earliest given : Nat) : Err := err Status.eLate (min ((earliest - given) / uNs) 0xFFFFFFFF)

/-- The device time that a field holds. -/
def Cmd.time (c : Cmd) (off : Nat) : Nat := (dtOf (slice c.p off 12)).getD 0

/-- E_LATE for a start time at `off` that lies less than `lead` after the present (R48). -/
def Cmd.late (c : Cmd) (s : State) (off lead : Nat) : Option Err :=
  failIf (decide (c.time off < s.now + lead)) (eLate (s.now + lead) (c.time off))

/-- The check of a region that a parameter names (R540): it is allocated, and the port may name it. -/
def State.regionErr (s : State) (port h : Nat) : Option Err :=
  match s.region h with
  | none => some (eState s)
  | some r => if s.mayName port h then none else some (err Status.ePrivilege r.owner)

/-- E_GATED with the index of an island (R48, R5): the synthesis island of a Quire is 17, its core island 16. -/
def eGated (island : Nat) : Err := err Status.eGated island

/-- The personalities in which a function of a Quire can be reached; others get E_GATED (R26). -/
def State.needPers (s : State) (q : Nat) (ps : List Pers) (island : Nat) : Option Err :=
  failIf (!ps.contains (s.pers q)) (eGated island)

end Sys2Proof.Machine
end

