-- ==== Sys2Proof/Machine/FaultBase.lean ====
section
/-! DEFINITION. The fault log (16, R536) and the images that the boot path reads (R73, R591). -/
namespace Sys2Proof.Machine

/-- One more entry in the fault log (R536), which keeps 256; newest first. Entries with OUTCOME 2, 3 or 5 hold ALERT_N until
MGMT has read them (R537). Each entry fires EV_FAULT. -/
def State.logFault (s : State) (x : FUnit) (outcome flags obj detail : Nat) : State :=
  let e : FaultEntry := { lseq := s.svc.lseq, time := s.now, unit := x, outcome := outcome, flags := flags, object := obj, detail := detail }
  (s.noting fun s => s.onSvc fun v =>
    { v with log := (e :: v.log).take 256, lseq := (v.lseq + 1) % 2 ^ 32, logWrap := if 256 ≤ v.log.length then inc32 v.logWrap else v.logWrap,
             unread := if outcome = 2 ∨ outcome = 3 ∨ outcome = 5 then e.lseq :: v.unread else v.unread }).fireObj s.svc.evFault deviceId

/-- OBJECT of an entry without a logical object (R536). -/
def noObject : Nat := 0xFFFFFFFF

/-- A unit that lies in no physical Quire, by its C field, and one that lies in none and is named by A (R528). -/
def unitC (kind n : Nat) : FUnit := { kind := kind, phys := 31 + n * 2 ^ 17 }
def unitA (kind n : Nat) : FUnit := { kind := kind, phys := 31 + n * 2 ^ 5 }

/-- The next error of a unit counts as lasting without a test (R530). -/
def State.recurring (s : State) (x : FUnit) : Bool :=
  s.svc.transLimit != 0 &&
    decide (s.svc.transLimit ≤ (s.svc.transients.filter fun e => e.1 == x && decide (s.now < e.2 + s.svc.transWindow * uS)).length)

/-- A test has passed: the error was transient (R527). -/
def State.transientPass (s : State) (x : FUnit) (obj detail : Nat) : State :=
  (s.onSvc fun v => { v with transients := (x, s.now) :: v.transients }).logFault x 1 0 obj detail

/-- Capacity is lost: a running device enters REDUCED (R30, R534). -/
def State.toReduced (s : State) : State := if s.dev.st = .run then s.setDevSt .reduced else s

/-- A unit is retired: it is recorded, and the device enters REDUCED (R527, R530). -/
def State.retireUnit (s : State) (x : FUnit) : State :=
  (s.onSvc fun v => { v with retiredUnits := if v.retiredUnits.contains x then v.retiredUnits else x :: v.retiredUnits }).toReduced

/-! ### Images -/

/-- The safe-code entry of a shipped module (R465, R591). -/
def shippedSafe : List Byte :=
  [0, 0, 0, 0xFF] ++ leBytes 4 0 ++ leBytes 4 0 ++ leBytes 4 (ofSigned 32 (-1250000)) ++ leBytes 4 1250000 ++ leBytes 2 1000 ++ leBytes 2 1000 ++ zeros 8

/-- The bodies of the images with which a module ships (R591): the safe codes, a lane equalisation table without valid entries;
the others' bodies are not given, and are left empty. -/
def shippedBody (i : Nat) : List Byte :=
  if i = 0x081 then (List.range 64).flatMap (fun _ => shippedSafe) ++ [100] ++ zeros 31 else if i = 0x082 then zeros (276 * 8) else []

/-- ITYPE and COUNTER of a slot's images (R557). -/
def imgType (i : Nat) : Nat := if i ≤ 1 then 0 else if i = 2 then 1 else if i = 0x80 then 3 else if i = 0x81 then 4 else if i = 0x82 then 5 else 2
def imgCounter (i : Nat) : Nat := if i ≤ 1 then 0 else if i = 2 then 1 else if i = 0x80 then 2 else if i = 0x81 then 3 else 4

/-- A shipped image (R556). -/
def shippedImage (i : Nat) : List Byte :=
  let b := shippedBody i
  leBytes 4 0x494E5341 ++ leBytes 2 1 ++ leBytes 2 (imgType i) ++ [0] ++ leBytes 1 (imgCounter i) ++ zeros 2 ++
    leBytes 4 (Config.shippedVersion i).toNat ++ zeros 4 ++ leBytes 4 b.length ++ zeros 8 ++ Config.sha384 b ++ zeros 48 ++ b ++
    (leBytes 96 (Config.shippedSig i).toNat).reverse

/-- What a slot holds until something has touched it: firmware A, the microcode and the vendor's tables in a shipped module, else
nothing. -/
def ImgSlot.shipped (i : Nat) : ImgSlot :=
  if i = 0 ∨ i = 2 ∨ (0x80 ≤ i ∧ i ≤ 0x82) then
    let b := shippedImage i
    { ImgSlot.empty with a := { len := b.length, bytes := (List.range b.length).map (fun k => (k, lget 0 b k)), valid := true, age := 0 } }
  else .empty

/-- A slot of the flash. -/
def State.img (s : State) (i : Nat) : ImgSlot := tget (.shipped i) s.dev.images i
/-- The state with a slot changed. -/
def State.onImg (s : State) (i : Nat) (g : ImgSlot → ImgSlot) : State :=
  s.onDev fun d => { d with images := tmod (.shipped i) d.images i g }

/-- The slot with a copy changed. -/
def ImgSlot.onCopy (x : ImgSlot) (n : Nat) (g : ImgCopy → ImgCopy) : ImgSlot := if n = 0 then { x with a := g x.a } else { x with b := g x.b }

/-- A write that has failed leaves the copy erased and invalid, and the slot closed (R76). -/
def ImgSlot.failed (x : ImgSlot) : ImgSlot :=
  { x.onCopy (x.opened.getD 0) (fun y => { ImgCopy.erased with age := y.age }) with opened := none, begun := false }

/-- One byte, and a field, of a copy; a byte never written reads 0xFF (R75). -/
def ImgCopy.byte (c : ImgCopy) (k : Nat) : Byte := tget 0xFF c.bytes k
def ImgCopy.u (c : ImgCopy) (off n : Nat) : Nat := leNat ((List.range n).map fun k => c.byte (off + k))
/-- Some bytes, and all the bytes, of a copy. -/
def ImgCopy.part (c : ImgCopy) (off n : Nat) : List Byte := (List.range n).map fun k => c.byte (off + k)
def ImgCopy.read (c : ImgCopy) : List Byte := c.part 0 c.len
/-- The body. -/
def ImgCopy.body (c : ImgCopy) : List Byte := c.part 128 (c.len - 224)

/-- A key that may sign (R558): the vendor's, or a valid owner key. -/
def State.signerOk (s : State) (signer : Nat) : Bool :=
  signer == 0 || (decide (signer ≤ 4) && match lget .empty s.trust.keys (signer - 1) with | .valid _ => true | _ => false)

/-- SVN of a VERSION (R556). -/
def svnOf (version : Nat) : Nat := bits version 12 12

/-- A copy that was verified when it was committed still passes at a load (R558): its signer's key is still valid, and its SVN is
not below the counter. -/
def State.loads (s : State) (c : ImgCopy) : Bool :=
  c.valid && s.signerOk (c.u 8 1) && decide (tget 0 s.trust.counters (c.u 9 1) ≤ svnOf (c.u 12 4))

/-- The newest copy of a slot that loads (R73, R558). -/
def State.newest (s : State) (i : Nat) : Option ImgCopy :=
  let x := s.img i
  match s.loads x.a, s.loads x.b with
  | true, true => if x.a.age < x.b.age then some x.b else some x.a
  | true, false => some x.a
  | false, true => some x.b
  | false, false => none

end Sys2Proof.Machine
end

