-- ==== Sys2Proof/Machine/RfBase.lean ====
section
/-! DEFINITION. The converter lines (08): reading and changing them, mute causes (R280 to R282), and the NCO phases (R277,
R286). -/
namespace Sys2Proof.Machine

def State.onRf (s : State) (g : Rf → Rf) : State := { s with rf := g s.rf }
def State.dac (s : State) (n : Nat) : DacLine := tget .reset s.rf.dacs n
def State.onDac (s : State) (n : Nat) (g : DacLine → DacLine) : State :=
  s.onRf fun r => { r with dacs := tmod .reset r.dacs n g }
def State.adc (s : State) (n : Nat) : AdcLine := tget .reset s.rf.adcs n
def State.onAdc (s : State) (n : Nat) (g : AdcLine → AdcLine) : State :=
  s.onRf fun r => { r with adcs := tmod .reset r.adcs n g }

/-- The line NCO phase at DAC sample `m` (R277). -/
def DacCfg.theta (c : DacCfg) (m : Nat) : BitVec 48 :=
  c.lfw * (BitVec.ofNat 48 m - 16#48 * BitVec.ofNat 48 c.lepoch) + (c.lphase.setWidth 48 <<< 16)

/-- The DDC NCO phase at ADC sample `m` (R286). -/
def AdcCfg.psi (c : AdcCfg) (m : Nat) : BitVec 48 :=
  c.afw * (BitVec.ofNat 48 m - 8#48 * BitVec.ofNat 48 c.aepoch) + (c.aphase.setWidth 48 <<< 16)

/-! ### Mute causes (R280): the bits of MUTE_CAUSE -/

def mHost : Nat := 0
def mPin : Nat := 1
def mEndpaper : Nat := 2
def mNoncoh : Nat := 3
def mLink : Nat := 4
def mTherm : Nat := 5
def mRelease : Nat := 6

/-- The time from the end of a mute to the resumption, and from a mute to the opening of the switch (R281, R282). -/
def tResume : Nat := 256 * uNs
def tSwitch : Nat := 50 * uNs

/-- A cause sets in, at an instant; a cause marked so sets HOST as well (R280). -/
def DacLine.setCause (d : DacLine) (bit : Nat) (host : Bool) (t : Nat) : DacLine :=
  let c := setBit (if host then setBit d.cause mHost true else d.cause) bit true
  { d with cause := c, muteAt := if d.cause = 0 then some t else d.muteAt, resumeAt := none }

/-- The line's last cause has gone, at an instant: the switch closes and the input resumes later (R282). A line in OFF keeps
its switch open (R284). -/
def DacLine.freed (d : DacLine) (t : Nat) : DacLine :=
  match d.muteAt with
  | some m => { d with muteAt := none, zero := true, zeroAt := m, opened := d.cfg.mode == 2, resumeAt := some (tickAt (t + tResume)) }
  | none => { d with opened := d.cfg.mode == 2, resumeAt := some (tickAt (t + tResume)) }

/-- A cause goes, at an instant. -/
def DacLine.clearCause (d : DacLine) (bit t : Nat) : DacLine :=
  let d1 := { d with cause := setBit d.cause bit false }
  if d.cause ≠ 0 ∧ d1.cause = 0 then d1.freed t else d1

/-- A cause for the lines of a list. -/
def State.setCauses (s : State) (lines : List Nat) (bit : Nat) (host : Bool) : State :=
  lines.foldl (fun a n => a.onDac n fun d => d.setCause bit host s.now) s
def State.clearCauses (s : State) (lines : List Nat) (bit : Nat) : State :=
  lines.foldl (fun a n => a.onDac n fun d => d.clearCause bit s.now) s

/-- The lines of a chiplet, and all lines. -/
def chipDacs (c : Nat) : List Nat := (List.range 10).map fun k => 10 * c + k
def allDacs : List Nat := List.range 40

/-- NONCOH mutes every line while no coherent reference is selected, unless NONCOH_ALLOW is 1 (R280, R522) and no forced release has found INT unlocked
since (R391). It is 0 at reset, so BOOT does not judge the reference. DEDUCED. -/
def State.noncoh (s : State) : State :=
  if s.clk.coherent || (s.rf.allow && !s.clk.waitCoh) || s.dev.st == .boot || s.dev.st == .off then s.clearCauses allDacs mNoncoh
  else s.setCauses allDacs mNoncoh false

/-- The RF_MUTE_SETs due by an instant take effect (R281). -/
def DacLine.takeMutes (d : DacLine) (t : Nat) : DacLine :=
  match (d.mutes.filter fun m => decide (m ≤ t)) with
  | [] => d
  | m :: ms => { d.setCause mHost true (ms.foldl min m) with mutes := d.mutes.filter (fun x => !decide (x ≤ t)), unmuteWait := false }

/-- RF_UNMUTE reaches a line at an instant (R279, R282, R283): HOST clears, unless a mute takes effect by then or the line
still settles. -/
def DacLine.unmute (d : DacLine) (t : Nat) : DacLine :=
  if d.mutes.any fun m => decide (m ≤ t) then d.takeMutes t
  else match d.settleTo with
    | some e => if t < e then { d with unmuteWait := true } else d.clearCause mHost t
    | none => d.clearCause mHost t

/-- PIN follows the filtered pin, with LATCH 1 HOST as well (R283). -/
def State.mutePin (s : State) (low : Bool) : State :=
  let s1 := s.onRf fun r => { r with pin := low, pinAt := if low then some s.now else r.pinAt }
  if low then s1.setCauses allDacs mPin s.rf.latch else s1.clearCauses allDacs mPin

/-- The pin's edges that come out of its filter by now have come about: they come before an unmute of the same tick is answered (R282). -/
def State.pinDue (s : State) : State :=
  let due := fun (d : Delayed) => match d.eff with | .mutePin low => if d.time ≤ s.now then some low else none | _ => none
  (s.delayed.filterMap due).foldl State.mutePin { s with delayed := s.delayed.filter fun d => (due d).isNone }

/-- The lines of a mask of 40 bits. -/
def maskLines (m : Nat) : List Nat := (List.range 40).filter fun n => bitOf m n

/-- A TIMED RF_MUTE_SET of a line that waits for a time by an instant (R283). -/
def State.timedMute (s : State) (n t : Nat) : Bool :=
  s.dev.timed.any fun x => decide (tickAt x.time ≤ t) && x.pkts.any fun p => p.code == 0x702 && bitOf (u p.req.params 12 8) n

/-- A mute that takes effect at the present tick prevails over an unmute: a TIMED RF_MUTE_SET, or an assertion of the pin that sets HOST (R283). -/
def State.muteWins (s : State) (n : Nat) : Bool := s.timedMute n s.now || (s.rf.latch && s.rf.pinAt == some s.now)

/-- RF_UNMUTE reaches its lines, of which a mute at the same tick takes back its own (R283); where one still settles, the end of the last such settling (R279). -/
def State.unmuteNow (s : State) (mask : Nat) : State × Option Nat :=
  let s1 := (maskLines mask).foldl (fun a n => a.onDac n fun d => if s.muteWins n then d.setCause mHost true s.now else d.unmute s.now) s
  (s1, ((maskLines mask).filterMap fun n => if (s1.dac n).unmuteWait then (s1.dac n).settleTo else none).max?)

/-- The settling has ended: the lines that no mute has taken back are unmuted. -/
def State.unmuteSettled (s : State) (mask : Nat) : State :=
  (maskLines mask).foldl (fun a n => a.onDac n fun d =>
    if !d.unmuteWait then d
    else if s.muteWins n then { d.setCause mHost true s.now with unmuteWait := false } else { d with unmuteWait := false }.unmute s.now) s

/-- RF_UNMUTE ends: the reply lists the named lines that are still muted (R282, R295). -/
def State.unmuteDone (s : State) (mask : Nat) : State :=
  s.resolve { kind := .unmute, a := 0, b := 0 }
    (leBytes 8 ((maskLines mask).foldl (fun m n => if (s.dac n).cause = 0 then m else m + 2 ^ n) 0))

/-! ### Line settings -/

/-- The fields that a DAC_LINE_SET mask names (R294). -/
def DacCfg.merge (c : DacCfg) (mask : Nat) (to' : DacCfg) : DacCfg :=
  { lfw := if bitOf mask 0 then to'.lfw else c.lfw, lphase := if bitOf mask 1 then to'.lphase else c.lphase,
    lepoch := if bitOf mask 2 then to'.lepoch else c.lepoch, lgain := if bitOf mask 3 then to'.lgain else c.lgain,
    mode := if bitOf mask 4 then to'.mode else c.mode, cshift := if bitOf mask 4 then to'.cshift else c.cshift }

/-- New fields in force (R279, R284): a line that enters OFF opens its switch, one that leaves it has HOST set and settles for
50 µs. -/
def DacLine.set (d : DacLine) (mask : Nat) (to' : DacCfg) (t : Nat) : DacLine :=
  let c := d.cfg.merge mask to'
  let d1 := { d with cfg := c }
  if c.mode = 2 ∧ d.cfg.mode ≠ 2 then { d1 with opened := true, settleTo := none }
  else if c.mode ≠ 2 ∧ d.cfg.mode = 2 then { d1 with cause := setBit d.cause mHost true, settleTo := some (t + 50 * uUs) }
  else d1

/-- The fields that an ADC_LINE_SET mask names (R297). -/
def AdcCfg.merge (c : AdcCfg) (mask : Nat) (to' : AdcCfg) : AdcCfg :=
  { afw := if bitOf mask 0 then to'.afw else c.afw, aphase := if bitOf mask 1 then to'.aphase else c.aphase,
    aepoch := if bitOf mask 2 then to'.aepoch else c.aepoch, gain6 := if bitOf mask 3 then to'.gain6 else c.gain6,
    enable := if bitOf mask 4 then to'.enable else c.enable }

/-! ### Lines out of service, and the streams of the ADC lines -/

/-- A line's chiplet is out of service (R13, R293), or the line is retired (R528). -/
def State.dacOut (s : State) (n : Nat) : Bool := s.rf.out.contains (n / 10)
def State.adcOut (s : State) (n : Nat) : Bool := s.rf.out.contains (n / 4)
def State.dacRetired (s : State) (n : Nat) : Bool := s.svc.retiredUnits.contains { kind := 10, phys := 31 + n * 2 ^ 17 }
def State.adcRetired (s : State) (n : Nat) : Bool := s.svc.retiredUnits.contains { kind := 11, phys := 31 + n * 2 ^ 17 }

/-- A span in which an ADC line delivers no stream; of those that have an end the newest 32 are kept. -/
def AdcLine.gap (a : AdcLine) (from' : Nat) (to' : Option Nat) : AdcLine :=
  let l := (from', to') :: a.gaps
  { a with gaps := (l.filter fun g => g.2.isNone) ++ (l.filter fun g => g.2.isSome).take 32 }

/-- How long earlier settings of an ADC line are kept: longer than a window and its path, and than the longest delay of a channeliser's source (R214),
so that each sample is mixed under the settings of its own instant. -/
def adcKeep : Nat := uS

/-- The settings of an ADC line at an instant. -/
def AdcLine.cfgAt (a : AdcLine) (t : Nat) : AdcCfg :=
  match (a.was.filter fun e => decide (t < e.1)).getLast? with
  | some e => e.2
  | none => a.cfg

/-- New fields of an ADC line in force (R287): ENABLE 0 begins a gap in its stream and ENABLE 1 ends it; WHEN 1 (bit 7) blanks the 64 samples from
the tick onward. -/
def AdcLine.set (a : AdcLine) (mask : Nat) (to' : AdcCfg) (t : Nat) : AdcLine :=
  let c := a.cfg.merge mask to'
  let a1 := { a with cfg := c, was := (t, a.cfg) :: a.was.filter fun e => decide (t ≤ e.1 + adcKeep) }
  let a2 := if a.cfg.enable && !c.enable then a1.gap t none
    else if !a.cfg.enable && c.enable then { a1 with gaps := a1.gaps.map fun (g : Nat × Option Nat) => if g.2.isNone then (g.1, some t) else g }
    else a1
  if bitOf mask 7 then a2.gap t (some (t + 64 * uSample)) else a2

/-- A span of silence of ADC lines begins, and ends; of those that have an end the newest 64 are kept. -/
def Rf.rise (r : Rf) (k t : Nat) : Rf := { r with down := r.down.map fun e => if e.1 = k ∧ e.2.2.isNone then (k, e.2.1, some t) else e }
def Rf.fall (r : Rf) (k t : Nat) : Rf :=
  if r.down.any fun e => e.1 == k && e.2.2.isNone then r
  else { r with down := (k, t, none) :: (r.down.filter fun e => e.2.2.isNone) ++ (r.down.filter fun e => e.2.2.isSome).take 64 }

/-- What can keep ADC line `n` silent, as `Rf.down` names it. -/
def adcKeys (n : Nat) : List Nat := [n / 4, 4 + n / 4, 16 + n, 32]

/-- An ADC line delivers no stream at some instant of [t, t'), or at an instant (R131, R287, R290): its chiplet is out or powered down, it has not
started yet, or a forced release was in progress (R291). That the lines start as the supplies are good is a DESIGN CHOICE: no lock time is given. -/
def State.adcSilentIn (s : State) (n t t' : Nat) : Bool :=
  let c := s.clk
  (s.rf.down.any fun e => (adcKeys n).contains e.1 && decide (e.2.1 < t') && (match e.2.2 with | none => true | some x => decide (t < x))) || c.sAt.isNone || c.sAt.any (fun a => decide (t < max a s.dev.bootAt)) ||
    c.rootReset || (decide (c.relFrom < t') && decide (t < c.relTo)) || (c.lostSel && decide (c.relFrom < t')) || (s.adc n).gaps.any fun g => decide (g.1 < t') && (match g.2 with | none => true | some e => decide (t < e))
def State.adcSilent (s : State) (n t : Nat) : Bool := s.adcSilentIn n t (t + 1)

end Sys2Proof.Machine
end

