-- ==== Sys2Proof/Machine/CapBase.lean ====
section
/-! DEFINITION. The capture units (12, R415 to R431): detectors, history, segments, measurements, the mask and the header. -/
namespace Sys2Proof.Machine

def State.onCap (s : State) (g : Caps → Caps) : State := { s with cap := g s.cap }
def State.capU (s : State) (n : Nat) : CapUnit := tget .reset s.cap.units n
def State.onCapU (s : State) (n : Nat) (g : CapUnit → CapUnit) : State :=
  s.onCap fun c => { c with units := tmod .reset c.units n g }

/-- An armed unit (R436): ARMED, RECORDING or HOLDOFF. -/
def CapUnit.active (u : CapUnit) : Bool := u.st == .armed || u.st == .recording || u.st == .holdoff

/-- The stored bytes of a sample, and the time between two samples (R415). -/
def CapCfg.width (c : CapCfg) : Nat := if c.skind = 0 then 2 else 4
def CapCfg.period (c : CapCfg) : Nat :=
  if c.skind = 0 then uSample / 8 * 2 ^ c.dec else if c.skind = 1 then uSample else 8 * uSample

/-- The configured write rate in bytes per second (R415). -/
def CapCfg.rate (c : CapCfg) : Rat :=
  if c.skind = 0 then 25000000000 / ((2 ^ c.dec : Nat) : Rat) else if c.skind = 1 then 6250000000 else 781250000

/-- The write rates of the armed units together (R264, R421). -/
def State.captureRate (s : State) : Rat :=
  s.cap.units.foldl (fun a e => a + match e.2.cfg with | some c => if e.2.active then c.rate else 0 | none => 0) 0

/-- Where the data start, and the bytes a configuration needs (R418). -/
def CapCfg.data0 (c : CapCfg) : Nat := roundUp (c.nseg * 64) 4096
def CapCfg.bytes (c : CapCfg) : Nat := c.data0 + c.nseg * c.seglen * c.width

/-- R418 holds for the region of a configuration. -/
def State.capFits (s : State) (c : CapCfg) : Bool :=
  match s.region c.region with
  | some r => decide (c.bytes ≤ r.size) && decide (r.size ≤ 2 ^ 31)
  | none => false

/-! ### Arithmetic (R415, R422, R426) -/

/-- The integer square root. -/
def isqrt (n : Nat) : Nat :=
  ((List.range 128).reverse).foldl (fun r b => if (r + 2 ^ b) * (r + 2 ^ b) ≤ n then r + 2 ^ b else r) 0

/-- The integer nearest to the square root of `a / b`, a half rounded up. -/
def sqrtRound (a b : Nat) : Nat :=
  let r := isqrt (a / b)
  if (2 * r + 1) * (2 * r + 1) * b ≤ 4 * a then r + 1 else r

/-- A component of a sample (R422): 0 REAL, 1 I, 2 Q, 3 MAG. -/
def capComp (x : RoSample) (c : Nat) : Int :=
  if c = 2 then x.q else if c = 3 then (sqrtRound (x.i * x.i + x.q * x.q).toNat 1 : Int) else x.i

/-- The bytes of a stored sample (R415). -/
def capBytes (x : RoSample) (w : Nat) : List Byte :=
  leBytes 2 (ofSigned 16 x.i) ++ (if w = 4 then leBytes 2 (ofSigned 16 x.q) else [])

/-- A detector pair (R422): whether it fires on a value, and the primings after it. -/
def detect (level : Int) (hyst slope : Nat) (up down : Bool) (v : Int) : Bool × Bool × Bool :=
  let r := bitOf slope 0 && up && decide (level ≤ v)
  let f := bitOf slope 1 && down && decide (v ≤ level)
  (r || f, if r then false else up || decide (v ≤ level - hyst), if f then false else down || decide (level + hyst ≤ v))

/-- The time at which the line from value `a` at sample `j − 1` to `b` at sample `j` reaches `l`, in 1/256 sample (R426). -/
def crossAt (j : Nat) (a b l : Rat) : Int :=
  if a = b then ((256 * (j - 1) : Nat) : Int)
  else ((256 * (j - 1) : Nat) : Int) + ((256 * (l - a) / (b - a) + 1 / 2).floor)

/-- The rising crossings of values at a level: their times (R426). -/
def risings (level : Int) (hyst : Nat) (vs : List Int) : List Int :=
  (vs.foldl (fun (a : Nat × Bool × Option Int × List Int) (v : Int) =>
    let d := detect level hyst 1 a.2.1 false v
    (a.1 + 1, d.2.1, some v,
      if d.1 then a.2.2.2 ++ [crossAt a.1 ((a.2.2.1.getD v : Int) : Rat) (v : Rat) (level : Rat)] else a.2.2.2))
    (0, false, none, [])).2.2.2

/-- The first upward crossing of a level, not before a time (R426). -/
def upward (l : Rat) (from' : Int) (vs : List Int) : Option Int :=
  (vs.foldl (fun (a : Nat × Option Int × Option Int) (v : Int) =>
    let t : Option Int := match a.2.1 with
      | some p => if (p : Rat) < l ∧ l ≤ (v : Rat) then some (crossAt a.1 p v l) else none
      | none => none
    (a.1 + 1, some v, match a.2.2, t with
      | some x, _ => some x
      | none, some x => if from' ≤ x then some x else none
      | none, none => none)) (0, none, none)).2.2

/-- The measurement block (R427); a segment without a recorded sample has a block of zeros. -/
def measure (level : Int) (hyst : Nat) (vs : List Int) : List Byte :=
  match vs with
  | [] => zeros 32
  | v :: rest =>
    let n := vs.length
    let lo := rest.foldl min v
    let hi := rest.foldl max v
    let sum := vs.foldl (· + ·) 0
    let sq := vs.foldl (fun a x => a + (x * x).toNat) 0
    let cr := risings level hyst vs
    let period : Option Nat := match cr with
      | a :: b :: more => some (roundDiv (((b :: more).getLastD b) - a) (cr.length - 1)).toNat
      | _ => none
    let l10 : Rat := (lo : Rat) + ((hi - lo : Int) : Rat) / 10
    let l90 : Rat := (lo : Rat) + 9 * ((hi - lo : Int) : Rat) / 10
    let rise : Option Int := match upward l10 0 vs with
      | some a => match upward l90 a vs with | some b => some (b - a) | none => none
      | none => none
    let p := period.getD 0
    leBytes 4 (ofSigned 32 lo) ++ leBytes 4 (ofSigned 32 hi) ++ leBytes 4 (ofSigned 32 (roundDiv (sum * 65536) n)) ++
      leBytes 4 (sqrtRound (sq * 2 ^ 32) n) ++ leBytes 4 p ++ leBytes 4 (rise.getD 0).toNat ++
      leBytes 4 (if p = 0 then 0 else (2 ^ 41 + p) / (2 * p)) ++ leBytes 2 (min cr.length 65535) ++
      leBytes 2 (ofBool period.isSome + 2 * ofBool rise.isSome)

/-- The violations of the mask by the tested samples, as offsets from the trigger point (R428). -/
def CapUnit.violations (u : CapUnit) (vs : List Int) : List Nat :=
  (vs.foldl (fun (a : Nat × List Nat) v =>
    let e := a.1 / 2 ^ u.mstep
    let m := tget ((-32768 : Int), (32767 : Int)) u.mtab e
    (a.1 + 1, if e < 4096 ∧ (v < m.1 ∨ m.2 < v) then a.2 ++ [a.1] else a.2)) (0, [])).2

/-- The mask block (R428). -/
def maskBlock (vio : List Nat) : List Byte :=
  leBytes 4 (vio.headD 0xFFFFFFFF) ++ leBytes 4 (min vio.length 0xFFFFFFFF) ++ zeros 22 ++ leBytes 2 (4 + 8 * ofBool (!vio.isEmpty))

/-! ### Segments (R418 to R420, R425) -/

/-- Some part of a span of device time had no coherent reference (R143, R419). -/
def Clk.incoherentIn (c : Clk) (lo hi : Nat) : Bool :=
  c.incoh.any fun e => decide (e.1 < hi) && (match e.2 with | none => true | some t => decide (lo < t))

/-- Samples that the model has not received: free values. -/
def State.freshSamples (s : State) (n : Nat) : List RoSample × State :=
  ((List.range n).map fun j =>
    let v := (Config.freeValue (s.free + j)).toNat
    { i := toSigned 16 v, q := toSigned 16 (v / 65536), ovr := bitOf v 32, missing := bitOf v 33 }, { s with free := s.free + n })

/-- Enters DONE or STOPPED, and fires EV_DONE (R429). -/
def State.capStop (s : State) (n cause : Nat) : State :=
  let ev := match (s.capU n).cfg with | some c => c.evDone | none => 0xFFFF
  (s.onCapU n fun u =>
    { u with st := if cause = 1 then .done else .stopped, cause := cause, cur := none, held := none, stopping := false, force := none, evAt := none,
             opened := [] }).fireHops ev (captureId n) (s.capU n).hops

/-- A segment has been written to the last slot of the ring: a deferred NSEG comes into force, for slot 0 on (R420, R431). -/
def CapUnit.wrapped (u : CapUnit) : CapUnit :=
  match u.nsegPend, u.cfg with
  | some k, some c => { u with nsegPend := none, nsegOld := some c.nseg, cfg := some { c with nseg := k } }
  | _, _ => u

/-- The segment in progress ends, with flags beside its own (R419, R426, R428): the data and the header are written, and the
unit goes to hold-off, or stops, where `stop` says so with that cause (R430). -/
def State.capEnd (s : State) (n : Nat) (flags : Nat) (stop : Option Nat) : State :=
  let u := s.capU n
  match u.cfg, u.cur with
  | some c, some r =>
    let xs := r.data.reverse
    let vs := xs.map fun x => capComp x c.mcomp
    let vio := if c.mask then u.violations (vs.drop (c.pre - r.short)) else []
    let count := xs.length
    let src := xs.any (·.missing)
    let t := r.trig * c.period
    let nc := s.clk.incoherentIn (t - c.pre * c.period) ((r.trig + (count + r.short - c.pre)) * c.period)
    let fl := flags + r.flags + ofBool src + 2 * ofBool (xs.any (·.ovr)) + 8 * ofBool (decide (0 < r.short)) + 16 * ofBool nc +
      512 * ofBool (!vio.isEmpty)
    let hdr := dtBytes (t + 12) ++ leBytes 4 (min r.qdelay 0xFFFFFFFF) ++ leBytes 4 ((u.seg + 1) % 2 ^ 32) ++ leBytes 4 count ++
      leBytes 2 fl ++ zeros 6 ++ (if c.mask then maskBlock vio else measure c.mlevel c.mhyst vs)
    let data := zeros (r.short * c.width) ++ xs.flatMap (fun x => capBytes x c.width) ++ zeros ((c.seglen - r.short - count) * c.width)
    let s1 := (s.memWrite c.region (c.data0 + u.next * c.seglen * c.width) data).memWrite c.region (u.next * 64) hdr
    let wrap := decide (u.next + 1 = c.nseg)
    let s2 := (s1.onCapU n fun u =>
      { u with st := .holdoff, cur := none, holdTo := (u.from' - 1) * c.period + 160 * uNs, seg := (u.seg + 1) % 2 ^ 32, nsegOld := none,
               next := if wrap then 0 else u.next + 1, wraps := if wrap && c.ring then inc32 u.wraps else u.wraps,
               preShort := if 0 < r.short then inc32 u.preShort else u.preShort, srcErr := if src then inc32 u.srcErr else u.srcErr,
               maskFail := if vio.isEmpty then u.maskFail else inc32 u.maskFail, lastTime := t + 12 }).fireHops c.evSeg (captureId n) u.hops
    let s3 := if u.nsegOld.isSome then s2.resolve (wait .capArm (captureId n) 0) [] else s2
    let (v, s4) := if vio.isEmpty then (0, s3) else s3.fresh
    match stop with
    | some k => s4.capStop n k
    | none =>
      if bitOf v 0 then s4.capStop n 3
      else if u.stopping then s4.capStop n 2
      else if wrap && !c.ring then s4.capStop n 1
      else if wrap then s4.onCapU n CapUnit.wrapped
      else s4
  | _, _ => s

/-- A segment starts at the sample just taken in (R418, R424, R425). -/
def CapUnit.begin (u : CapUnit) (c : CapCfg) (x : RoSample) (flags qdelay : Nat) (ev : Option Nat) : CapUnit :=
  let pre := u.hist.take c.pre
  { u with st := .recording, held := none, hops := ev.getD 0,
           cur := some { trig := u.from', short := c.pre - pre.length, flags := flags + 128 * ofBool ev.isSome, qdelay := qdelay, data := x :: pre } }

/-- A trigger while the unit records or holds off (R425). -/
def CapUnit.inRecord (u : CapUnit) (c : CapCfg) (evt : Option Nat) : CapUnit :=
  if c.queue1 && u.held.isNone then { u with held := some (u.from', evt) } else { u with during := inc32 u.during }

/-- The registration of EVCH, and of one that waits for the end of the hold-off (R434). -/
def evchField : Nat := 0xB02
def evchLater : Nat := 0xB82
def capTrigEvents (now' later : Nat) : List EvField := [evField evchField false now', evField evchLater false later]

/-- The end of the hold-off (R425): a CAP_TRIG_SET that has waited for it comes into force (R434). -/
def State.capRearm (s : State) (n : Nat) : State :=
  match (s.capU n).trigPend with
  | some (t, port) => (s.evFieldsApply port (captureId n) (capTrigEvents t.evch 0xFFFF)).onCapU n fun u =>
      { u with st := .armed, trig := some t, trigPend := none, up := false, down := false, evAt := none, hops := 0 }
  | none => s.onCapU n fun u => { u with st := .armed, hops := 0 }

/-- One source sample reaches an armed unit (R422 to R425); `win` marks the first sample of a window (R417), whose samples are stored as the integrator took
them. An event takes effect at the first sample whose label is not before it: by how much a sample reaches the unit later than its label is not given
(DESIGN CHOICE). -/
def State.capSample (s0 : State) (n : Nat) (win : Bool) (x0 : RoSample) : State :=
  let u0 := s0.capU n
  match u0.cfg with
  | none => s0
  | some c =>
    if !u0.active then s0
    else
      let x := if x0.missing ∧ c.skind ≠ 2 then { x0 with i := 0, q := 0 } else x0
      let time := u0.from' * c.period
      let s := if u0.st = .holdoff ∧ u0.holdTo ≤ time then s0.capRearm n else s0
      let u1 := s.capU n
      let tr := u1.trig.getD { tsrc := 2, tcomp := 0, slope := 0, level := 0, hyst := 0, evch := 0xFFFF }
      let d := if tr.tsrc = 0 ∧ c.skind ≠ 2 then detect tr.level tr.hyst tr.slope u1.up u1.down (capComp x tr.tcomp) else (false, u1.up, u1.down)
      let forced := c.skind != 2 && match u1.force with | some t => decide (t ≤ time) | none => false
      let evt := c.skind != 2 && tr.tsrc == 1 && u1.evAt.any fun t => decide (t ≤ time)
      let ev := if evt then some u1.evHops else if forced then some 0 else none
      let fires := d.1 || ev.isSome || (win && c.skind == 2 && tr.tsrc == 3)
      let u2 := { u1 with up := d.2.1, down := d.2.2, force := if forced then none else u1.force, evAt := if evt then none else u1.evAt }
      let u3 : CapUnit := match u2.st with
        | .armed =>
          match u2.held with
          | some (k, e) =>
            let u' := u2.begin c x 4 (u2.from' - k) e
            if fires then u'.inRecord c ev else u'
          | none => if fires then u2.begin c x 0 0 ev else u2
        | .recording =>
          let u' := { u2 with cur := u2.cur.map fun r => { r with data := x :: r.data } }
          if fires then u'.inRecord c ev else u'
        | _ => if fires then u2.inRecord c ev else u2
      let s1 := s.onCapU n fun _ => { u3 with from' := u3.from' + 1, hist := (x :: u3.hist).take 65536 }
      match u3.cur with
      | some r => if c.seglen ≤ r.short + r.data.length then s1.capEnd n 0 none else s1
      | none => s1

/-- Source samples reach a unit in turn, until its state is no longer `st`. -/
def State.capFeed (n : Nat) (st : CapSt) : List RoSample → State → State
  | [], s => s
  | x :: xs, s => if (s.capU n).st = st then State.capFeed n st xs (s.capSample n false x) else s

/-- All the samples of a window reach a unit (R417). -/
def State.capWindow (n : Nat) : Bool → List RoSample → State → State
  | _, [], s => s
  | first, x :: xs, s => State.capWindow n false xs (s.capSample n first x)

/-- The DEMOD units that record windows of a Folio under a set (R417). -/
def State.capDemods (s : State) (q f rset : Nat) : List Nat :=
  (List.range 16).filter fun n => match (s.capU n).cfg with
    | some c => c.skind == 2 && c.quire == q && c.folio == f && bitOf c.rsets rset && (s.capU n).active
    | none => false

/-- A window opens at label `start`: the units that record it from then on (R417). -/
def State.capOpen (s : State) (q f rset start : Nat) : State :=
  (s.capDemods q f rset).foldl (fun a n => a.onCapU n fun u => { u with opened := u.opened ++ [start] }) s

/-- The decimated samples of a window make a segment in a DEMOD unit that records it: those from label `start` on; a segment that the window does not fill
ends with it. -/
def State.capWin (s : State) (n start flags : Nat) (stop : Option Nat) (xs : List RoSample) : State :=
  let s1 := State.capWindow n true xs (s.onCapU n fun u => { u with from' := start / 8, opened := u.opened.filter fun x => x != start })
  if (s1.capU n).st = .recording then s1.capEnd n flags stop
  else if (s1.capU n).active ∧ (s1.capU n).stopping ∧ (s1.capU n).opened = [] then s1.capStop n 2 else s1

/-- A window of a Folio makes a segment in every DEMOD unit that has recorded it since it opened (R417). -/
def State.captureWindow (s : State) (q f rset start flags : Nat) (xs : List RoSample) : State :=
  ((s.capDemods q f rset).filter fun n => (s.capU n).opened.contains start).foldl (fun a n => a.capWin n start flags none xs) s

/-- The source samples of an active RAW or DDC unit up to now that no command has brought are taken in as free values. -/
def State.capPass (s : State) (n : Nat) : State :=
  let u := s.capU n
  match u.cfg with
  | none => s
  | some c =>
    let k := ceilDiv s.now c.period - u.from'
    if c.skind = 2 ∨ !u.active ∨ k = 0 then s
    else
      let m := match u.cur with | some r => min k (c.seglen - r.short - r.data.length) | none => min k 65536
      let (xs, s1) := s.freshSamples m
      s1.onCapU n fun u =>
        { u with hist := (xs.reverse ++ u.hist).take 65536, cur := u.cur.map (fun r => { r with data := xs.reverse ++ r.data }),
                 from' := if u.cur.isSome then u.from' + m else u.from' + k }

/-- A segment in progress ends early, with flags and SHORT, and where `stop` says so the unit stops (R430, R436). One that was complete by now ends as such. -/
def State.capCutOne (s : State) (n flags : Nat) (stop : Option Nat) : State :=
  let u := s.capU n
  match u.cfg with
  | none => s
  | some c =>
    if c.skind = 2 then
      match u.opened.find? fun x => decide (x * uSample ≤ s.now) with
      | some start =>
        let (xs, s1) := s.freshSamples (min c.seglen ((s.now / uSample + 1 - start) / 8))
        s1.capWin n start (1024 + flags) stop xs
      | none => s
    else if u.cur.isSome then
      let s1 := s.capPass n
      match (s1.capU n).cur with
      | some r => s1.capEnd n (if c.seglen ≤ r.short + r.data.length then 0 else 1024 + flags) stop
      | none => s1
    else s

/-- The segments in progress of some units end early (R430). -/
def State.capCut (s : State) (units : List Nat) (flags : Nat) : State := units.foldl (fun a n => a.capCutOne n flags none) s

/-- The units stop with a cause (R430): a segment in progress is ended first. -/
def State.capStopAll (s : State) (units : List Nat) (cause : Nat) : State :=
  units.foldl (fun a n =>
    if (a.capU n).active then
      let b := a.capCutOne n 0 (some cause)
      if (b.capU n).active then b.capStop n cause else b
    else a) s

/-- The source samples of some units are numbered anew, from the present instant on, which was `old` (R430): a forced release and CAP_ARM empty the history, a
step of device time does not. The distance to a held trigger stays. -/
def State.capRestart (s : State) (units : List Nat) (old : Nat) (clear : Bool) : State :=
  units.foldl (fun a n => a.onCapU n fun u =>
    match u.cfg with
    | some c =>
      let k := ceilDiv a.now c.period
      { u with hist := if clear then [] else u.hist, from' := k, held := u.held.map fun h => (k + h.1 - ceilDiv old c.period, h.2) }
    | none => { u with hist := if clear then [] else u.hist }) s

end Sys2Proof.Machine
end

