-- ==== Sys2Proof/Machine/Cis.lean ====
section
/-! DEFINITION. The carrier table of the tone generators and of the demodulators' NCO (03, generator arithmetic; 04, R133): cosine and sine of a
20-bit phase, to the nearest integer of full scale 2^17 − 1 (R85; DEDUCED that the table holds the nearest integers). -/
namespace Sys2Proof.Machine

/-- Cosine and sine of 2π × 2^k ÷ 2^20 for k = 0 to 19, in units of 2^-60. -/
def cisBits : List (Int × Int) :=
  [(1152921504586148915, 6908435304674),
   (1152921504524054734, 13816870609100),
   (1152921504275678006, 27633741216215),
   (1152921503282171097, 55267482416555),
   (1152921499308143464, 110534964706109),
   (1152921483412032977, 221069928396204),
   (1152921419827591761, 442139848664298),
   (1152921165489838583, 884279632303724),
   (1152920148139012899, 1768558744408523),
   (1152916078738702569, 3537113327227485),
   (1152899801185339687, 7074193361797233),
   (1152834691737939372, 14148120384212745),
   (1152574266204915294, 28294110113536504),
   (1151532760162549490, 56571176913125535),
   (1147369872436662991, 113006068906017470),
   (1130768441178740757, 224923827593068887),
   (1065160580698383124, 441203958630471860),
   (815238614083298888, 815238614083298888),
   (0, 1152921504606846976),
   (-1152921504606846976, 0)]

/-- A unit vector turned by the bits of a phase that are set, the lowest first, in units of 2^-60. -/
def cisTurn : List (Int × Int) → Nat → Int × Int → Int × Int
  | [], _, v => v
  | t :: ts, p, v =>
    cisTurn ts (p / 2) (if p % 2 = 1 then ((v.1 * t.1 - v.2 * t.2) / 2 ^ 60, (v.1 * t.2 + v.2 * t.1) / 2 ^ 60) else v)

/-- cis of a 20-bit phase: real and imaginary part, full scale 2^17 − 1. -/
def cis (p : BitVec 20) : Int × Int :=
  let v := cisTurn cisBits p.toNat (2 ^ 60, 0)
  (roundDiv (131071 * v.1) (2 ^ 60), roundDiv (131071 * v.2) (2 ^ 60))

end Sys2Proof.Machine
end

