-- ==== Sys2Proof/Machine/Converters.lean ====
section
/-! DEFINITION. The signal path of the converters: the DDC of an ADC line (08, R285, R286), a Folio's mixer and decimator (04, R132 to R134), and the
upconversion of a DAC line (08, R276). The taps of the three filters are not in the spec: opaque constants of Config. -/
namespace Sys2Proof.Machine

/-- A value saturated to `w` bits, and whether it was. -/
def satQ (w : Nat) (v : Int) : Int × Bool :=
  let x := satSigned w v
  (x, decide (x ≠ v))

/-- The 20 upper bits of a 48-bit phase: the resolution of the cis table (R85, R133). -/
def phase20 (p : BitVec 48) : BitVec 20 := BitVec.ofNat 20 (p.toNat / 2 ^ 28)

/-- A value times cis(−ψ), in units of 2^-17 (R133, R286). -/
def mixDown (v : Iq) (psi : BitVec 48) : Iq :=
  let w := cis (phase20 (-psi))
  ⟨v.i * w.1 - v.q * w.2, v.i * w.2 + v.q * w.1⟩

/-- A filter's output at sample `m`: tap `j` meets sample m − j. -/
def fir (taps : List Int) (x : Int → Iq) (m : Int) : Iq :=
  (taps.foldl (fun (a : Int × Iq) h =>
    let v := x (m - a.1)
    (a.1 + 1, ⟨a.2.i + h * v.i, a.2.q + h * v.q⟩)) (0, ⟨0, 0⟩)).2

/-! ### The DDC (R285, R286) -/

/-- The code of an ADC sample of a line, where a command brings it. -/
def adcCode (xs : List AdcIn) (line m : Nat) : Option Int :=
  xs.findSome? fun x => if x.line = line ∧ x.first ≤ m then x.codes[m - x.first]?.map BitVec.toInt else none

/-- A full-scale code. DEDUCED: either end of the 12-bit range. -/
def fullScale (v : Int) : Bool := v == 2047 || v == -2048

/-- A code scaled by 16 and mixed with the DDC's NCO under the settings of its instant (R286). A code that is not there counts as zero. -/
def AdcLine.mixed (a : AdcLine) (xs : List AdcIn) (line : Nat) (m : Int) : Iq :=
  if m < 0 then ⟨0, 0⟩
  else match adcCode xs line m.toNat with
    | some v => mixDown ⟨16 * v, 0⟩ ((a.cfgAt (m.toNat * uSample / 8)).psi m.toNat)
    | none => ⟨0, 0⟩

/-- DDC sample `k` of a line (R285): its newest ADC sample is 8k + 7. With GAIN6 the sum is doubled, then rounded once and saturated. It is missing where
one of its eight ADC samples is, or where the line delivers no stream. -/
def State.ddc (s : State) (xs : List AdcIn) (line k : Nat) : RoSample :=
  let a := s.adc line
  let codes := (List.range 8).map fun j => adcCode xs line (8 * k + j)
  let v := fir Config.ddcTaps (a.mixed xs line) (8 * k + 7 : Nat)
  let g : Int := if (a.cfgAt (k * uSample)).gain6 then 2 else 1
  let i := satQ 16 (roundDiv (g * v.i) (2 ^ (17 + Config.ddcScale)))
  let q := satQ 16 (roundDiv (g * v.q) (2 ^ (17 + Config.ddcScale)))
  { i := i.1, q := q.1, ovr := i.2 || q.2 || codes.any (fun c => c.any fullScale),
    missing := s.adcSilentIn line (k * uSample) ((k + 1) * uSample) || codes.any Option.isNone }

/-- SAT_COUNT of a line up to DDC sample `k` (R299). Of the samples since the last one counted, none of which a command has brought, a free value says how
many were over range: no more than there were. -/
def State.overGap (s : State) (line k : Nat) : State :=
  let from' := ceilDiv (s.adc line).satAt uSample
  if k ≤ from' then s
  else
    let (v, s1) := s.fresh
    s1.onAdc line fun a => { a with sat := satAdd 32 a.sat (v % (k - from' + 1)), satAt := k * uSample }

/-- The overrange flags of the `n` DDC samples from `k` on that a command has brought are counted, each sample once (R285, R299). -/
def State.countOver (s : State) (xs : List AdcIn) (line k n : Nat) : State :=
  let s1 := s.overGap line k
  let a := max k (ceilDiv (s1.adc line).satAt uSample)
  if k + n ≤ a then s1
  else
    let m := ((List.range (k + n - a)).filter fun j => let y := s.ddc xs line (a + j); y.ovr && !y.missing).length
    s1.onAdc line fun x => { x with sat := satAdd 32 x.sat m, satAt := (k + n) * uSample }

/-! ### A Folio's mixer and decimator (R132 to R134) -/

/-- The demodulator's NCO phase at label `m` (R133). -/
def RSet.psi (x : RSet) (m : Nat) : BitVec 48 := x.dfw * (BitVec.ofNat 48 m - x.depoch) + (x.dphase.setWidth 48 <<< 16)

/-- Decimated sample `k` of a line under a read-out set, formed when it takes in the DDC samples 8k to 8k + 7, whose overrange flags it carries, and
whether it saturated (R132 to R134). It is missing without a line and where one of the eight is missing; a missing DDC sample counts as zero. -/
def State.demodSample (s : State) (xs : List AdcIn) (line : Option Nat) (set : RSet) (k : Nat) : RoSample × Bool :=
  match line with
  | none => ({ i := 0, q := 0, ovr := false, missing := true }, false)
  | some n =>
    let eight := (List.range 8).map fun j => s.ddc xs n (8 * k + j)
    let v := fir Config.demodTaps (fun m =>
      if m < 0 then ⟨0, 0⟩
      else
        let y := s.ddc xs n m.toNat
        if y.missing then ⟨0, 0⟩ else mixDown ⟨y.i, y.q⟩ (set.psi m.toNat)) (8 * k + 7 : Nat)
    let i := satQ 16 (roundDiv v.i (2 ^ (17 + Config.demodScale)))
    let q := satQ 16 (roundDiv v.q (2 ^ (17 + Config.demodScale)))
    ({ i := i.1, q := q.1, ovr := eight.any fun y => y.ovr && !y.missing, missing := eight.any (·.missing) }, i.2 || q.2)

/-! ### The upconversion of a DAC line (R276) -/

/-- The output samples that the interpolator holds. DESIGN CHOICE: taps that reach further back have no effect. -/
def interpDepth : Nat := 64

/-- The interpolated sample `j` of the newest line sum (R276): rounded and saturated to 16+16 bits. -/
def interp16 (zs : List Iq) (j : Nat) : Iq :=
  let v := (List.range zs.length).foldl (fun (a : Iq) i =>
    let h := lget 0 Config.interpTaps (16 * i + j)
    let z := lget ⟨0, 0⟩ zs i
    ⟨a.i + h * z.i, a.q + h * z.q⟩) ⟨0, 0⟩
  ⟨satSigned 16 (roundDiv v.i (2 ^ Config.interpScale)), satSigned 16 (roundDiv v.q (2 ^ Config.interpScale))⟩

/-- The DAC codes d(16n) to d(16n + 15) of an output sample, and whether each saturated in sat14 (R276). -/
def DacCfg.codes (c : DacCfg) (zs : List Iq) (n : Nat) : List (Int × Bool) :=
  (List.range 16).map fun j =>
    let w := interp16 zs j
    let p := cis (phase20 (c.theta (16 * n + j)))
    let r := roundDiv ((w.i * p.1 - w.q * p.2) * (c.lgain : Int)) (2 ^ 35)
    (clampI (-8191) 8191 r, decide (r < -8191) || decide (8191 < r))

/-- The line sum of an output sample, shifted, rounded and clamped, and whether it clamped (R276). -/
def DacCfg.lineSum (c : DacCfg) (vals : List Iq) : Iq × Bool :=
  let z : Iq := vals.foldl (fun a v => ⟨a.i + v.i, a.q + v.q⟩) ⟨0, 0⟩
  let i := roundDiv z.i (2 ^ c.cshift)
  let q := roundDiv z.q (2 ^ c.cshift)
  (⟨clampI (-32767) 32767 i, clampI (-32767) 32767 q⟩, decide (32767 < i.natAbs) || decide (32767 < q.natAbs))

/-- A DAC line takes in the line streams of output sample `n` and counts the samples that saturate (R276). In MODE OFF it forms none; where the
interpolator holds nothing but zeros, neither can saturate. -/
def DacLine.sample (d : DacLine) (vals : List Iq) (n : Nat) : DacLine :=
  if d.cfg.mode = 2 then { d with zs := [] }
  else
    let z := d.cfg.lineSum vals
    let zs := (z.1 :: d.zs).take interpDepth
    if zs.any fun z => z != ⟨0, 0⟩ then
      { d with zs := zs, sat := satAdd 32 d.sat (ofBool z.2 + ((d.cfg.codes zs n).filter (·.2)).length) }
    else { d with zs := [] }

end Sys2Proof.Machine
end

