-- ==== Sys2Proof/Machine/Dma.lean ====
section
/-! DEFINITION. What a DMA channel does for the functions that bind it (02, R65, R66): a device stream that it carries to a
ring buffer in host memory, its binding and its end. -/
namespace Sys2Proof.Machine

/-- A pass of a channel is complete (R65, R66): it counts, DONE is set, and the vector is raised with IRQ_EN. -/
def State.dmaPass (s : State) (n : Nat) : State :=
  let s1 := s.onDma n fun d => { d with doneCount := (d.doneCount + 1) % 2 ^ 32, done := true, moved := 0 }
  if (s1.dmaCh n).irqEn then s1.raise (8 + n) else s1

/-- A channel ends with an error code (R66). -/
def State.dmaFail (s : State) (n code : Nat) : State :=
  let s1 := s.onDma n fun d => { d with busy := false, err := true, errCode := code }
  if (s1.dmaCh n).irqEn then s1.raise (8 + n) else s1

/-- Stream bytes written to the channel's host buffer, from its start again after each pass; the fuel bounds the number
of pieces. A channel that has been stopped carries nothing (R65, R66). -/
def State.dmaPush (s : State) (n : Nat) : Nat → List Byte → State
  | 0, _ => s
  | _ + 1, [] => s
  | k + 1, b :: bs =>
    let d := s.dmaCh n
    let room := d.length - d.moved
    if room = 0 || !d.busy then s
    else
      let now := (b :: bs).take room
      let s1 := (s.emit (.hostWrite (d.hostAddr + d.moved) now)).onDma n fun d => { d with moved := d.moved + now.length }
      let s2 := if room = now.length then s1.dmaPass n else s1
      s2.dmaPush n k ((b :: bs).drop room)

/-- A record is written whole, after the one before it; one that would pass the end of the host buffer completes the pass and is written at its
start (R254, R329). One that is longer than the buffer is not written. DESIGN CHOICE. -/
def State.dmaRecord (s : State) (n : Nat) (rec' : List Byte) : State :=
  let d := s.dmaCh n
  if !d.busy || decide (d.length < rec'.length) then s
  else (if d.length < d.moved + rec'.length then s.dmaPass n else s).dmaPush n 2 rec'

/-- A stream is bound to a channel, whose STREAM, DIR and CIRC bits the device sets (R65, R146). -/
def State.dmaBind (s : State) (n : Nat) (u : StreamUse) : State :=
  s.onDma n fun d => { d with stream := some u, dir := true, circ := true, busy := true, moved := 0 }

/-- A channel's binding ends. -/
def State.dmaUnbind (s : State) (n : Nat) : State := s.onDma n fun d => { d with stream := none, busy := false }

/-- The host interface can carry data: the device is not in ENDPAPER or off, and PERST_N is high. -/
def State.hostUp (s : State) : Bool := s.runs && s.hifUp

end Sys2Proof.Machine
end

