-- ==== Sys2Proof/Machine/LaneBase.lean ====
section
/-! DEFINITION. What a change of a port's lanes does at once, for the effects that are set for a frame boundary (09, R335) and for Thread (10,
R356). -/
namespace Sys2Proof.Machine

namespace Status
def noSpare : Nat := 0x1081
end Status

/-- An effect put into the list of those to come, after the ones with the same instant. -/
def insDelayed (d : Delayed) : List Delayed → List Delayed
  | [] => [d]
  | x :: t => if x.time ≤ d.time then x :: insDelayed d t else d :: x :: t

/-- The state with an effect set for an instant. -/
def State.delay (s : State) (t : Nat) (e : Effect) : State :=
  { s with delayed := insDelayed { time := t, eff := e } s.delayed }

/-! ### The sources of the device reference (R383) -/

def srcInt : Nat := 0
def srcEref : Nat := 1
def srcRec : Nat := 2
def srcHold : Nat := 3

/-- A new upstream port or master clears the estimates (R352). -/
def State.clearSet (s : State) (p : Nat) : State := s.onPort p fun x => { x with thetas := [], done := 0, exch := none }

/-- The timing lane of a port is another than it was before: on the upstream port that is a live switch, from REC to REC where that is selected
(R356, R388). A port that goes DOWN or comes up has no two lanes to switch between. -/
def State.timingMoved (s old : State) (p : Nat) : State :=
  match old.timingLane p, s.timingLane p with
  | some a, some b =>
    if a ≠ b ∧ s.link.tmu.up = some p then
      let s1 := (s.clearSet p).onLink fun l => { l with tmu := { l.tmu with tlaneChanged := true } }
      if s.clk.sel = srcRec ∧ !s.clk.lostSel then { s1 with clk := { s1.clk with switchTo := some srcRec } } else s1
    else s
  | _, _ => s

/-- The port of an array lane. -/
def lanePort (n : Nat) : Nat := (n - 72) / 5

/-! ### LANE_SWAP (R335) -/

/-- The lane is usable and ACTIVE. -/
def LaneSt.carries (l : LaneSt) : Bool := l.usable && l.active

/-- The usable SPARE of a lane's port. -/
def State.spareLane (s : State) (n : Nat) : Option Nat := (portLanes (lanePort n)).find? fun m => (s.lane m).usable && !(s.lane m).active

/-- What a lane was given last in the record of what has been sent goes out on another lane. -/
def relabel (n m : Nat) : Nat → List Out → List Out
  | 0, l => l
  | _, [] => []
  | k + 1, .line i cs :: l => if i = n then .line m cs :: relabel n m k l else .line i cs :: relabel n m (k + 1) l
  | k + 1, o :: l => o :: relabel n m (k + 1) l

/-- The frames that wait on a lane, and the brackets that have yet to open there, go to another lane, in their order. -/
def State.moveTx (s : State) (n m : Nat) : State :=
  let fs := (s.lane n).frames.filter fun f => f.kind == .frame && decide (s.now ≤ f.start)
  let ps := (s.lane n).pres.filter fun p => !p.skip && decide (s.now ≤ p.start)
  let s1 := s.onTx n fun l => { l with frames := l.frames.filter (fun f => !fs.contains f), pres := l.pres.filter fun p => !ps.contains p }
  let s2 := fs.foldl (fun a f => a.onTx m fun l => l.frame (a.charOf m) .frame (a.laneStart (lanePort n) m f.cs.length) f.cs) s1
  let s3 := ps.foldl (fun a p => a.onTx m fun l => l.openBracket (a.charOf m) (max p.start (a.bracketStart m none)) p.cs false p.cyc) s2
  { s3 with sent := relabel n m (fs.length + ps.length) s3.sent }

/-- The lane's traffic moves to the SPARE, and it becomes the SPARE itself. One that has failed meanwhile has been replaced already, if there
was a spare. None: no spare can take it. -/
def State.swapLane (s : State) (n : Nat) : Option State :=
  if (s.lane n).carries then
    (s.spareLane n).map fun m =>
      (((s.onLane n fun l => { l with active := false }).onLane m fun l => { l with active := true }).moveTx n m).timingMoved s (lanePort n)
  else match (s.lane n).left with
    | some (_, true) => some s
    | _ => none

/-- The frame boundary of a waiting LANE_SWAP has come, unless a bracket has pushed it back. -/
def State.swapDue (s : State) (n : Nat) : State :=
  let t := s.frameEdge n
  if (s.lane n).carries ∧ s.now < t then s.delay t (.laneSwap n)
  else match s.swapLane n with
    | some s1 => s1.resolve (wait .laneSwap n 0) []
    | none => s.failWait (wait .laneSwap n 0) (err Status.noSpare 0)

end Sys2Proof.Machine
end

