-- ==== Sys2Proof/Machine/StepWord.lean ====
section
/-! DEFINITION. Step words (03, R90 to R93): their fields, their 128-bit encoding and its reading, which refuses every
reserved operation, reserved bit and field out of range (R91). -/
namespace Sys2Proof.Machine

/-- The fields of one generator in a PLAY or ACQUIRE (R91). -/
structure GenWord where
  ctx : Nat
  rate : Nat
  env : Nat
  amp : Nat
  deriving DecidableEq, Repr

/-- The condition of a BRANCH (R93, R98). -/
inductive Cond where
  | event (ch : Nat)
  | result (folio field value : Nat)
  | flag (flag : Nat)
  | reg (reg cmp imm : Nat)
  deriving DecidableEq, Repr

/-- A step word (R90). -/
inductive StepWord where
  | halt
  | play (dur fine : Nat) (a b : GenWord) (mark : Bool)
  | hold (dur : Nat) (holdA holdB mark : Bool)
  | acquire (dur fine : Nat) (a : GenWord) (rset woff : Nat) (holdB mark : Bool)
  | waitUntil (wmode : Nat) (bnd : Bool) (pidx : Nat)
  | waitEvent (dur ch : Nat) (toHalt : Bool)
  | branch (cond : Cond) (neg ring : Bool) (target : Nat)
  | jump (ring : Bool) (target : Nat)
  | repeatBegin (count : Nat) (fromReg : Bool) (reg : Nat)
  | repeatEnd
  | setFrame (ctx : Nat) (reepoch : Bool) (pidx : Nat)
  | shiftPhase (ctx : Nat) (fromReg : Bool) (reg delta : Nat)
  | emitEvent (ch : Nat)
  deriving DecidableEq, Repr

/-- Generator A's fields at their places (R91). -/
def GenWord.encA (g : GenWord) : Nat := g.ctx * 2 ^ 34 + g.rate * 2 ^ 37 + g.env * 2 ^ 40 + g.amp * 2 ^ 59

/-- Generator B's fields at their places (R91). -/
def GenWord.encB (g : GenWord) : Nat := g.ctx * 2 ^ 77 + g.rate * 2 ^ 80 + g.env * 2 ^ 83 + g.amp * 2 ^ 102

/-- The condition's fields at their places (R93). -/
def Cond.enc : Cond → Nat
  | .event ch => ch * 2 ^ 20
  | .result f fl v => 1 * 2 ^ 4 + f * 2 ^ 20 + fl * 2 ^ 25 + v * 2 ^ 27
  | .flag n => 2 * 2 ^ 4 + n * 2 ^ 20
  | .reg r c i => 3 * 2 ^ 4 + r * 2 ^ 20 + c * 2 ^ 23 + i * 2 ^ 32

/-- The 128 bits of a step word (R90 to R93). -/
def StepWord.enc : StepWord → Nat
  | .halt => 0
  | .play d fi a b m => 1 + d * 2 ^ 4 + fi * 2 ^ 28 + a.encA + b.encB + ofBool m * 2 ^ 120
  | .hold d ha hb m => 2 + d * 2 ^ 4 + ofBool ha * 2 ^ 28 + ofBool hb * 2 ^ 29 + ofBool m * 2 ^ 120
  | .acquire d fi a rs wo hb m =>
    3 + d * 2 ^ 4 + fi * 2 ^ 28 + a.encA + rs * 2 ^ 77 + wo * 2 ^ 80 + ofBool hb * 2 ^ 96 + ofBool m * 2 ^ 120
  | .waitUntil w b p => 4 + w * 2 ^ 4 + ofBool b * 2 ^ 6 + p * 2 ^ 7
  | .waitEvent d c h => 5 + d * 2 ^ 4 + c * 2 ^ 28 + ofBool h * 2 ^ 36
  | .branch c n r t => 6 + c.enc + ofBool n * 2 ^ 6 + ofBool r * 2 ^ 7 + t * 2 ^ 8
  | .jump r t => 7 + ofBool r * 2 ^ 4 + t * 2 ^ 5
  | .repeatBegin c f r => 8 + c * 2 ^ 4 + ofBool f * 2 ^ 20 + r * 2 ^ 21
  | .repeatEnd => 9
  | .setFrame c e p => 10 + c * 2 ^ 4 + ofBool e * 2 ^ 7 + p * 2 ^ 8
  | .shiftPhase c f r d => 11 + c * 2 ^ 4 + ofBool f * 2 ^ 7 + r * 2 ^ 8 + d * 2 ^ 32
  | .emitEvent c => 12 + c * 2 ^ 4

/-- The fields of a generator are in their ranges (R91). -/
def GenWord.ok (g : GenWord) : Bool :=
  decide (g.ctx < 8) && decide (g.rate < 8) && decide (g.env < 524288) && decide (g.amp < 262144)

/-- The fields of a condition are in their ranges (R93). -/
def Cond.ok : Cond → Bool
  | .event ch => decide (ch < 256)
  | .result f fl v => decide (f < 32) && decide (fl < 3) && decide (v < 3)
  | .flag n => decide (n < 64)
  | .reg r c i => decide (r < 8) && decide (c < 7) && decide (i < 2 ^ 32)

/-- A duration (R91). -/
def durOk (d : Nat) : Bool := decide (1 ≤ d) && decide (d < 2 ^ 24)

/-- Every field of a step word is in its range (R91, R93). -/
def StepWord.ok : StepWord → Bool
  | .halt => true
  | .play d fi a b _ => durOk d && decide (fi < 64) && a.ok && b.ok
  | .hold d _ _ _ => durOk d
  | .acquire d fi a rs wo _ _ => durOk d && decide (fi < 64) && a.ok && decide (rs < 8) && decide (wo < 65536)
  | .waitUntil w _ p => decide (w < 3) && decide (p < 1024)
  | .waitEvent d c _ => durOk d && decide (c < 256)
  | .branch c _ r t => c.ok && decide (t < 2048) && (!r || t == 0)
  | .jump r t => decide (t < 2048) && (!r || t == 0)
  | .repeatBegin c f r => decide (c < 65536) && decide (r < 4) && (!f || c == 0)
  | .repeatEnd => true
  | .setFrame c _ p => decide (c < 8) && decide (p < 1024)
  | .shiftPhase c f r d => decide (c < 8) && decide (r < 4) && decide (d < 2 ^ 32) && (!f || d == 0)
  | .emitEvent c => decide (c < 256)

/-- Generator A's fields of a word. -/
def genA (w : Nat) : GenWord := { ctx := bits w 34 3, rate := bits w 37 3, env := bits w 40 19, amp := bits w 59 18 }

/-- Generator B's fields of a word. -/
def genB (w : Nat) : GenWord := { ctx := bits w 77 3, rate := bits w 80 3, env := bits w 83 19, amp := bits w 102 18 }

/-- The condition that a BRANCH word spells. -/
def condOf (w : Nat) : Cond :=
  match bits w 4 2 with
  | 0 => .event (bits w 20 8)
  | 1 => .result (bits w 20 5) (bits w 25 2) (bits w 27 2)
  | 2 => .flag (bits w 20 6)
  | _ => .reg (bits w 20 3) (bits w 23 3) (bits w 32 32)

/-- The step word whose operation and fields stand in a word, before reserved bits and ranges are looked at. -/
def stepFields (w : Nat) : Option StepWord :=
  match w % 16 with
  | 0 => some .halt
  | 1 => some (.play (bits w 4 24) (bits w 28 6) (genA w) (genB w) (bitOf w 120))
  | 2 => some (.hold (bits w 4 24) (bitOf w 28) (bitOf w 29) (bitOf w 120))
  | 3 => some (.acquire (bits w 4 24) (bits w 28 6) (genA w) (bits w 77 3) (bits w 80 16) (bitOf w 96) (bitOf w 120))
  | 4 => some (.waitUntil (bits w 4 2) (bitOf w 6) (bits w 7 10))
  | 5 => some (.waitEvent (bits w 4 24) (bits w 28 8) (bitOf w 36))
  | 6 => some (.branch (condOf w) (bitOf w 6) (bitOf w 7) (bits w 8 11))
  | 7 => some (.jump (bitOf w 4) (bits w 5 11))
  | 8 => some (.repeatBegin (bits w 4 16) (bitOf w 20) (bits w 21 2))
  | 9 => some .repeatEnd
  | 10 => some (.setFrame (bits w 4 3) (bitOf w 7) (bits w 8 10))
  | 11 => some (.shiftPhase (bits w 4 3) (bitOf w 7) (bits w 8 2) (bits w 32 32))
  | 12 => some (.emitEvent (bits w 4 8))
  | _ => none

/-- The step word that 128 bits spell, or none for a reserved operation, a nonzero reserved bit or a field out of range
(R91): a word is read only if it is the encoding of what is read. -/
def decodeStep (w : Nat) : Option StepWord :=
  match stepFields w with
  | none => none
  | some x => if x.ok && x.enc == w then some x else none

/-- Timed steps occupy output time (R90). -/
def StepWord.timed : StepWord → Bool
  | .play .. | .hold .. | .acquire .. | .waitUntil .. | .waitEvent .. => true
  | _ => false

/-- A generator of a step of `d` samples reads only inside the library (R84, R92). -/
def GenWord.envOk (g : GenWord) (d : Nat) : Bool :=
  g.amp == 0 || g.rate == 7 ||
    decide (g.env + ((d - 1) / 2 ^ g.rate + 1 + (if g.rate = 0 then 0 else 1)) ≤ 524288)

/-- The library reads of a step word stay inside the library (R92). -/
def StepWord.envOk : StepWord → Bool
  | .play d _ a b _ => a.envOk d && b.envOk d
  | .acquire d _ a _ _ _ _ => a.envOk d
  | _ => true

end Sys2Proof.Machine
end

