-- ==== Sys2Proof/Machine/Synth.lean ====
section
/-! DEFINITION. The tone generators (03, R79 to R92): phase from time, envelopes, the generator sample and the Quire
line sum; and how the state of a Folio is read and changed. -/
namespace Sys2Proof.Machine

/-! ### Reading and changing -/

/-- The synthesis part of a Quire. -/
def State.synq (s : State) (q : Nat) : SynQuire := tget .reset s.syn.quires q

/-- The state with the synthesis part of a Quire changed. -/
def State.onSynq (s : State) (q : Nat) (g : SynQuire → SynQuire) : State :=
  { s with syn := { s.syn with quires := tmod .reset s.syn.quires q g } }

/-- A Folio of a Quire's synthesis part. -/
def SynQuire.folio (sq : SynQuire) (f : Nat) : Folio := tget .reset sq.folios f

/-- A Folio. -/
def State.folio (s : State) (q f : Nat) : Folio := (s.synq q).folio f

/-- The state with a Folio changed. -/
def State.onFolio (s : State) (q f : Nat) (g : Folio → Folio) : State :=
  s.onSynq q fun sq => { sq with folios := tmod .reset sq.folios f g }

/-- A context of a Folio. -/
def Folio.ctx (fo : Folio) (c : Nat) : Ctx := tget .reset fo.ctxs c

/-- A Folio with a context changed. -/
def Folio.onCtx (fo : Folio) (c : Nat) (g : Ctx → Ctx) : Folio := { fo with ctxs := tmod .reset fo.ctxs c g }

/-- The value a register or flag had just before an instant: a change at the instant itself is not seen (R96). -/
def Hist.before (h : Hist) (t : Nat) : Nat :=
  match (h.old.filter fun e => decide (t ≤ e.1)).getLast? with
  | some (_, v) => v
  | none => h.val

/-- A register or flag written at an instant; the last eight changes are kept. -/
def Hist.set (h : Hist) (t v : Nat) : Hist := { val := v, old := ((t, h.val) :: h.old).take 8 }

/-! ### Time (R79) -/

/-- The first sample boundary at or after an instant (R79). -/
def sampleAt (t : Nat) : Nat := ceilDiv t uSample

/-- The sample that holds an instant (R79). -/
def sampleOf (t : Nat) : Nat := t / uSample

/-- The samples between issue and output (R80), and those of the look-ahead (R95) and the decision point (R96). -/
def lOut : Nat := 60
def ahead : Nat := 64
def dpLead : Nat := 72

/-! ### Generator arithmetic (R81, R84 to R86) -/

/-- The carrier phase at output sample `n` (R81): a function of the frame and of time alone. -/
def phaseAt (fw : BitVec 48) (phase : BitVec 32) (epoch : BitVec 48) (n : Nat) : BitVec 48 :=
  fw * (BitVec.ofNat 48 n - epoch) + (phase.setWidth 48) <<< 16

/-- A complex library sample (R84). -/
def libIq (w : Nat) : Iq := { i := toSigned 16 w, q := toSigned 16 (w / 65536) }

/-- What the library held at address `a` when the sample for output `n` was fetched, 64 samples before issue (R87). Beyond address 524,287, which a word from
the ring can reach, for SEQ_LOAD alone checks it (R92), there is nothing: 0 is read. DESIGN CHOICE. -/
def SynQuire.lib (sq : SynQuire) (a n : Nat) : Iq :=
  let t := (n - (lOut + ahead)) * uSample
  match (sq.envOld.filter fun e => e.addr == a && decide (t ≤ e.time)).getLast? with
  | some e => libIq e.old
  | none => libIq (tget 0 sq.env a)

/-- The first sample of a step that uses its envelope sample `m` (R84): with it the library is read, once (R87). -/
def firstUse (k m : Nat) : Nat := if k = 0 then m else (m - 1) * 2 ^ k

/-- The undelayed envelope e(i) of a step, for sample `i` of it (R84). -/
def envAt (sq : SynQuire) (g : Gen) (i : Nat) : Iq :=
  match g.env with
  | .silent => ⟨0, 0⟩
  | .flat => ⟨32767, 0⟩
  | .held v => v
  | .lib k a =>
    let m := i / 2 ^ k
    let r : Int := (i % 2 ^ k : Nat)
    let x := sq.lib (a + m) (g.start + firstUse k m)
    if k = 0 then x
    else
      let y := sq.lib (a + m + 1) (g.start + firstUse k (m + 1))
      let p : Int := (2 ^ k : Nat)
      ⟨roundDiv (x.i * p + (y.i - x.i) * r) (2 ^ k), roundDiv (x.q * p + (y.q - x.q) * r) (2 ^ k)⟩

/-- The delayed envelope e_d(i), for i from 0 to the step's duration (R86). -/
def envDelayed (sq : SynQuire) (g : Gen) (i : Nat) : Iq :=
  let cur : Iq := if i < g.dur then envAt sq g i else ⟨0, 0⟩
  if g.fine = 0 then cur
  else
    let old : Iq := if i = 0 then ⟨0, 0⟩ else envAt sq g (i - 1)
    let a : Int := (64 - g.fine : Nat)
    let b : Int := (g.fine : Nat)
    ⟨roundDiv (cur.i * a + old.i * b) 64, roundDiv (cur.q * a + old.q * b) 64⟩

/-- Clamps a component to ±32,767 and says whether it clamped (R85). -/
def sat16 (v : Int) : Int × Bool := (clampI (-32767) 32767 v, decide (v < -32767) || decide (32767 < v))

/-- The generator's output sample `n`, `i` samples into its step, and whether it saturated (R85). -/
def genValue (sq : SynQuire) (g : Gen) (i n : Nat) : Iq × Bool :=
  let e := envDelayed sq g i
  let c := cis (BitVec.ofNat 20 ((phaseAt g.fw g.phase g.epoch n).toNat / 2 ^ 28))
  let k : Int := (g.amp * g.ascale : Nat)
  let yi := sat16 (roundDiv ((e.i * c.1 - e.q * c.2) * k) (2 ^ 52))
  let yq := sat16 (roundDiv ((e.i * c.2 + e.q * c.1) * k) (2 ^ 52))
  (⟨yi.1, yq.1⟩, yi.2 || yq.2)

/-- A generator outputs zero for its whole step (R85, R89). -/
def Gen.mute (sq : SynQuire) (g : Gen) : Bool :=
  g.env == .silent || g.amp == 0 || g.line == 0xFF || !(sq.lines.any fun l => l.line == g.line)

/-- The generator's part in output sample `n` (R85, R86): its line, its value, how often it saturated and whether it is
a tone sample (R114). The sum with the spill sample goes to the line of the step that begins, to the spill's own where that step is silent: DESIGN
CHOICE, for the spec names no line. -/
def genSample (sq : SynQuire) (g : Gen) (n : Nat) : Nat × Iq × Nat × Bool :=
  let inStep := decide (g.start ≤ n) && decide (n < g.start + g.dur)
  let own : Iq × Bool := if inStep && !g.mute sq then genValue sq g (n - g.start) n else (⟨0, 0⟩, false)
  let tone := inStep && g.amp != 0 && g.env != .silent
  match g.spill with
  | some (v, line, sat) =>
    if n = g.start then
      let a := sat16 (own.1.i + v.i)
      let b := sat16 (own.1.q + v.q)
      (if g.env == .silent then line else g.line, ⟨a.1, b.1⟩, ofBool own.2 + ofBool sat + ofBool (a.2 || b.2), tone)
    else (g.line, own.1, ofBool own.2, tone)
  | none => (g.line, own.1, ofBool own.2, tone)

/-- The spill sample of a step that ends at sample `n`, with the line it belongs to and whether it saturated (R86). -/
def Gen.spillAt (sq : SynQuire) (g : Gen) (n : Nat) : Option (Iq × Nat × Bool) :=
  if g.fine = 0 || g.mute sq || g.start + g.dur ≠ n || g.dur = 0 then none
  else
    let v := genValue sq g g.dur n
    some (v.1, g.line, v.2)

/-- A silent step of a generator that begins at sample `n`, after `g`. -/
def Gen.silence (sq : SynQuire) (g : Gen) (n : Nat) : Gen := { Gen.reset with start := n, spill := g.spillAt sq n }

/-- A generator that a halt makes zero from sample `n` on: nothing spills (R95, R593). -/
def Gen.stop (n : Nat) : Gen := { Gen.reset with start := n }

/-- A generator's step of PLAY or ACQUIRE: it reads its frame at the start (R91, R95). -/
def Gen.play (sq : SynQuire) (g : Gen) (fo : Folio) (isB : Bool) (w : GenWord) (fine n dur : Nat) : Gen :=
  let c := fo.ctx w.ctx
  { env := if w.rate = 7 then .flat else .lib w.rate w.env, start := n, dur := dur, fw := c.fw, phase := c.phase,
    epoch := c.epoch, ascale := c.ascale, line := if isB then c.lineB else c.lineA, amp := w.amp, fine := fine,
    ctx := w.ctx, spill := g.spillAt sq n }

/-- A generator's step of HOLD: the last envelope value, with the frame its context has at the start (R90, R95). A
generator that was silent stays silent. -/
def Gen.holdOn (sq : SynQuire) (g : Gen) (fo : Folio) (isB : Bool) (n dur : Nat) : Gen :=
  if g.env == .silent || g.dur = 0 then g.silence sq n
  else
    let c := fo.ctx g.ctx
    { g with env := .held (envAt sq g (g.dur - 1)), start := n, dur := dur, fw := c.fw, phase := c.phase,
             epoch := c.epoch, ascale := c.ascale, line := if isB then c.lineB else c.lineA, fine := 0,
             spill := g.spillAt sq n }

/-- A generator cut at sample `n` by a halt; the samples before it keep their delay (R593). -/
def Gen.cutAt (g : Gen) (n : Nat) : Gen :=
  if n ≤ g.start then { g with dur := 0, env := .silent, spill := none } else { g with dur := min g.dur (n - g.start) }

/-- A generator still has samples to form from sample `n` on. -/
def Gen.live (g : Gen) (n : Nat) : Bool :=
  (g.env != .silent && decide (n < g.start + g.dur)) || (g.spill.isSome && decide (n ≤ g.start))

/-! ### The Quire line sum (R88) -/

/-- The line sum of one declared line: shifted, rounded and clamped. -/
def lineSum (vals : List (Nat × Iq)) (l : SynLine) : Iq × Bool :=
  let own := vals.filter fun v => v.1 == l.line
  let si := own.foldl (fun a v => a + v.2.i) 0
  let sq := own.foldl (fun a v => a + v.2.q) 0
  let a := sat16 (roundDiv si (2 ^ l.shift))
  let b := sat16 (roundDiv sq (2 ^ l.shift))
  (⟨a.1, b.1⟩, a.2 || b.2)

/-- One output sample of a Quire: its saturation counters and its count of tone samples advance (R85, R88, R114). -/
def SynQuire.sample (sq : SynQuire) (n : Nat) : SynQuire :=
  let each := sq.folios.map fun (f, fo) => (f, fo, genSample sq fo.genA n, genSample sq fo.genB n)
  let vals := each.flatMap fun (_, _, a, b) => [(a.1, a.2.1), (b.1, b.2.1)]
  let fos := each.map fun (f, fo, a, b) => (f, { fo with satCount := satAdd 32 fo.satCount (a.2.2.1 + b.2.2.1) })
  let tones := each.foldl (fun t (_, _, a, b) => t + ofBool a.2.2.2 + ofBool b.2.2.2) 0
  let sums := sq.lines.map fun l => (l, lineSum vals l)
  { sq with folios := fos, lines := sums.map (fun (l, v) => { l with sat := satAdd 32 l.sat (ofBool v.2), val := v.1 }),
            tones := (sq.tones + tones) % 2 ^ 64 }

/-- A Quire of which no generator plays: every line sum is zero. -/
def SynQuire.quiet (sq : SynQuire) : SynQuire := { sq with lines := sq.lines.map fun l => { l with val := ⟨0, 0⟩ } }

/-- Some generator of the Quire still has samples to form from sample `n` on. -/
def SynQuire.live (sq : SynQuire) (n : Nat) : Bool := sq.folios.any fun (_, fo) => fo.genA.live n || fo.genB.live n

end Sys2Proof.Machine
end

