-- ==== Sys2Proof/Machine/Engine.lean ====
section
/-! DEFINITION. Device time passing: the samples that are formed on the way (R79, R85), and the effects that were set for
an instant (R114, R137, R181 and the like) in the order of their instants. -/
namespace Sys2Proof.Machine

/-! ### Read-out and feedback: reading and changing -/

/-- The read-out of a Quire. -/
def State.roq (s : State) (q : Nat) : RoQuire := tget (.reset q) s.ro q
/-- The state with the read-out of a Quire changed. -/
def State.onRo (s : State) (q : Nat) (g : RoQuire → RoQuire) : State := { s with ro := tmod (.reset q) s.ro q g }
/-- The lines that a Quire receives, now or by a change that waits. -/
def RoQuire.lines (r : RoQuire) : List Nat :=
  [r.slot0, r.slot1] ++ match r.pendRoute with | some (a, b) => [a, b] | none => []

/-- The Quires other than `q` that receive an ADC line (R16). -/
def State.lineQuires (s : State) (q line : Nat) : Nat :=
  ((List.range 16).filter fun k => k != q && (s.roq k).lines.contains line).length

/-- A demodulator. -/
def RoQuire.demod (r : RoQuire) (f : Nat) : Demod := tget .reset r.demods f
def State.demod (s : State) (q f : Nat) : Demod := (s.roq q).demod f
/-- The state with a demodulator changed. -/
def State.onDemod (s : State) (q f : Nat) (g : Demod → Demod) : State :=
  s.onRo q fun r => { r with demods := tmod .reset r.demods f g }

/-- The feedback part of a Quire. -/
def State.fbq (s : State) (q : Nat) : FbQuire := tget .reset s.fb q
/-- The state with the feedback part of a Quire changed. -/
def State.onFb (s : State) (q : Nat) (g : FbQuire → FbQuire) : State := { s with fb := tmod .reset s.fb q g }
/-- A core. -/
def State.core (s : State) (q k : Nat) : FbCore := tget .reset (s.fbq q).cores k
/-- The state with a core changed. -/
def State.onCore (s : State) (q k : Nat) (g : FbCore → FbCore) : State :=
  s.onFb q fun b => { b with cores := tmod .reset b.cores k g }
/-- A condition flag of a Quire. -/
def FbQuire.flag (b : FbQuire) (n : Nat) : Hist := tget ⟨0, []⟩ b.flags n
/-- A route entry of a Quire. -/
def FbQuire.route (b : FbQuire) (n : Nat) : FbRoute := tget .reset b.routes n

/-- The cycle that holds an instant, and the first cycle at or after it (R162). -/
def cycleOf (t : Nat) : Nat := t / uCycle
def cycleAt (t : Nat) : Nat := ceilDiv t uCycle

/-- The condition flags of a Quire with those of `mask` set to the bits of `value` at an instant. -/
def FbQuire.writeFlags (b : FbQuire) (t : Nat) (mask value : BitVec 64) : FbQuire :=
  (List.range 64).foldl (fun b n =>
    if mask.getLsbD n then { b with flags := tmod ⟨0, []⟩ b.flags n fun h => h.set t (ofBool (value.getLsbD n)) }
    else b) b

/-! ### Forming samples -/

/-- The DAC lines that form an output sample: those that some Quire declares, and those whose interpolator has not run out. -/
def sounding (qs : List (Nat × SynQuire)) (ds : List (Nat × DacLine)) : List Nat :=
  (List.range 40).filter fun n => (qs.any fun e => e.2.lines.any fun l => l.line == n) || !(tget DacLine.reset ds n).zs.isEmpty

/-- The DAC lines after output sample `n` of the Quires' line streams (R276). -/
def dacSamples (qs : List (Nat × SynQuire)) (n : Nat) (ds : List (Nat × DacLine)) : List (Nat × DacLine) :=
  (sounding qs ds).foldl (fun ds l => tmod .reset ds l fun d =>
    d.sample ((qs.flatMap fun e => e.2.lines.filter fun x => x.line == l).map (·.val)) n) ds

/-- Output samples from `n` on, as long as some generator plays or some interpolator holds a signal (R85 to R88, R276). -/
def synLoop : Nat → Nat → List (Nat × SynQuire) → List (Nat × DacLine) → List (Nat × SynQuire) × List (Nat × DacLine)
  | 0, _, qs, ds => (qs, ds)
  | k + 1, n, qs, ds =>
    if (qs.any fun (_, sq) => sq.live n) || ds.any fun (_, d) => !d.zs.isEmpty then
      let qs' := qs.map fun (q, sq) => (q, sq.sample n)
      synLoop k (n + 1) qs' (dacSamples qs' n ds)
    else (qs.map fun (q, sq) => (q, sq.quiet), ds)

/-- The state with every output sample formed that begins before an instant. -/
def State.formTo (s : State) (t : Nat) : State :=
  let n := sampleAt t
  if n ≤ s.syn.formed then s
  else
    let r := synLoop (n - s.syn.formed) s.syn.formed s.syn.quires s.rf.dacs
    { s with syn := { quires := r.1, formed := n }, rf := { s.rf with dacs := r.2 } }

/-! ### Halting a Folio -/

/-- A Folio that plays a program (R113). -/
def Folio.busy (fo : Folio) : Bool := fo.st == .running || fo.st == .waiting || fo.st == .late

/-- Some Folio of a Quire plays a program. -/
def State.folioBusy (s : State) (q : Nat) : Bool := (s.synq q).folios.any fun (_, fo) => fo.busy

/-- A halt cause that acts at the next boundary, unless one stands already. -/
def Folio.toHalt (fo : Folio) (cause : Nat) : Folio :=
  { fo with pendHalt := match fo.pendHalt with | some c => some c | none => some cause }

/-- The Folio goes on at the next word: a static path must not pass RING_BASE − 1 (R108). -/
def Folio.advance (fo : Folio) : Folio :=
  if fo.inRing then { fo with pc := fo.pc + 1, rr := { fo.rr with next := fo.rr.next + 1 } }
  else
    let fo1 := { fo with pc := fo.pc + 1 }
    if fo.ring.base ≤ fo.pc + 1 then fo1.toHalt 9 else fo1

/-- A trigger whose arrival sample was issued as output sample `a`. Waiting: it starts the step 16 samples later.
Otherwise it is latched once, or dropped; so is one that comes between the accepted trigger and the step's start (DESIGN CHOICE: the spec does not say
whether the Folio still waits then). -/
def Folio.trigger (fo : Folio) (a : Nat) : Folio :=
  match fo.wait with
  | some (.trig b e none) =>
    if b ≤ a && decide (a < e) then { fo with wait := some (.trig b e (some (a + 16))) }
    else if fo.latch.isNone then { fo with latch := some a } else { fo with earlyDrop := inc32 fo.earlyDrop }
  | _ => if fo.latch.isNone then { fo with latch := some a } else { fo with earlyDrop := inc32 fo.earlyDrop }

/-- A Folio after a halt from output sample `c` on (R593). What it issues before goes on: the steps whose boundary lies before `c`, those that a wait is
known to end at among them, are still to be begun, cut at `c`; one that was ARMED or LATE, or waits for its trigger, issues none. Triggers that were too
near a boundary to be judged are latched or dropped (R102). -/
def Folio.haltIssue (fo : Folio) (c cause : Nat) : Folio :=
  let y := { fo with st := .halted, haltCause := cause, past := if fo.busy then fo.wait.isSome else fo.past, wait := none, pendHalt := none,
                     pendLate := none, stop0 := none, trigQ := [], cut := if fo.st = .halted then fo.cut else none,
                     genA := fo.genA.cutAt c, genB := fo.genB.cutAt c }
  let z := match fo.st, fo.wait with
    | .running, _ => { y with cut := some c }
    | .waiting, some (.until n _) => if n < c then { y.advance with boundary := n, cut := some c, past := false } else y
    | .waiting, some (.trig _ _ (some n)) => if n < c then { y with boundary := n, cut := some c } else y
    | _, _ => y
  fo.trigQ.foldl Folio.trigger z

/-- A Folio halts at an instant that is no step boundary (R593): it issues zero from the first sample issued at or after
now, so its output ends 60 samples later; the HALT channel fires (R107). -/
def State.haltNow (s : State) (q f cause : Nat) : State :=
  (s.onFolio q f fun fo => fo.haltIssue (sampleAt s.now + lOut) cause).fireObj (s.folio q f).cfg.evHalt (folioId q f)

/-! ### Effects that were set for an instant -/

/-- The context fields that a CTX_SET mask names (R117). -/
def Ctx.merge (c : Ctx) (mask : Nat) (to' : Ctx) : Ctx :=
  { fw := if bitOf mask 0 then to'.fw else c.fw, phase := if bitOf mask 1 then to'.phase else c.phase,
    ascale := if bitOf mask 2 then to'.ascale else c.ascale, lineA := if bitOf mask 3 then to'.lineA else c.lineA,
    lineB := if bitOf mask 4 then to'.lineB else c.lineB, epoch := if bitOf mask 5 then to'.epoch else c.epoch }

/-- A core after FB_START (R198): empty stacks; with CLEAR the registers, FIFOs, latches and counters too. -/
def FbCore.start (c : FbCore) (bank entry : Nat) (clear : Bool) (cycle : Nat) : FbCore :=
  let c1 := if clear then
      { FbCore.reset with xmem := c.xmem, ymem := c.ymem, bank0 := c.bank0, bank1 := c.bank1, cfg := c.cfg }
    else c
  { c1 with active := bank == 1, pc := entry, st := .running, cause := 0, next := cycle, wait := none, calls := [],
            reps := [], swap := c.swap, stopSafe := false, issued := 0, safeSt := 0 }

/-- A feedback frame reaches LGA and joins a port's pre-emptive queue, or is lost (R187, R316). -/
def State.fbLeave (s : State) (q k n port addr : Nat) (payload : List Byte) : State :=
  let one := fun (a : State) (g : FbRoute → FbRoute) => a.onFb q fun b => { b with routes := tmod .reset b.routes n g }
  match s.sendPre (port - 1) 2 addr s.dev.addr 0 payload with
  | some (s1, _, _) => one s1 fun r => { r with sent := inc32 r.sent }
  | none => (one s fun r => { r with lost := inc32 r.lost }).fireObj (s.core q k).cfg.alarm (coreId q k)

/-- A FEEDBACK frame relayed from another port enters this port's transmit queue (R188). -/
def State.fbRelayed (s : State) (port dest src hops : Nat) (payload : List Byte) : State :=
  match s.sendPre port 2 dest src hops payload with
  | some (s1, _, _) => s1
  | none => s.countPort port .relayDrop

/-- A record of the host stream (R146). -/
def RoRecord.bytes (r : RoRecord) (q : Nat) : List Byte :=
  leBytes 8 r.word ++ leBytes 6 r.wstart ++ leBytes 1 q ++ leBytes 1 (min r.drops 255) ++
    leBytes 8 (ofSigned 64 r.ai) ++ leBytes 8 (ofSigned 64 r.aq)

/-- The oldest `k` records of the staging queue go to the host buffer of the bound channel. -/
def State.roPush (s : State) (q k : Nat) : State :=
  match (s.roq q).channel with
  | none => s
  | some n =>
    if !(s.dmaCh n).busy then s
    else
      let bs := ((s.roq q).queue.take k).flatMap fun r => r.bytes q
      (s.dmaPush n (bs.length + 1) bs).onRo q fun r => { r with queue := r.queue.drop k }

/-- The records in the staging queue, the arrivals of earlier cycles, go to the host buffer while a channel is bound and the host can be reached
(R146). -/
def State.roDrain (s : State) (q : Nat) : State :=
  if s.hostUp then s.roPush q ((s.roq q).queue.takeWhile fun r => decide (r.cycle < cycleAt s.now)).length else s

/-- The effect `e` comes about at the present instant. -/
def State.apply (s : State) (e : Effect) : State :=
  match e with
  | .ctxSet q f c mask to' => s.onFolio q f fun fo => fo.onCtx c fun x => x.merge mask to'
  | .ctxShift q f c delta => s.onFolio q f fun fo => fo.onCtx c fun x => { x with phase := x.phase + delta }
  | .seqStop q f => if (s.folio q f).busy then s.haltNow q f 2 else s
  | .rset q f n to' => s.onDemod q f fun d => { d with sets := tmod .reset d.sets n fun x => { to' with disc := x.disc } }
  | .disc q f n to' => s.onDemod q f fun d => { d with sets := tmod .reset d.sets n fun x => { x with disc := to' } }
  | .flags q mask value => s.onFb q fun b => b.writeFlags s.now mask value
  | .evout q k ch => s.fireObj ch (coreId q k)
  | .coreStart q k bank entry clear =>
    if s.pers q = .control then s.onCore q k fun c => c.start bank entry clear (cycleAt s.now) else s
  | .route q n to' =>
    s.onFb q fun b => { b with routes := tmod .reset b.routes n fun r =>
      { to' with fseq := r.fseq, sent := r.sent, lost := r.lost } }
  | .owners q to' => s.onFb q fun b => { b with owners := to' }
  | .dac n mask to' => s.onDac n fun d => d.set mask to' s.now
  | .adc n mask to' => s.onAdc n fun a => a.set mask to' s.now
  | .adcBound n => match (s.adc n).pend with
    | some (mask, to') => (s.onAdc n fun a => { a.set mask to' s.now with pend := none }).resolve { kind := .adcLine, a := n, b := 0 } []
    | none => s
  | .unmute mask => match s.pinDue.unmuteNow mask with
    | (s1, none) => s1.unmuteDone mask
    | (s1, some t) => s1.delay (tickAt t) (.unmuteEnd mask)
  | .unmuteEnd mask => (s.pinDue.unmuteSettled mask).unmuteDone mask
  | .roDrain q => s.roDrain q
  | .mutePin low => s.mutePin low
  | .laneSwap n => s.swapDue n
  | .settle w => s.resolve w []
  | .fbOut q k n port addr payload => s.fbLeave q k n port addr payload
  | .fbRelay port dest src hops payload => s.fbRelayed port dest src hops payload

/-- The state with its clocks changed. -/
def State.onClk (s : State) (g : Clk → Clk) : State := { s with clk := g s.clk }

/-- The decimated samples between two instants at which weave or a covariance run of a Quire works (R149, R151). -/
def State.weaveWork (s : State) (q : Nat) (r : RoQuire) (a b : Nat) : Nat :=
  let n := b / (8 * uSample) - a / (8 * uSample)
  let p := (lget (.reset q) s.dev.qbind q).pers
  if p != .control && p != .service then 0
  else if p == .control && r.weave.enable && s.clk.pinned.contains q then n
  else match r.covar with
    | some c => min (b / (8 * uSample)) (ceilDiv c.start 8 + c.nsamp) - max (a / (8 * uSample)) (ceilDiv c.start 8)
    | none => 0

/-- Their cell-ops: 1,024 cells for each, in six passes for weave and in four for a covariance run (R149, R151, R406). -/
def State.weaveCount (s : State) (t : Nat) : State :=
  s.ro.foldl (fun (x : State) e =>
    let n := (if e.2.weave.enable then 6144 else 4096) * x.weaveWork e.1 e.2 s.now t
    if n = 0 then x
    else x.onClk fun c => { c with cellops := (c.cellops + n) % 2 ^ 64, qcells := tmod 0 c.qcells e.1 fun v => (v + n) % 2 ^ 64 }) s

/-- Device time set to an instant that is not before now, the samples before it formed. -/
def State.moveTo (s : State) (t : Nat) : State := { (s.weaveCount t).formTo t with now := max s.now t }

/-- The effects due by an instant come about, one after the other, each at its own instant; an effect can set one more for later. -/
def runEffects (t : Nat) : Nat → State → State
  | 0, s => s
  | n + 1, s => match s.delayed with
    | [] => s
    | d :: ds => if d.time ≤ t then runEffects t n (({ s with delayed := ds }.moveTo d.time).apply d.eff) else s

/-- Device time passes to an instant (or stays, where it is past it): the effects due by then have come about. It stands still between the loss of the
selected reference and the forced release, which adds what has passed (R390). -/
def State.advanceTo (s : State) (t : Nat) : State := if s.clk.lostSel then s else (runEffects t (2 * s.delayed.length) s).moveTo t

/-- A decision point sees a condition flag as it stood a cycle earlier (R181). -/
def State.flagAt (s : State) (q n t : Nat) : Nat := ((s.fbq q).flag n).before (t + 1 - uCycle)

/-- What passes where no command waits: device time reaches the next coarse tick (R342); with VAUX lost nothing happens. -/
def State.idle (s : State) : State := if s.dev.st == .off then s else s.advanceTo (tickAfter s.now)

end Sys2Proof.Machine
end

