-- ==== Sys2Proof/Machine/Intake.lean ====
section
/-! DEFINITION. Intake and the channelisers (06): frames, staging, the filter bank, the requantiser, the corner-turn region
and its blocks. -/
namespace Sys2Proof.Machine

/-! ### Reading and changing -/

def State.onPlans (s : State) (g : Plans → Plans) : State := { s with plans := g s.plans }
def State.input (s : State) (i : Nat) : Input := tget .reset s.plans.inputs i
def State.onInput (s : State) (i : Nat) (g : Input → Input) : State :=
  s.onPlans fun p => { p with inputs := tmod .reset p.inputs i g }
def State.chanl (s : State) (q : Nat) : Chan := tget .reset s.plans.chans q
def State.onChan (s : State) (q : Nat) (g : Chan → Chan) : State :=
  s.onPlans fun p => { p with chans := tmod .reset p.chans q g }
def State.ct (s : State) : Ct := s.plans.ct
def State.onCt (s : State) (g : Ct → Ct) : State := s.onPlans fun p => { p with ct := g p.ct }
def State.laneStat (s : State) (l : Nat) (g : LaneStats → LaneStats) : State :=
  s.onPlans fun p => { p with lanes := tmod .reset p.lanes l g }

/-- The plan that has not stopped: it waits for its start, runs, or is stopping. -/
def PlanRun.active (r : PlanRun) : Bool := r.st == .pending || r.st == .running || r.st == .stopping

/-- The inputs of a channeliser. -/
def ChanCfg.has (c : ChanCfg) (i : Nat) : Bool := decide (c.base ≤ i) && decide (i < c.base + c.count)

/-- The Quire whose channeliser has an input in its range (R216). -/
def State.inputQuire (s : State) (i : Nat) : Option Nat :=
  (List.range 16).find? fun q => match (s.chanl q).cfg with | some c => c.has i | none => false

/-- A Quire's channeliser is one of a plan's: the Quire is in CORRELATE or BEAMFORM, or has left it and the rows of its last block are not all written
(R265), and its range lies in the row of the corner turn (R223). -/
def State.chanPlans (s : State) (q : Nat) : Bool :=
  (s.pers q == .correlate || s.pers q == .beamform || (s.chanl q).until'.isSome) && match (s.chanl q).cfg, s.ct.cfg with
    | some c, some k => decide (c.base + c.count ≤ k.npad)
    | _, _ => false

/-- A Quire's channeliser runs: it is a plan's, and a plan is active (R207, R226). -/
def State.chanRuns (s : State) (q : Nat) : Bool := s.chanPlans q && (s.plans.corr.run.active || s.plans.beam.run.active)

/-- An input lies in the range of a channeliser that runs. -/
def State.inputRuns (s : State) (i : Nat) : Bool :=
  match s.inputQuire i with | some q => s.chanRuns q | none => false

/-! ### Sample times (R208, R218) -/

/-- Bytes of a channelised sample. -/
def fmtBytes (format : Nat) : Nat := if format = 1 then 2 else 1

/-- Device time of sample `n` of a source, in units. -/
def SrcCfg.timeOf (c : SrcCfg) (n : Nat) : Nat := (n * c.div + c.goff) * uSample / c.mul

/-- The sample number of a time on the source's grid (R209): none where it lies off the grid. -/
def SrcCfg.sampleOf (c : SrcCfg) (t : Nat) : Option Int :=
  let num : Int := (t * c.mul : Nat) - (c.goff * uSample : Nat)
  let den := c.div * uSample
  let n := roundDiv num den
  let resid := num - n * (den : Int)
  if den < 8 * resid.natAbs then Option.none else some n

/-- The transform size of a channeliser, 1 in BYPASS. -/
def ChanCfg.p (c : ChanCfg) : Nat := if c.bypass then 1 else 2 ^ c.log2p

/-- The clock of the channel samples that a source gives through a channeliser (R218). -/
def planClk (c : ChanCfg) (x : SrcCfg) : PlanClk := { per := c.p * x.div, goff := x.goff, mul := x.mul }

/-- The label of channel sample `j`. -/
def PlanClk.label (k : PlanClk) (j : Nat) : Nat := (j * k.per + k.goff) * uSample / k.mul

/-! ### Frames (R204 to R212) -/

/-- The fields of a frame header are in their ranges (R204), for a frame of `n` payload bytes. -/
def frameHeaderOk (h : List Byte) (n : Nat) : Bool :=
  let f := u h 1 1
  let chanl := decide (f ≤ 1)
  let nch := u h 6 2
  let pl := u h 24 2
  u h 0 1 == 1 && decide (f ≤ 3) && decide (u h 2 2 < 4096) && (dtOf (slice h 8 12)).isSome && pl == n &&
    decide (4 ≤ pl) && decide (pl ≤ 4096) && pl % 4 == 0 && (f != 3 || pl % 12 == 0) &&
    (if chanl then decide (u h 4 2 ≤ 16383) && decide (1 ≤ nch) && decide (u h 4 2 + nch ≤ 16384) &&
        pl % (nch * fmtBytes f) == 0
     else u h 4 2 == 0 && nch == 0)

/-- The samples of a payload (R206): for channelised formats one list of complex values a row, for raw formats one value
a sample. -/
def payloadRows (f nchan : Nat) (p : List Byte) : List (List Iq) :=
  match f with
  | 0 => (List.range (p.length / nchan)).map fun r => (List.range nchan).map fun c =>
      let b := u p (r * nchan + c) 1
      ⟨toSigned 4 b, toSigned 4 (b / 16)⟩
  | 1 => (List.range (p.length / (2 * nchan))).map fun r => (List.range nchan).map fun c =>
      ⟨toSigned 8 (u p (2 * (r * nchan + c)) 1), toSigned 8 (u p (2 * (r * nchan + c) + 1) 1)⟩
  | 2 => p.map fun b => [⟨toSigned 8 b.toNat, 0⟩]
  | _ => (List.range (p.length / 3)).flatMap fun g =>
      let v := u p (3 * g) 3
      [[⟨toSigned 12 v, 0⟩], [⟨toSigned 12 (v / 4096), 0⟩]]

/-- The input to which a source ID is bound. -/
def State.boundInput (s : State) (source : Nat) : Option Nat :=
  (s.plans.inputs.find? fun e => e.2.src.kind == 1 && e.2.src.source == source).map (·.1)

/-- Why a lane drops a frame (R207). -/
inductive FrameDrop where
  | format | crc | unknown | mismatch | idle
  deriving DecidableEq, Repr

/-- The checks of R207 in their order: the input that takes the frame, or the reason it is dropped. -/
def State.frameCheck (s : State) (lane : Nat) (whole : Bool) (bytes : List Byte) : Except FrameDrop Nat :=
  let n := bytes.length - 36
  if !whole || decide (bytes.length < 40) || decide (4132 < bytes.length) || !frameHeaderOk bytes n then .error .format
  else if u bytes (32 + n) 4 ≠ (crc32c (bytes.take (32 + n))).toNat then .error .crc
  else
    match s.boundInput (u bytes 2 2) with
    | none => .error .unknown
    | some i =>
      let c := (s.input i).src
      let f := u bytes 1 1
      if c.line ≠ lane ∨ c.format ≠ f ∨
          (f ≤ 1 ∧ (u bytes 4 2 < c.first ∨ c.first + c.nchan < u bytes 4 2 + u bytes 6 2)) then .error .mismatch
      else if !s.inputRuns i then .error .idle
      else .ok i

/-- The input holds one of `len` channels from `first` on of sample `n` (R212). -/
def Input.holds (x : Input) (n first len : Nat) : Bool :=
  (tget [] x.staged n).any fun v => decide (v.first < first + len) && decide (first < v.first + v.vals.length)

/-- The alignment latency in units (R212). -/
def Ct.alignTime (c : Ct) : Nat := match c.cfg with | some k => k.align * uUs | none => 0

/-- The DELAY and FRAC in force for a label (R215). -/
def Input.delayAt (x : Input) (label : Nat) : Nat × Nat :=
  x.pend.foldl (fun d p => if p.time ≤ label then (p.delay, p.frac) else d) (x.delay, x.frac)

/-- An accepted frame's samples are staged, or the frame is dropped whole for its time (R209, R212). -/
def State.stageFrame (s : State) (i : Nat) (bytes : List Byte) : State :=
  let x := s.input i
  let c := x.src
  let f := u bytes 1 1
  let t := (dtOf (slice bytes 8 12)).getD 0
  match c.sampleOf t with
  | none => s.onInput i fun x => { x with offgrid := inc32 x.offgrid }
  | some n =>
    let rows := payloadRows f (u bytes 6 2) (slice bytes 32 (bytes.length - 36))
    let plan := n + ((x.delayAt t).1 : Int)
    let due := c.timeOf plan.toNat + s.ct.alignTime
    if n < 0 ∨ plan < 0 ∨ due < s.now then s.onInput i fun x => { x with lateFrame := inc32 x.lateFrame }
    else if s.now + 100 * uUs < t then s.onInput i fun x => { x with earlyFrame := inc32 x.earlyFrame }
    else if (List.range rows.length).any fun k => x.holds (n.toNat + k) (u bytes 4 2) (lget [] rows k).length then s.onInput i fun x => { x with dup := inc32 x.dup }
    else
      let fl := bitOf (u bytes 26 1) 0
      s.onInput i fun x =>
        { x with frames := inc32 x.frames,
                 staged := (List.range rows.length).foldl (fun st k =>
                   tmod [] st (n.toNat + k) fun l => l ++ [{ vals := lget [] rows k, flagged := fl, first := u bytes 4 2 }]) x.staged }

/-- INTAKE_FRAME: a frame has been received on a lane (R207). `whole` says that its characters were well formed; `bytes`
are the characters between K27.7 and K29.7. -/
def execIntakeFrame (lane : Fin 72) (whole : Bool) (bytes : List Byte) (s : State) : Host.Outcome State Fault Refusal :=
  if (s.lane lane).st ≠ .up then .next s
  else match s.frameCheck lane whole bytes with
  | .error .format => .next (s.laneStat lane fun l => { l with formatErr := inc32 l.formatErr })
  | .error .crc => .next (s.laneStat lane fun l => { l with crcErr := inc32 l.crcErr })
  | .error .unknown => .next (s.laneStat lane fun l => { l with unknownSrc := inc32 l.unknownSrc })
  | .error .mismatch => .next (s.laneStat lane fun l => { l with mismatch := inc32 l.mismatch })
  | .error .idle => .next (s.laneStat lane fun l => { l with idleDrop := inc32 l.idleDrop })
  | .ok i =>
    let q := u bytes 20 4
    let gap := match (s.input i).seq with | some p => decide (q ≠ (p + 1) % 2 ^ 32) | none => false
    let s1 := s.laneStat lane fun l =>
      { l with framesOk := inc32 l.framesOk, seqGap := if gap then inc32 l.seqGap else l.seqGap }
    .next ((s1.onInput i fun x => { x with seq := some q }).stageFrame i bytes)

/-! ### The channeliser (R214 to R220) -/

/-- DDC sample `n` of a source slot, from the codes that the command brings; none where it is missing (R211, R285, R287, R290). -/
def State.slotSample (s : State) (q : Nat) (xs : List AdcIn) (slot n : Nat) : Option Iq :=
  let line := if slot = 0 then (s.roq q).slot0 else (s.roq q).slot1
  let y := s.ddc xs line n
  if 16 ≤ line || y.missing then none else some ⟨y.i, y.q⟩

/-- What is held of input sample `n` (an integer: a delay can reach before sample 0); nothing of a missing one. -/
def Input.sample (x : Input) (adc : Nat → Nat → Option Iq) (n : Int) : List Staged :=
  if n < 0 then []
  else if x.src.kind = 2 then
    match adc x.slot n.toNat with
    | some v => [{ vals := [v], flagged := false, first := 0 }]
    | none => []
  else tget [] x.staged n.toNat

/-- The value of one plan sample of a filter bank: zero when missing or flagged. -/
def Input.raw (x : Input) (adc : Nat → Nat → Option Iq) (d : Nat) (n : Int) : Iq :=
  match x.sample adc (n - d) with
  | v :: _ => if v.flagged then ⟨0, 0⟩ else v.vals.headD ⟨0, 0⟩
  | [] => ⟨0, 0⟩

/-! #### The FFT (R217) -/

/-- A value of the FFT clamped to 18+18 bits, and whether it was. -/
def clamp18 (v : Iq) : Iq × Bool :=
  let z : Iq := ⟨satSigned 18 v.i, satSigned 18 v.q⟩
  (z, z != v)

/-- The bits of `k` below `n` in reverse order. -/
def bitRev : Nat → Nat → Nat
  | 0, _ => 0
  | n + 1, k => k % 2 * 2 ^ n + bitRev n (k / 2)

/-- A value turned by a twiddle, with 17 fractional bits, rounded to an integer before the butterfly adds: R217 gives neither the bits nor the place of
the rounding. DESIGN CHOICE. -/
def turn17 (w : BitVec 18 × BitVec 18) (v : Iq) : Iq :=
  ⟨roundDiv (v.i * w.1.toInt - v.q * w.2.toInt) (2 ^ 17), roundDiv (v.i * w.2.toInt + v.q * w.1.toInt) (2 ^ 17)⟩

/-- The output `k` of the radix-2 stage whose butterflies span `m` values, in time or in frequency. -/
def butterfly (inTime : Bool) (m : Nat) (l : List Iq) (k : Nat) : Iq :=
  let w := Config.twiddle m (k % m)
  let lo := decide (k % (2 * m) < m)
  let a := lget ⟨0, 0⟩ l (if lo then k else k - m)
  let b := lget ⟨0, 0⟩ l (if lo then k + m else k)
  if inTime then
    let t := turn17 w b
    if lo then ⟨a.i + t.i, a.q + t.q⟩ else ⟨a.i - t.i, a.q - t.q⟩
  else if lo then ⟨a.i + b.i, a.q + b.q⟩ else turn17 w ⟨a.i - b.i, a.q - b.q⟩

/-- The stages of the FFT from number `s` on: each is halved, rounded, where its FFT_SHIFT bit is set, and clamped; the values clamped are counted.
The spec leaves open whether decimation is in time or in frequency, and the twiddles: free values. That the halving comes before the clamp is a
DESIGN CHOICE. -/
def fftStages (p shift : Nat) : Nat → Nat → List Iq × Nat → List Iq × Nat
  | 0, _, x => x
  | n + 1, s, (l, ovf) =>
    let m := if Config.fftInTime then 2 ^ s else 2 ^ n
    let r := (List.range (2 ^ p)).map fun k =>
      let v := butterfly Config.fftInTime m l k
      clamp18 (if bitOf shift s then ⟨roundDiv v.i 2, roundDiv v.q 2⟩ else v)
    fftStages p shift n (s + 1) (r.map (·.1), ovf + (r.filter (·.2)).length)

/-- The values at bit-reversed places. -/
def bitReversed (p : Nat) (l : List Iq) : List Iq := (List.range (2 ^ p)).map fun k => lget ⟨0, 0⟩ l (bitRev p k)

/-- fft_P of 2^p values of 18+18 bits, and how many values were clamped. -/
def fft (p shift : Nat) (l : List Iq) : List Iq × Nat :=
  let r := fftStages p shift p 0 (if Config.fftInTime then bitReversed p l else l, 0)
  (if Config.fftInTime then r.1 else bitReversed p r.1, r.2)

/-- One spectrum of the filter bank (R217): the kept channels in order, and the saturations counted. -/
def spectrum (c : ChanCfg) (coefs : List (Nat × Nat)) (x : Input) (adc : Nat → Nat → Option Iq) (d j : Nat) :
    List Iq × Nat :=
  let p := c.p
  let v := (List.range p).map fun k =>
    let acc := (List.range c.taps).foldl (fun (a : Int × Int) t =>
      let h := toSigned 16 (tget 0 coefs (t * p + k))
      let y := x.raw adc d (((j + 1 + t : Nat) - (c.taps : Int)) * p + k)
      (a.1 + h * y.i, a.2 + h * y.q)) (0, 0)
    clamp18 ⟨roundDiv acc.1 (2 ^ 15), roundDiv acc.2 (2 ^ 15)⟩
  let r := fft c.log2p c.shift (v.map (·.1))
  let real := x.src.format == 2 || x.src.format == 3
  ((List.range c.f).map fun m =>
    let ch := c.ch0 + m
    lget ⟨0, 0⟩ r.1 (if real then ch else (ch + p / 2) % p), (v.filter (·.2)).length + r.2)

/-- The channel samples of one BYPASS row (R219), how many of them are missing, and how many flagged. -/
def bypassRow (c : ChanCfg) (x : Input) (v : List Staged) : List Iq × Nat × Nat :=
  let cells := (List.range c.f).map fun m =>
    let ch := x.src.first + c.ch0 + m
    v.findSome? fun e => if ch < e.first then none else e.vals[ch - e.first]?.map fun y => (y, e.flagged)
  (cells.map fun e => match e with | some (y, false) => y | _ => ⟨0, 0⟩,
    (cells.filter fun e => e.isNone).length, (cells.filter fun e => match e with | some (_, b) => b | none => false).length)

/-- The rotation of an output channel by the fraction of a sample (R214): k × FRAC ÷ (64 × R) turns, backwards. -/
def fracRotate (c : ChanCfg) (x : SrcCfg) (frac ch : Nat) (v : Iq) : Iq :=
  if frac = 0 then v
  else
    let real := x.format == 2 || x.format == 3
    let n := if c.bypass then x.nchan else c.p
    let k : Int := if real then (ch : Int) else (ch : Int) - (n / 2 : Nat)
    let r : Int := if c.bypass then 1 else (c.p : Int)
    let ph := BitVec.ofInt 20 (-(k * (frac : Int) * 2 ^ 20) / (64 * r))
    let w := cis ph
    ⟨roundDiv (v.i * w.1 - v.q * w.2) (2 ^ 17), roundDiv (v.i * w.2 + v.q * w.1) (2 ^ 17)⟩

/-- The requantiser (R220): the component, and whether it clipped. -/
def requant (g rshift m : Nat) (v : Int) : Int × Bool :=
  let y := roundDiv (v * (g : Int)) (2 ^ (12 + rshift))
  let z := clampI (-(m : Int)) m y
  (z, z != y)

/-- The bytes of one requantised sample (R220). -/
def sampleBytes (s : Nat) (v : Iq) : List Byte :=
  if s = 1 then leBytes 1 (ofSigned 4 v.i + 16 * ofSigned 4 v.q) else leBytes 1 (ofSigned 8 v.i) ++ leBytes 1 (ofSigned 8 v.q)

/-- The offset in the corner-turn region (R223). -/
def CtCfg.offset (k : CtCfg) (half c t i : Nat) : Nat :=
  half * (k.f * k.b * k.npad * k.s) + c * (k.b * k.npad * k.s) + t * (k.npad * k.s) + i * k.s

/-- A 64-bit saturating sum. -/
def satAdd64 (a b : Nat) : Nat := satAdd 64 a b

/-- One input's channel sample `j`: the state with the input's counters and losses, and its kept channels as they are
written (R217 to R220). A row that is `lost` counts as missing, whatever was held of it, and without a source too (R224). DELAY moves by input
samples, as R212 and R214 have it, in a filter bank too, where R215 speaks of Δ × P reused samples. DESIGN CHOICE. -/
def State.channeliseInput (s : State) (q i j label : Nat) (c : ChanCfg) (adc : Nat → Nat → Option Iq) (lost : Bool) :
    State × List Iq :=
  let x := s.input i
  if x.src.kind = 0 then
    (if lost then s.onInput i fun x => { x with missing := satAdd 32 x.missing (if c.bypass then c.f else c.p), blkMissing := x.blkMissing + c.f } else s,
      List.replicate c.f ⟨0, 0⟩)
  else
    let df := x.delayAt label
    let d := df.1
    let p := c.p
    let plan := (List.range p).map fun k => x.sample adc (((j * p + k : Nat) : Int) - d)
    let flg := (plan.filter fun v => v.any (·.flagged)).length
    let mis := (plan.filter fun v => v.isEmpty).length
    let byp := bypassRow c x (x.sample adc ((j : Int) - d))
    let (vals, ovf, lostC, flagC) :=
      if c.bypass then (byp.1, 0, byp.2.1, byp.2.2)
      else
        let y := spectrum c (s.chanl q).coefs x adc d j
        (y.1, y.2, (if 0 < mis then c.f else 0), (if 0 < flg ∧ mis = 0 then c.f else 0))
    let (inM, inF) := if lost then (if c.bypass then c.f else p, 0) else if c.bypass then (lostC, flagC) else (mis, flg)
    let (blkM, blkF) := if lost then (c.f, 0) else (lostC, flagC)
    let rot := (List.range c.f).map fun m => fracRotate c x.src df.2 (c.ch0 + m) (lget ⟨0, 0⟩ vals m)
    let m := if c.outBits = 4 then 7 else 127
    let out := (List.range c.f).map fun k =>
      let v := lget ⟨0, 0⟩ rot k
      let g := tget 0 (s.chanl q).gains (i * 16384 + k)
      (requant g c.rshift m v.i, requant g c.rshift m v.q)
    let clips := out.foldl (fun n o => n + ofBool o.1.2 + ofBool o.2.2) 0
    let pow := rot.foldl (fun n v => n + (v.i * v.i + v.q * v.q).toNat) 0
    let keep := ((j + 1 : Nat) : Int) * p - (c.taps : Int) * p - (x.delayMax : Int)
    (s.onInput i fun x =>
      { x with missing := satAdd 32 x.missing inM, flagged := satAdd 32 x.flagged inF,
               clip := satAdd 32 x.clip clips, ovf := satAdd 32 x.ovf ovf, powAcc := satAdd64 x.powAcc pow,
               blkMissing := x.blkMissing + blkM, blkFlagged := x.blkFlagged + blkF, delay := d, frac := df.2,
               pend := x.pend.filter fun e => !decide (e.time ≤ label),
               staged := x.staged.filter fun e => decide (keep ≤ (e.1 : Int)) },
     out.map fun o => ⟨o.1.1, o.2.1⟩)

/-- The gain writes due at a block that starts at an instant take effect together (R221). -/
def Chan.takeGains (c : Chan) (t : Nat) : Chan :=
  let due := c.gainPend.filter fun g => decide (g.time ≤ t)
  { c with gains := due.foldl (fun gs g => tputs 0 gs (g.input * 16384 + g.ch) g.vals) c.gains,
           gainPend := c.gainPend.filter fun g => !decide (g.time ≤ t) }

/-- The serial number of the block that holds channel sample `j`, and the place in the block (R224): a row of before a step lies where it lay. -/
def placeIn (origin b : Nat) : List (Nat × Int × Int) → Int → Nat → Nat × Nat
  | [], off, j => ((((j - origin) / b : Nat) - off).toNat, (j - origin) % b)
  | (j1, dj, off0) :: l, off, j =>
    if j < j1 then placeIn origin b l off0 ((j : Int) - dj).toNat else ((((j - origin) / b : Nat) - off).toNat, (j - origin) % b)
def Ct.place (k : Ct) (b j : Nat) : Nat × Nat := placeIn k.origin b k.seam k.off j

/-- The block number of a serial number; a step of device time numbers later blocks anew, not those before it. -/
def Ct.num (k : Ct) (blk : Nat) : Nat :=
  ((blk : Int) + match k.was.find? fun e => decide (blk < e.1) with | some e => e.2 | none => k.off).toNat

/-- The half of the region that holds a block (R223). -/
def Ct.half (k : Ct) (blk : Nat) : Nat := k.num blk % 2

/-- The clock of the channel samples: that of an active plan, else that of the channeliser's first source. -/
def State.planClock (s : State) (q : Nat) : PlanClk :=
  if s.plans.corr.run.active then s.plans.corr.run.clk
  else if s.plans.beam.run.active then s.plans.beam.run.clk
  else match (s.chanl q).cfg with
    | some c =>
      let srcs := ((List.range c.count).map fun k => (s.input (c.base + k)).src).filter fun x => x.kind != 0
      planClk c (srcs.headD .none)
    | none => { per := 1, goff := 0, mul := 1 }

/-- The first block that some active plan has not finished. -/
def State.readTo (s : State) : Nat :=
  let of := fun (r : PlanRun) => if r.active && r.st != .pending then r.proc else s.ct.released
  let a := of s.plans.corr.run
  let b := of s.plans.beam.run
  min a b

/-- The last row of a block is written: the losses are recorded (R224) and POWER holds the block's sum (R234). -/
def State.endBlock (s : State) (c : ChanCfg) (blk : Nat) : State :=
  (List.range c.count).foldl (fun a k =>
    let i := c.base + k
    let x := a.input i
    let r : BlockRec := { block := blk, input := i, missing := x.blkMissing, flagged := x.blkFlagged, absent := x.src.kind == 0 }
    (a.onCt fun t => { t with recs := t.recs ++ [r] }).onInput i fun x =>
      { x with power := x.powAcc, powAcc := 0, blkMissing := 0, blkFlagged := 0 }) s

/-- The reader has finished every earlier block in the half of a block (R224). -/
def State.halfFree (s : State) (blk : Nat) : Bool := (List.range (blk - s.readTo)).all fun n => s.ct.half (s.readTo + n) != s.ct.half blk

/-- The overrange flags of the DDC samples that an input takes for channel sample `j` (R299). -/
def State.countInput (s : State) (q : Nat) (xs : List AdcIn) (i j label : Nat) (c : ChanCfg) : State :=
  let x := s.input i
  let line := if x.slot = 0 then (s.roq q).slot0 else (s.roq q).slot1
  if x.src.kind = 2 ∧ line < 16 then s.countOver xs line (j * c.p - (x.delayAt label).1) c.p else s

/-- CHANNELISE: a Quire's channeliser processes its next channel sample at its due time and writes the row (R212, R217 to
R224). `x` brings the codes of the ADC lines. A row whose half is still being read is lost: its channel
samples are missing for every input. The channeliser of a Quire that has left its plan writes to the end of its last block (R265). -/
def execChannelise (q : Fin 16) (x : List AdcIn) (s : State) : Host.Outcome State Fault Refusal :=
  let adc := s.slotSample q x
  match (s.chanl q).cfg, s.ct.cfg with
  | some c, some k =>
    if !s.chanRuns q then .next s
    else
      let j := (s.chanl q).next
      let clk := s.planClock q
      let label := clk.label j
      let last := (j * clk.per + (c.p - 1) * (clk.per / c.p) + clk.goff) * uSample / clk.mul
      let s1 := s.advanceTo (last + s.ct.alignTime)
      let (blk, t) := s1.ct.place k.b j
      if (s.chanl q).until'.any fun m => decide (m ≤ blk) then .next s else
      let s2 := if t = 0 then s1.onChan q fun x => x.takeGains label else s1
      let free := s2.halfFree blk
      let s2' := (List.range c.count).foldl (fun a n => a.countInput q x (c.base + n) j label c) s2
      let (s3, rows) := (List.range c.count).foldl (fun (a : State × List (Nat × List Iq)) n =>
        let r := a.1.channeliseInput q (c.base + n) j label c adc (!free)
        (r.1, a.2 ++ [(c.base + n, r.2)])) (s2', [])
      let s4 :=
        if free then
          (List.range (min c.f k.f)).foldl (fun a ch =>
            a.memWrite k.region (k.offset (s2.ct.half blk) ch t c.base)
              (rows.flatMap fun e => sampleBytes k.s (lget ⟨0, 0⟩ e.2 ch))) s3
        else
          s3.onChan q fun x => { x with lost := x.lost ++ [(blk, t)] }
      let s5 := s4.onChan q fun x => { x with next := j + 1 }
      .next (if t + 1 = k.b then (s5.endBlock c blk).onChan q fun x => { x with written := blk + 1 } else s5)
  | _, _ => .next s

/-- The Quires whose channelisers run. -/
def State.chanQuires (s : State) : List Nat := (List.range 16).filter fun q => s.chanRuns q

/-- The rows of a block that were lost read as zeros. -/
def State.zeroLost (s : State) (q blk : Nat) (c : ChanCfg) (k : CtCfg) : State :=
  ((s.chanl q).lost.filter fun e => e.1 == blk).foldl (fun a e =>
    (List.range k.f).foldl (fun b ch => b.memWrite k.region (k.offset (s.ct.half blk) ch e.2 c.base) (zeros (c.count * k.s))) a) s

/-- BLOCK_RELEASE: every channeliser has written the block's last row, and the half is released for reading, once nothing else in it is read (R224). -/
def execBlockRelease (s : State) : Host.Outcome State Fault Refusal :=
  let qs := s.chanQuires
  match s.ct.cfg with
  | none => .next s
  | some k =>
    let blk := s.ct.released
    let done := fun (q : Nat) => decide (blk < (s.chanl q).written) || (s.chanl q).until'.any fun m => decide (m ≤ blk)
    if qs.isEmpty || !(qs.all done) || !s.halfFree blk then .next s
    else
      let s1 := qs.foldl (fun a q =>
        match (a.chanl q).cfg with
        | some c => (a.zeroLost q blk c k).onChan q fun x =>
            { x with lost := x.lost.filter fun e => e.1 != blk, until' := x.until'.filter fun m => decide (blk + 1 < m) }
        | none => a) s
      .next (s1.onCt fun t => { t with released := blk + 1 })

end Sys2Proof.Machine
end

