-- ==== Sys2Proof/Machine/PlanBase.lean ====
section
/-! DEFINITION. The arithmetic of the plans (07, R33, R236 to R243, R253, R260, R264): tiles, work units, rates and the
limits that a plan is checked against. Rates are exact rational numbers. -/
namespace Sys2Proof.Machine

namespace Status
def srcConflict : Nat := 0x1050
def laneRate : Nat := 0x1051
def ctGeometry : Nat := 0x1052
def planRunning : Nat := 0x1060
def planInputs : Nat := 0x1061
def planGeometry : Nat := 0x1062
def planQuires : Nat := 0x1063
def planNotSet : Nat := 0x1064
def dmaBound : Nat := 0x1065
def pathDown : Nat := 0x1066
end Status

/-- The frequency of a DVFS point, in Hz. -/
def pointHz (p : Nat) : Nat := lget 480000000 [1800000000, 1400000000, 950000000, 480000000] p

/-- The Quires of a mask, ascending. -/
def maskQuires (m : Nat) : List Nat := (List.range 16).filter fun q => bitOf m q

/-- A function-specific failure. -/
def planErr (status : Nat) : Err := err status 0

/-- E_CAPACITY with the failed limit (R266). -/
def planCap (limit : Nat) : Err := err Status.eCapacity limit

/-! ### Sources and rates -/

/-- The sample rate of a source in Hz (R208). -/
def SrcCfg.fs (x : SrcCfg) : Rat := 1562500000 * (x.mul : Rat) / (x.div : Rat)

/-- The sample byte rate of a source (R210); a DDC sample has four bytes. -/
def SrcCfg.byteRate (x : SrcCfg) : Rat :=
  if x.format ≤ 1 then ((x.nchan * fmtBytes x.format : Nat) : Rat) * x.fs
  else if x.format = 2 then x.fs else if x.format = 3 then 3 / 2 * x.fs else 4 * x.fs

/-- What a source needs of its lane in bits per second (R210). -/
def SrcCfg.laneNeed (x : SrcCfg) : Rat := 8 * x.byteRate * ((x.nomlen + 38 : Nat) : Rat) / (x.nomlen : Rat)

/-- The inputs with a source, with their numbers. -/
def State.bound (s : State) : List (Nat × Input) := s.plans.inputs.filter fun e => e.2.src.kind != 0

/-- The sources of a lane keep its limit at a rate (R210). -/
def laneFits (rate : Nat) (l : List SrcCfg) : Bool :=
  decide (l.foldl (fun a x => a + x.laneNeed) (0 : Rat) ≤ (rateGbps rate : Rat) * 1000000000 * 1023 / 1024)

/-- The sources of a lane. -/
def State.laneSrcs (s : State) (lane : Nat) : List SrcCfg :=
  (s.bound.filter fun e => e.2.src.kind == 1 && e.2.src.line == lane).map (·.2.src)

/-- The input units of a channeliser per second (R222). -/
def State.chanLoad (s : State) (c : ChanCfg) : Rat :=
  ((s.bound.filter fun e => c.has e.1).map (·.2.src)).foldl (fun a x =>
    a + if c.bypass then x.fs * (c.f : Rat) / 4 else if x.format = 2 ∨ x.format = 3 then x.fs else 2 * x.fs) 0

/-- The units that a channeliser can take at a DVFS point (R222). -/
def ChanCfg.room (c : ChanCfg) (point : Nat) : Rat :=
  ((if c.taps ≤ 8 ∧ c.p ≤ 4096 then 16 else 8 : Nat) : Rat) * (pointHz point : Rat)

/-- What the staging of a Quire's inputs needs with an alignment of `align` µs, in bytes (R213). -/
def State.stagingNeed (s : State) (c : ChanCfg) (align : Nat) : Rat :=
  ((s.bound.filter fun e => c.has e.1).map (·.2)).foldl (fun a x =>
    a + x.src.byteRate * (((align + 100 : Nat) : Rat) / 1000000 + (x.delayMax : Rat) / x.src.fs)) 0

/-- The staging area of every Quire holds its inputs (R213). -/
def State.stagingFits (s : State) (align : Nat) : Bool :=
  (List.range 16).all fun q => match (s.chanl q).cfg with
    | some c => decide (s.stagingNeed c align ≤ 4194304)
    | none => true

/-! ### Tiles and work units (R239 to R243, R258) -/

/-- The tiles of a correlation plan in ascending index. -/
def CorrCfg.tiles (p : CorrCfg) (npad : Nat) : List (Nat × Nat) :=
  let t := npad / 32
  let g := p.na / 32
  if p.rect then ((List.range t).drop g).flatMap fun a => (List.range g).map fun b => (a, b)
  else (List.range t).flatMap fun a => (List.range (a + 1)).map fun b => (a, b)

/-- The passes for each tile (R240). -/
def CorrCfg.passes (p : CorrCfg) : Nat := if p.mode = 4 then 1 else 4
def BeamCfg.passes (p : BeamCfg) : Nat := if p.inBits = 4 then 2 else 4

/-- The beam tiles (R258). -/
def BeamCfg.tileCount (p : BeamCfg) (npad : Nat) : Nat := p.nbeam / 32 * (npad / 32)

/-- The arrays of a Quire in service. -/
def State.arraysOf (s : State) (q : Nat) : List Nat :=
  if s.pq q = 31 || (s.qb q).stopped then [] else (List.range 6).filter fun a => !bitOf (s.qb q).clost a

/-- The Quire with the smallest ratio of units to arrays, the lowest on a tie; Quires without arrays take nothing. Each
entry is a Quire, its arrays and the units it holds. -/
def leastLoaded : List (Nat × Nat × Nat) → Option (Nat × Nat × Nat)
  | [] => none
  | x :: xs =>
    let r := leastLoaded xs
    if x.2.1 = 0 then r
    else match r with
      | none => some x
      | some y => if x.2.2 * y.2.1 ≤ y.2.2 * x.2.1 then some x else some y

/-- Deals `n` tiles of `p` units (R241). -/
def dealTiles (p : Nat) : Nat → List (Nat × Nat × Nat) → List (Nat × Nat × Nat)
  | 0, l => l
  | n + 1, l => match leastLoaded l with
    | none => l
    | some x => dealTiles p n (l.map fun y => if y.1 = x.1 then (y.1, y.2.1, y.2.2 + p) else y)

/-- The largest number of units in any array (R241), for tiles of `p` units dealt to the members; none where no array is in
service. -/
def State.umaxOf (s : State) (members : List Nat) (tiles p : Nat) : Option Nat :=
  let l := dealTiles p tiles (members.map fun q => (q, (s.arraysOf q).length, 0))
  if l.all fun x => x.2.1 == 0 then none
  else some (l.foldl (fun m x => if x.2.1 = 0 then m else max m (ceilDiv x.2.2 x.2.1)) 0)

/-- The lowest DVFS point at or below PMAX at which `umax × bw` fits (R242, R243). -/
def pointFor (pmax umax : Nat) (bw : Rat) : Option Nat :=
  ((List.range 4).reverse.filter fun p => decide (pmax ≤ p)).find? fun p => decide ((umax : Rat) * bw ≤ (pointHz p : Rat))

/-! ### The plans as they stand -/

/-- The channel sample rate of a clock. -/
def PlanClk.fch (k : PlanClk) : Rat := 1562500000 * (k.mul : Rat) / (k.per : Rat)

/-- The clocks of the inputs 0 to NPAD − 1 that have a source. -/
def State.inputClks (s : State) (npad : Nat) : List PlanClk :=
  (s.bound.filter fun e => decide (e.1 < npad)).filterMap fun e =>
    match s.inputQuire e.1 with
    | some q => (s.chanl q).cfg.map fun c => planClk c e.2.src
    | none => none

/-- Two clocks give the same labels (R236). -/
def PlanClk.same (a b : PlanClk) : Bool := a.per * b.mul == b.per * a.mul && a.goff * b.mul == b.goff * a.mul

/-- The bandwidth of a plan (R237). -/
def CorrCfg.bw (_p : CorrCfg) (k : CtCfg) (fch : Rat) : Rat := (k.f : Rat) * fch
def BeamCfg.bw (p : BeamCfg) (fch : Rat) : Rat := (p.nch : Rat) * fch

/-- Visibility slots in a channel (R250). -/
def CorrCfg.slots (p : CorrCfg) (npad : Nat) : Nat := 1024 * (p.tiles npad).length

/-- Items in a channel of an export (R251). -/
def CorrCfg.items (p : CorrCfg) (baseline : Bool) (npad : Nat) : Nat :=
  if !baseline then p.slots npad else if p.rect then (npad - p.na) * p.na else npad * (npad + 1) / 2

/-- The required export rate in bytes per second (R253). -/
def CorrCfg.exportRate (p : CorrCfg) (k : CtCfg) (baseline : Bool) (fch : Rat) : Rat :=
  ((k.f * p.items baseline k.npad * 8 : Nat) : Rat) * fch / ((p.nblk * k.b : Nat) : Rat)

/-- The size of a weight bank (R259). -/
def BeamCfg.bankSize (p : BeamCfg) (npad : Nat) : Nat := ceilDiv p.nch p.wgroup * p.nbeam * npad * 2

/-- The output rate of one beam in bits per second (R260). -/
def BeamCfg.beamRate (p : BeamCfg) (fch : Rat) : Rat := ((p.nch * 2 * p.outBits : Nat) : Rat) * fch

/-- The export paths of the beam plan in force. -/
def Beam.paths (b : Beam) : List (Option BeamPath) := match b.exps with | [] => [] | e :: _ => e.2

/-- The rate that a beam path carries, in bits per second. -/
def beamPathRate (p : BeamCfg) (paths : List (Option BeamPath)) (fch : Rat) (i : Nat) : Rat :=
  match lget none paths i with
  | some x => (x.count : Rat) * p.beamRate fch
  | none => 0

/-- The derated capacity of path 0, PCIe, or 1 to 4, the ports, in bits per second (R253). -/
def State.pathCap (s : State) (i : Nat) : Rat :=
  if i = 0 then 396000000000 else (s.portCap (i - 1) : Rat) * 1000000

/-- The paths of a correlation export. -/
def CorrExport.list (e : CorrExport) : List Nat := (List.range 5).filter fun i => bitOf e.paths i

/-- CONTROL Quires that use a ring region (R264). -/
def State.ringQuires (s : State) : Nat :=
  ((List.range 16).filter fun q => s.pers q == .control && (s.synq q).folios.any fun e => decide (e.2.ring.base < 2048)).length

/-- The traffic D in bytes per second with a correlation plan and a beam plan (R33, R264); `none` leaves a plan out. -/
def State.traffic (s : State) (k : CtCfg) (fch : Rat) (corr : Option CorrCfg) (beam : Option BeamCfg) : Rat :=
  let inp : Rat := max (match corr with | some p => p.bw k fch | none => 0) (match beam with | some p => p.bw fch | none => 0)
  let blk : Rat := fch / (k.b : Rat)
  2 * ((k.npad * k.s : Nat) : Rat) * inp +
    (match corr with
      | some p => 16 * (p.slots k.npad : Rat) * p.bw k fch / (k.b : Rat) +
          ((k.f * p.slots k.npad * 8 : Nat) : Rat) * fch / ((p.nblk * k.b : Nat) : Rat)
      | none => 0) +
    (match beam with
      | some p => (p.bankSize k.npad : Rat) * blk + beamPathRate p s.plans.beam.paths fch 5 / 8
      | none => 0) +
    32000000000 * (s.ringQuires : Rat) + s.captureRate

/-- The running correlation plan, and the running beam plan. -/
def Plans.liveCorr (p : Plans) : Option CorrCfg := if p.corr.run.active then p.corr.cfg else none
def Plans.liveBeam (p : Plans) : Option BeamCfg := if p.beam.run.active then p.beam.cfg else none

/-- D of the plans that are active, with a corner turn. -/
def State.liveTraffic (s : State) (k : CtCfg) : Rat :=
  s.traffic k (if s.plans.corr.run.active then s.plans.corr.run.clk.fch else s.plans.beam.run.clk.fch) s.plans.liveCorr s.plans.liveBeam

/-- PLAN_STATUS shows D as computed at the last check (R274). -/
def State.noteD (s : State) (d : Rat) : State :=
  let note := fun (r : PlanRun) => if r.active then { r with d := d.floor.toNat } else r
  s.onPlans fun p => { p with corr := { p.corr with run := note p.corr.run }, beam := { p.beam with run := note p.beam.run } }

/-- The bytes of all DRAM regions. -/
def State.regionTotal (s : State) : Nat :=
  s.svc.regions.foldl (fun a e => a + match e.2 with | some r => r.size | none => 0) 0

/-- The DRAM in service (R534), and the limit of the visibility regions. -/
def State.dramTotal (s : State) : Nat := 48 * 2 ^ 30 - s.svc.dramRetired * 65536
def State.visLimit (s : State) : Nat := min (40 * 2 ^ 30) (s.dramTotal - 8 * 2 ^ 30)

/-- The size of a region, 0 where it is not allocated. -/
def State.regionSize (s : State) (h : Nat) : Nat := match s.region h with | some r => r.size | none => 0

/-! ### The checks of a plan (R33, R235, R236, R266) -/

/-- The members: their personality, and no Quire in both plans (R235). -/
def State.planQuiresErr (s : State) (mask other : Nat) (pers : Pers) : Option Err :=
  failIf ((maskQuires mask).any fun q => s.pers q != pers || bitOf other q) (planErr Status.planQuires)

/-- The inputs (R236). A plan without any source has no clock, and is refused. -/
def State.planInputsErr (s : State) (k : CtCfg) : Option Err :=
  match s.inputClks k.npad with
  | [] => some (planErr Status.planInputs)
  | x :: xs => failIf (xs.any fun y => !x.same y) (planErr Status.planInputs)

/-- The end of the range of a channeliser that can run. -/
def State.rangeEnd (s : State) (q : Nat) : Nat :=
  match (s.chanl q).cfg with
  | some c => if s.pers q == .correlate || s.pers q == .beamform then c.base + c.count else 0
  | none => 0

/-- Every input lies in the range of a channeliser that can run (R236), and NPAD is the highest end of those ranges (R223). -/
def State.planCoverErr (s : State) (k : CtCfg) : Option Err :=
  failIf (((List.range k.npad).any fun i => match s.inputQuire i with
      | some q => s.pers q != .correlate && s.pers q != .beamform
      | none => true) ||
    (List.range 16).foldl (fun a q => max a (s.rangeEnd q)) 0 != k.npad) (planErr Status.planGeometry)

/-- The intake payload keeps the lanes' limit (R33, R202). -/
def State.planIntakeErr (s : State) (k : CtCfg) : Option Err :=
  let l := (s.bound.filter fun e => decide (e.1 < k.npad) && e.2.src.kind == 1).map (·.2.src)
  let need := l.foldl (fun a x => a + 8 * x.byteRate) (0 : Rat)
  let lanes := (List.range 72).filter fun n => l.any fun x => x.line == n
  let have' := lanes.foldl (fun a n => a + (rateGbps (s.laneRate n) : Rat) * 1000000000) (0 : Rat)
  failIf (decide (have' < need)) (planCap 2)

/-- The channelisers keep their limit at the plan's PMAX (R222). -/
def State.planChanErr (s : State) (k : CtCfg) (pmax : Nat) : Option Err :=
  failIf ((List.range 16).any fun q => match (s.chanl q).cfg with
    | some c => decide (c.base < k.npad) && decide (c.room pmax < s.chanLoad c)
    | none => false) (planCap 0)

/-- The geometry of a correlation plan (R245, R250), and the ranges that hang on the corner turn (R267). -/
def State.corrGeometryErr (s : State) (p : CorrCfg) (k : CtCfg) : Option Err :=
  let tOk := p.t % 256 == 0 && decide (256 ≤ p.t) && decide (p.t ≤ if p.mode = 4 then 4096 else 256) && k.b % p.t == 0
  failIf (!tOk || p.mode != 4 * k.s || (p.rect && (decide (k.npad < p.na + 32))) || decide (k.b * k.f < p.blankThr) ||
    decide (s.regionSize p.vregion < 2 * k.f * p.slots k.npad * 8)) (planErr Status.planGeometry)

/-- The geometry of a beam plan (R259, R271). -/
def State.beamGeometryErr (s : State) (p : BeamCfg) (k : CtCfg) : Option Err :=
  failIf (p.inBits != 4 * k.s || decide (k.f < p.ch0 + p.nch) || decide (s.regionSize p.wregion < 2 * p.bankSize k.npad))
    (planErr Status.planGeometry)

/-- The limits that both plans share: regions, traffic and channelisers. -/
def State.planSharedErr (s : State) (k : CtCfg) (fch : Rat) (corr : Option CorrCfg) (beam : Option BeamCfg) : Option Err :=
  firstErr [
    failIf (match corr with | some p => decide (s.visLimit < s.regionSize p.vregion) | none => false) (planCap 3),
    failIf (decide (s.dramTotal < s.regionTotal)) (planCap 4),
    failIf (decide (1800000000000 < s.traffic k fch corr beam)) (planCap 5)]

/-- The export of a correlation plan keeps the paths' limits beside the beams' (R253, R264). -/
def State.corrExportErr (s : State) (p : CorrCfg) (e : CorrExport) (k : CtCfg) (fch : Rat) (beam : Option BeamCfg) : Option Err :=
  let room := e.list.foldl (fun a i => a + s.pathCap i - match beam with
    | some b => beamPathRate b s.plans.beam.paths fch i
    | none => 0) (0 : Rat)
  failIf (decide (room < 8 * p.exportRate k e.baseline fch)) (planCap 6)

/-- The paths of a beam export keep their limits (R261). -/
def State.beamExportErr (s : State) (p : BeamCfg) (paths : List (Option BeamPath)) (fch : Rat) : Option Err :=
  failIf ((List.range 5).any fun i => decide (s.pathCap i < beamPathRate p paths fch i)) (planCap 6)

/-- The array load of a plan (R242). -/
def State.loadErr (s : State) (members : List Nat) (tiles passes pmax : Nat) (bw : Rat) : Option Err :=
  match s.umaxOf members tiles passes with
  | none => some (planCap 1)
  | some u => failIf (pointFor pmax u bw).isNone (planCap 1)

/-- Every check of CORR_START (R269). -/
def State.corrStartErr (s : State) (p : CorrCfg) (e : CorrExport) (k : CtCfg) : Option Err :=
  let fch := match s.inputClks k.npad with | x :: _ => x.fch | [] => 0
  let other := match s.plans.liveBeam with | some b => b.qmask | none => 0
  firstErr [s.planQuiresErr p.qmask other .correlate, s.planInputsErr k, s.planCoverErr k, s.corrGeometryErr p k,
    s.loadErr (maskQuires p.qmask) (p.tiles k.npad).length p.passes p.pmax (p.bw k fch), s.planIntakeErr k,
    s.planSharedErr k fch (some p) s.plans.liveBeam, s.corrExportErr p e k fch s.plans.liveBeam, s.planChanErr k p.pmax]

/-- The beams of the export paths are beams of the plan (R261), which a BEAM_PLAN_SET may have changed since. -/
def beamRangesErr (p : BeamCfg) (paths : List (Option BeamPath)) : Option Err :=
  failIf (paths.any fun x => match x with | some y => decide (p.nbeam < y.first + y.count) | none => false) (planErr Status.planGeometry)

/-- Every check of BEAM_START (R269). -/
def State.beamStartErr (s : State) (p : BeamCfg) (k : CtCfg) : Option Err :=
  let fch := match s.inputClks k.npad with | x :: _ => x.fch | [] => 0
  let other := match s.plans.liveCorr with | some c => c.qmask | none => 0
  firstErr [s.planQuiresErr p.qmask other .beamform, s.planInputsErr k, s.planCoverErr k, s.beamGeometryErr p k, beamRangesErr p s.plans.beam.paths,
    s.loadErr (maskQuires p.qmask) (p.tileCount k.npad) p.passes p.pmax (p.bw fch), s.planIntakeErr k,
    s.planSharedErr k fch s.plans.liveCorr (some p), s.beamExportErr p s.plans.beam.paths fch,
    (match s.plans.liveCorr, s.plans.corr.exp with
      | some c, some e => s.corrExportErr c e k fch (some p)
      | _, _ => none),
    failIf (decide (320000000000 < (p.nbeam : Rat) * p.beamRate fch)) (planCap 7), s.planChanErr k p.pmax]

end Sys2Proof.Machine
end

