-- ==== Sys2Proof/Machine/IntakeOps.lean ====
section
/-! DEFINITION. The intake and channeliser opcodes 0x0500 to 0x050B (06, R208 to R234). -/
namespace Sys2Proof.Machine

/-- A key for a resource of the device that is no object of its own (R52). -/
def devKey (n : Nat) : Nat := 2 ^ 32 + n

/-- The instant at which a command takes effect: its execution time when TIMED, else now (R44). -/
def Cmd.execTime (c : Cmd) (s : State) : Nat :=
  if c.timed then (dtOf (c.pkt.req.params.take 12)).getD s.now else s.now

/-- The Quire that controls an input: that of the channeliser whose range holds it (R226). -/
def inputCtl (c : Cmd) (s : State) : List Nat := (s.inputQuire c.i).toList

/-- A plan that has the Quire as a member, or runs its channeliser, is active. -/
def State.planRuns (s : State) (q : Nat) : Bool :=
  s.chanRuns q || (s.plans.corr.run.active && s.plans.corr.run.members.contains q) ||
    (s.plans.beam.run.active && s.plans.beam.run.members.contains q)

/-- The source that an INTAKE_SRC_SET carries (R228). -/
def srcOf (p : List Byte) : SrcCfg :=
  { kind := u p 0 1, format := u p 1 1, source := u p 2 2, line := u p 4 1, nomlen := u p 6 2, mul := u p 8 2, div := u p 12 4,
    goff := u p 16 4, first := u p 20 2, nchan := u p 22 2 }

/-- The bytes of a source (R228). -/
def SrcCfg.bytes (x : SrcCfg) : List Byte :=
  leBytes 1 x.kind ++ leBytes 1 x.format ++ leBytes 2 x.source ++ leBytes 1 x.line ++ zeros 1 ++ leBytes 2 x.nomlen ++
    leBytes 2 x.mul ++ zeros 2 ++ leBytes 4 x.div ++ leBytes 4 x.goff ++ leBytes 2 x.first ++ leBytes 2 x.nchan

/-- The ranges of INTAKE_SRC_SET (R228). KIND 0 has FORMAT 0, so that its NCHAN too is at least 1. -/
def srcFields : List Field :=
  let chd := fun (p : List Byte) => u p 0 1 == 1 && decide (u p 1 1 ≤ 1)
  [fU 0 1 0 2,
   fX 1 (fun p => if u p 0 1 = 1 then decide (u p 1 1 ≤ 3) else u p 1 1 == if u p 0 1 = 2 then 4 else 0),
   fX 2 (fun p => if u p 0 1 = 1 then decide (u p 2 2 ≤ 4095) else u p 2 2 == 0),
   fX 4 (fun p => if u p 0 1 = 1 then decide (u p 4 1 ≤ 71) else if u p 0 1 = 2 then decide (u p 4 1 ≤ 15) else true),
   fR 5 1,
   fX 6 (fun p =>
     let n := u p 6 2
     if u p 0 1 = 1 then decide (4 ≤ n) && decide (n ≤ 4096) && n % 4 == 0 && (u p 1 1 != 3 || n % 12 == 0) &&
       (!chd p || n % (u p 22 2 * fmtBytes (u p 1 1)) == 0)
     else n == 0),
   fX 8 (fun p => decide (1 ≤ u p 8 2) && decide (u p 8 2 ≤ if u p 0 1 = 2 then 1 else 16)), fR 10 2,
   fX 12 (fun p => decide (1 ≤ u p 12 4) && decide (u p 12 4 ≤ if u p 0 1 = 2 then 1 else 1048576)),
   fX 16 (fun p => decide (u p 16 4 < u p 12 4)),
   fX 20 (fun p => if u p 0 1 = 0 ∨ chd p then decide (u p 20 2 ≤ 16383) else u p 20 2 == 0),
   fX 22 (fun p => if u p 0 1 = 0 ∨ chd p then decide (1 ≤ u p 22 2) && decide (u p 20 2 + u p 22 2 ≤ 16384) else u p 22 2 == 0)]

/-- A source slot of a Quire for an ADC line beside the internal sources of `others` (R211): the slot that already holds the
line, else the first that no other internal source uses; none where two sources are taken, or where the line would go to more
than four Quires, counting the routes that wait (R16). -/
def State.pickSlot (s : State) (q line : Nat) (others : List Nat) : Option Nat :=
  let r := s.roq q
  let used := fun sl => others.contains (if sl = 0 then r.slot0 else r.slot1)
  let sl := if r.slot0 = line then some 0 else if r.slot1 = line then some 1
    else if !used 0 then some 0 else if !used 1 then some 1 else none
  match sl with
  | none => none
  | some x =>
    let n := s.lineQuires q line
    if n < 4 ∧ others.length < 2 then some x else none

/-- The ADC lines of the internal sources in a range, but for input `i`. -/
def State.internalLines (s : State) (c : ChanCfg) (i : Nat) : List Nat :=
  (s.bound.filter fun e => c.has e.1 && e.1 != i && e.2.src.kind == 2).map (·.2.src.line)

/-- The input with its slot, and the Quire's slot set to the line. -/
def State.bindSlot (s : State) (q i line sl : Nat) : State :=
  let had := (if sl = 0 then (s.roq q).slot0 else (s.roq q).slot1) == line
  (s.onRo q fun r => if sl = 0 then { r with slot0 := line } else { r with slot1 := line }).onInput i fun x => { x with slot := sl, lent := !had }

/-- An internal source gives its slot back: one that the device set for it goes to the other internal source of the line, else holds no line. DESIGN
CHOICE. -/
def State.freeSlot (s : State) (i : Nat) : State :=
  let x := s.input i
  let s1 := s.onInput i fun x => { x with slot := 0xFF, lent := false }
  match (if x.lent then s.inputQuire i else none) with
  | none => s1
  | some q =>
    match s.bound.find? fun e => e.1 != i && e.2.src.kind == 2 && e.2.slot == x.slot && s.inputQuire e.1 == some q with
    | some e => s1.onInput e.1 fun y => { y with lent := true }
    | none => s1.onRo q fun r => if x.slot = 0 then { r with slot0 := 0xFF } else { r with slot1 := 0xFF }

/-- The slot that an internal source gets; an input outside every range gets one when a range takes it in. -/
def State.srcSlot (s : State) (i : Nat) (x : SrcCfg) : Option (Option (Nat × Nat)) :=
  if x.kind ≠ 2 then some none
  else match s.inputQuire i with
    | none => some none
    | some q => match (s.chanl q).cfg with
      | none => some none
      | some c => match s.pickSlot q x.line (s.internalLines c i) with
        | none => none
        | some sl => some (some (q, sl))

/-- INTAKE_SRC_SET (R208, R210, R211, R228). -/
def opIntakeSrcSet : OpSpec :=
  { cls := [.intake], ctx := [0], ctl := inputCtl, len := some 24, state := fun c s => stateIf s (s.inputRuns c.i),
    cap := fun c s => c.judge srcFields [0, 4] (failIf ((s.freeSlot c.i).srcSlot c.i (srcOf c.p)).isNone eCapacity),
    fields := fun _ _ => srcFields,
    more := fun c s =>
      let x := srcOf c.p
      let old := (s.input c.i).src
      let taken := x.kind == 1 && match s.boundInput x.source with | some j => j != c.i | none => false
      let second := x.kind != 0 && old.kind != 0 && !(x.kind == old.kind && x.source == old.source && x.line == old.line)
      let others := ((s.bound.filter fun e => e.1 != c.i && e.2.src.kind == 1 && e.2.src.line == x.line).map (·.2.src))
      firstErr [failIf (taken || second) (planErr Status.srcConflict),
        failIf (x.kind == 1 && !laneFits (s.laneRate x.line) (x :: others)) (planErr Status.laneRate)],
    run := fun c s =>
      let x := srcOf c.p
      let s1 := (s.freeSlot c.i).onInput c.i fun i => { i with src := x, delayMax := i.delay, staged := [], seq := none }
      (match s1.srcSlot c.i x with
        | some (some (q, sl)) => s1.bindSlot q c.i x.line sl
        | _ => s1, .ok []) }

/-- INTAKE_SRC_GET (R228). -/
def opIntakeSrcGet : OpSpec :=
  { readOp [.intake] 0 (fun c s =>
      let x := s.input c.i
      x.src.bytes ++ leBytes 1 x.slot ++ zeros 3) with ctx := [0] }

/-- INTAKE_DELAY_SET (R213, R215, R229). -/
def opIntakeDelaySet : OpSpec :=
  { cls := [.intake], timed := true, ctx := [0], ctl := inputCtl, len := some 8, fields := fun _ _ => [fU 0 4 0 65535, fU 4 1 0 63, fR 5 3],
    cap := fun c s =>
      let s1 := s.onInput c.i fun x => { x with delayMax := max x.delayMax (c.u 0 4) }
      c.judge [fU 0 4 0 65535] [0] (failIf (!s1.stagingFits (match s.ct.cfg with | some k => k.align | none => 0)) eCapacity),
    run := fun c s =>
      let t := if c.timed then c.execTime s else s.now + s.ct.alignTime + 1
      (s.onInput c.i fun x =>
        { x with delayMax := max x.delayMax (c.u 0 4), pend := x.pend ++ [{ time := t, delay := c.u 0 4, frac := c.u 4 1 }] }, .ok []) }

/-! ### Channelisers -/

/-- The channeliser can be reached (R227). -/
def chanState (c : Cmd) (s : State) : Option Err := s.needPers c.q [.correlate, .beamform, .service] 16

/-- The fields that CHAN_SET carries (R230). -/
def chanOf (p : List Byte) : ChanCfg :=
  { bypass := u p 0 1 == 1, taps := u p 1 1, log2p := u p 2 1, outBits := u p 3 1, ch0 := u p 4 2, f := u p 6 2, base := u p 8 2,
    count := u p 10 2, shift := u p 12 2, rshift := u p 14 1 }

/-- The bytes of CHAN_GET (R230). -/
def ChanCfg.bytes (c : ChanCfg) : List Byte :=
  leBytes 1 (ofBool c.bypass) ++ leBytes 1 c.taps ++ leBytes 1 c.log2p ++ leBytes 1 c.outBits ++ leBytes 2 c.ch0 ++ leBytes 2 c.f ++
    leBytes 2 c.base ++ leBytes 2 c.count ++ leBytes 2 c.shift ++ leBytes 1 c.rshift ++ zeros 1

/-- The channels available to a range: the least that a bound source of it gives (R230), in BYPASS its NCHAN, which is 0 for formats that have no
channels; without a source P, or 16,384 in BYPASS. -/
def State.chansAvail (s : State) (c : ChanCfg) : Nat :=
  ((s.bound.filter fun e => c.has e.1).map (·.2.src)).foldl (fun a x =>
    min a (if c.bypass then x.nchan
      else if x.format = 2 ∨ x.format = 3 then c.p / 2 else c.p)) (if c.bypass then 16384 else c.p)

/-- Two input ranges overlap. -/
def ChanCfg.overlaps (a b : ChanCfg) : Bool := decide (a.base < b.base + b.count) && decide (b.base < a.base + a.count)

/-- The slots of a range's internal sources, one after the other; none where one finds no slot. -/
def State.bindSlots (s : State) (q : Nat) (c : ChanCfg) : List Nat → List Nat → Option State
  | [], _ => some s
  | i :: is, lines =>
    let l := (s.input i).src.line
    match s.pickSlot q l lines with
    | none => none
    | some sl => (s.bindSlot q i l sl).bindSlots q c is (l :: lines)

/-- The inputs of a range with internal sources. -/
def State.internalInputs (s : State) (c : ChanCfg) : List Nat :=
  (s.bound.filter fun e => c.has e.1 && e.2.src.kind == 2).map (·.1)

/-- The DVFS point by which CHAN_SET judges R222: the PMAX of the plan that names the Quire, else P0. -/
def State.chanPmax (s : State) (q : Nat) : Nat :=
  let corr := s.plans.corr.cfg.toList.filterMap fun p => if bitOf p.qmask q then some p.pmax else none
  let beam := s.plans.beam.cfg.toList.filterMap fun p => if bitOf p.qmask q then some p.pmax else none
  (if s.pers q == .beamform then beam ++ corr else corr ++ beam).headD 0

/-- The ranges of CHAN_SET (R230). -/
def chanFields (x : ChanCfg) (s : State) : List Field :=
  let byp := fun (p : List Byte) => u p 0 1 == 1
  [fU 0 1 0 1, fX 1 (fun p => if byp p then u p 1 1 == 0 else decide (4 ≤ u p 1 1) && decide (u p 1 1 ≤ 16)),
   fX 2 (fun p => if byp p then u p 2 1 == 0 else decide (6 ≤ u p 2 1) && decide (u p 2 1 ≤ 14)),
   fP 3 1 (fun v => v == 4 || v == 8), fX 4 (fun _ => decide (x.ch0 + x.f ≤ s.chansAvail x)),
   fX 6 (fun p => decide (1 ≤ u p 6 2) && decide (u p 6 2 ≤ 16384) && decide (u p 10 2 * u p 6 2 ≤ 262144)),
   fP 8 2 (fun v => decide (v ≤ 2016) && v % 32 == 0),
   fX 10 (fun p => decide (32 ≤ u p 10 2) && u p 10 2 % 32 == 0 && decide (u p 8 2 + u p 10 2 ≤ 2048)),
   fX 12 (fun p => decide (u p 12 2 < if byp p then 1 else 2 ^ min 14 (u p 2 1))), fU 14 1 0 31, fR 15 1]

/-- The internal sources of a Quire's range without their slots. -/
def State.freeSlots (s : State) (q : Nat) : State :=
  match (s.chanl q).cfg with
  | some x => (s.internalInputs x).foldl (fun a i => a.freeSlot i) s
  | none => s

/-- CHAN_SET (R216, R222, R230). -/
def opChanSet : OpSpec :=
  { cls := [.channelizer], len := some 16,
    state := fun c s => firstErr [chanState c s, stateIf s (s.planRuns c.q)],
    cap := fun c s =>
      let x := chanOf c.p
      c.judge (chanFields x s) [0, 1, 2, 6, 8, 10] (failIf (decide (x.room (s.chanPmax c.q) < s.chanLoad x) ||
        ((s.freeSlots c.q).bindSlots c.q x (s.internalInputs x) []).isNone) eCapacity),
    fields := fun c s => chanFields (chanOf c.p) s,
    more := fun c s =>
      failIf ((List.range 16).any fun q => q != c.q && match (s.chanl q).cfg with | some y => (chanOf c.p).overlaps y | none => false)
        (planErr Status.srcConflict),
    run := fun c s =>
      let x := chanOf c.p
      let s1 := (s.freeSlots c.q).onChan c.q fun y => { y with cfg := some x }
      ((s1.bindSlots c.q x (s1.internalInputs x) []).getD s1, .ok []) }

/-- CHAN_GET (R230): zeros before the first CHAN_SET. -/
def opChanGet : OpSpec :=
  { readOp [.channelizer] 0 (fun c s => match (s.chanl c.q).cfg with | some x => x.bytes | none => zeros 16) with state := chanState }

/-- CHAN_COEF_WRITE (R231). -/
def opChanCoefWrite : OpSpec :=
  { cls := [.channelizer], len := none, lenMin := 12, lenOk := fun n => decide (12 ≤ n) && decide (n ≤ 4064) && n % 4 == 0,
    state := fun c s => firstErr [chanState c s, stateIf s (s.planRuns c.q)],
    fields := fun _ _ => [fP 0 4 (fun v => decide (v ≤ 262142) && v % 2 == 0), fR 4 4,
      fX 8 fun p => decide (u p 0 4 + (p.length - 8) / 2 ≤ 262144)],
    run := fun c s =>
      (s.onChan c.q fun x => { x with coefs := tputs 0 x.coefs (c.u 0 4) ((List.range ((c.p.length - 8) / 2)).map fun n => c.u (8 + 2 * n) 2) }, .ok []) }

/-- CHAN_COEF_READ (R231). -/
def opChanCoefRead : OpSpec :=
  { readOp [.channelizer] 8 (fun c s => (tgets 0 (s.chanl c.q).coefs (c.u 0 4) (c.u 4 4)).flatMap (leBytes 2)) with
    state := chanState,
    fields := fun _ _ => [fP 0 4 (fun v => decide (v ≤ 262142) && v % 2 == 0),
      fX 4 fun p => decide (2 ≤ u p 4 4) && decide (u p 4 4 ≤ 2032) && u p 4 4 % 2 == 0 && decide (u p 0 4 + u p 4 4 ≤ 262144)] }

/-- The channels that the channeliser of an input keeps; 0 outside every range. -/
def State.inputF (s : State) (i : Nat) : Nat :=
  match s.inputQuire i with | some q => (match (s.chanl q).cfg with | some c => c.f | none => 0) | none => 0

/-- GAIN_WRITE (R221, R232). -/
def opGainWrite : OpSpec :=
  { cls := [.intake], timed := true, ctx := [0], ctl := inputCtl, len := none, lenMin := 8,
    lenOk := fun n => decide (8 ≤ n) && decide (n ≤ 4064) && n % 4 == 0,
    state := fun c s => stateIf s (s.inputQuire c.i).isNone,
    fields := fun c s => [fP 0 2 (fun v => decide (v < s.inputF c.i)), fR 2 2,
      fX 4 fun p => decide (u p 0 2 + (p.length - 4) / 2 ≤ s.inputF c.i)],
    run := fun c s =>
      let g : GainPend := { time := c.execTime s, input := c.i, ch := c.u 0 2, vals := (List.range ((c.p.length - 4) / 2)).map fun n => c.u (4 + 2 * n) 2 }
      (match s.inputQuire c.i with
        | some q => s.onChan q fun x => { x with gainPend := x.gainPend ++ [g] }
        | none => s, .ok []) }

/-- GAIN_READ (R232): the gains in force. -/
def opGainRead : OpSpec :=
  { readOp [.intake] 4 (fun c s =>
      match s.inputQuire c.i with
      | some q => (tgets 0 (s.chanl q).gains (c.i * 16384 + c.u 0 2) (c.u 2 2)).flatMap (leBytes 2)
      | none => []) with
    ctx := [0], state := fun c s => stateIf s (s.inputQuire c.i).isNone,
    fields := fun c s => [fP 0 2 (fun v => decide (v < s.inputF c.i)),
      fX 2 fun p => decide (2 ≤ u p 2 2) && decide (u p 2 2 ≤ 2032) && u p 2 2 % 2 == 0 && decide (u p 0 2 + u p 2 2 ≤ s.inputF c.i)] }

/-! ### The corner turn -/

/-- The fields that CT_SET carries (R233). -/
def ctOf (p : List Byte) : CtCfg :=
  { region := u p 0 2, s := u p 2 1, f := u p 4 2, npad := u p 6 2, b := u p 8 4, align := u p 12 2 }

/-- The bytes of CT_SET (R233). -/
def CtCfg.bytes (k : CtCfg) : List Byte :=
  leBytes 2 k.region ++ leBytes 1 k.s ++ zeros 1 ++ leBytes 2 k.f ++ leBytes 2 k.npad ++ leBytes 4 k.b ++ leBytes 2 k.align ++ zeros 2

/-- A plan is active. -/
def State.anyPlan (s : State) : Bool := s.plans.corr.run.active || s.plans.beam.run.active

/-- The region holds two halves (R223). -/
def State.ctFits (s : State) (k : CtCfg) : Bool := decide (2 * (k.f * k.b * k.npad * k.s) ≤ s.regionSize k.region)

/-- The limits of R33 that a new block length must keep while plans run (R225): D, and the export paths. -/
def State.ctCapErr (s : State) (k : CtCfg) : Option Err :=
  firstErr [failIf (decide (1800000000000 < s.liveTraffic k)) eCapacity,
    match s.plans.liveCorr, s.plans.corr.exp with
    | some p, some e => failIf (s.corrExportErr p e k s.plans.corr.run.clk.fch s.plans.liveBeam).isSome eCapacity
    | _, _ => none]

/-- The ranges of CT_SET (R233). -/
def ctFields : List Field :=
  [fU 0 2 0 2047, fU 2 1 1 2, fR 3 1, fU 4 2 1 16384, fP 6 2 (fun v => decide (32 ≤ v) && decide (v ≤ 2048) && v % 32 == 0),
   fP 8 4 (fun v => decide (64 ≤ v) && decide (v ≤ 65536) && v % 64 == 0), fU 12 2 2 1000, fR 14 2]

/-- CT_SET (R213, R223, R225, R233). -/
def opCtSet : OpSpec :=
  { cls := [.device], len := some 16, keys := fun _ => [devKey 0x509],
    state := fun c s => firstErr [stateIf s (s.anyPlan && match s.ct.cfg with
        | some k => let x := ctOf c.p
          decide (x.region ≠ k.region) || decide (x.s ≠ k.s) || decide (x.f ≠ k.f) || decide (x.npad ≠ k.npad)
        | none => false)],
    cap := fun c s =>
      let k := ctOf c.p
      firstErr [c.judge ctFields [12] (failIf (!s.stagingFits k.align) eCapacity),
        if s.anyPlan then c.judge ctFields [2, 4, 6, 8] (s.ctCapErr k) else none],
    fields := fun _ _ => ctFields,
    more := fun c s =>
      let k := ctOf c.p
      firstErr [s.regionErr c.port k.region, failIf (!s.ctFits k) (planErr Status.ctGeometry),
        failIf (match s.plans.liveCorr with | some p => k.b % p.t != 0 | none => false) (planErr Status.ctGeometry)],
    run := fun c s =>
      let k := ctOf c.p
      if s.anyPlan then
        if s.ct.cfg = some k then (s, .ok [])
        else ((s.onCt fun t => { t with pend := some k }).noteD (s.liveTraffic k), .accepted [wait .ct 0 0] false none)
      else
        let s1 := s.onCt fun t => { t with cfg := some k, pend := none, origin := 0, off := 0, was := [], seam := [], void := [], nextB := 0, released := 0, recs := [] }
        (s1.onPlans fun p => { p with corr := { p.corr with numBase := 0 } }, .ok []) }

/-- CT_GET (R233): zeros before the first CT_SET. -/
def opCtGet : OpSpec :=
  readOp [.device] 0 fun _ s =>
    (match s.ct.cfg with | some k => k.bytes | none => zeros 16) ++ leBytes 1 (ofBool s.ct.pend.isSome) ++ zeros 3 ++
      leBytes 4 (s.ct.num (s.ct.nextB - 1))

/-- INTAKE_STATS_GET (R234). -/
def opIntakeStatsGet : OpSpec :=
  { cls := [.intake], ctx := [0, 1], priv := fun _ => .observer, changes := false, len := some 4, keys := fun _ => [],
    fields := fun _ _ => [fU 0 1 0 1, fR 1 3],
    run := fun c s =>
      let clear := c.u 0 1 == 1
      if c.obj.ctx = 0 then
        let x := s.input c.i
        (if clear then s.onInput c.i fun x =>
            { x with frames := 0, missing := 0, flagged := 0, lateFrame := 0, earlyFrame := 0, dup := 0, offgrid := 0, clip := 0, ovf := 0, power := 0 }
          else s,
          .ok ([x.frames, x.missing, x.flagged, x.lateFrame, x.earlyFrame, x.dup, x.offgrid, x.clip, x.ovf].flatMap (leBytes 4) ++ leBytes 8 x.power ++ zeros 4))
      else
        let x := tget .reset s.plans.lanes c.i
        (if clear then s.laneStat c.i fun _ => .reset else s,
          .ok ([x.framesOk, x.formatErr, x.crcErr, x.unknownSrc, x.mismatch, x.idleDrop, x.seqGap].flatMap (leBytes 4) ++ zeros 20)) }

end Sys2Proof.Machine
end

