-- ==== Sys2Proof/Machine/ClkBase.lean ====
section
/-! DEFINITION. The device reference and the core islands (11): which source is selected (R383 to R388), coherence (R521, R522), and
the DVFS governor (R394 to R398). -/
namespace Sys2Proof.Machine

/-! ### The source (R383, R386) -/

/-- REC is a candidate (R356, R383). -/
def State.recCandidate (s : State) : Bool :=
  s.link.tmu.up.isSome && (s.link.tmu.role == .follower || (s.link.tmu.role == .holdover && s.link.tmu.pending.isSome))

/-- REC-HOLD may stay selected: HOLDOVER_MAX has not passed since it began (R386). -/
def State.holdLasts (s : State) : Bool := decide (s.now < s.clk.holdAt + s.clk.cfg.holdMax * uS)

/-- The source that ought to be selected (R383, R386); a source declared lost is not chosen again. -/
def State.bestSource (s : State) : Nat :=
  let c := s.clk
  if s.recCandidate && c.qualR then srcRec
  else if c.sel = srcHold ∧ !c.lostSel ∧ s.holdLasts then srcHold
  else if c.cfg.erefEn && c.qualE then srcEref else srcInt

/-- A live switch is under way where the source that ought to be selected is another than the one selected and that one lives
(R388), or where REC moves to another lane (R356); a second cause replaces its target. A REC that is no candidate any more is not qualified, and a selected one gives way to the
next source; it becomes REC-HOLD only where its input stops (R383, R385). -/
def State.reselect (s : State) : State :=
  let s1 := if s.recCandidate then s else s.onClk fun c => { c with qualR := false }
  if s.clk.lostSel || s.clk.rootReset then s1
  else
    let b := s1.bestSource
    s1.onClk fun c => { c with switchTo := if b = c.sel ∧ c.switchTo ≠ some b then none else some b }

/-! ### Coherence (R521, R522) -/

/-- EV_REF, once in a coarse tick (R408). -/
def State.refEvent (s : State) : State :=
  if s.clk.evTick = some (s.now / uTick) then s
  else (s.fireObj s.clk.cfg.evRef deviceId).onClk fun c => { c with evTick := some (s.now / uTick) }

/-- The selected source counts as coherent (R386, R521). REC-HOLD past its time counts only while EREF is about to take over. -/
def State.countsCoherent (s : State) : Bool :=
  let c := s.clk
  !c.lostSel && !c.rootReset &&
    (c.sel == srcEref || (c.sel == srcRec && decide (s.link.tmu.sel.cls < 0xF0)) ||
      (c.sel == srcHold && decide (s.link.tmu.sel.cls < 0xF0) && (s.holdLasts || c.switchTo == some srcEref || c.switchTo == some srcRec)))

/-- The spans without coherence, after a change at an instant. -/
def Clk.setCoherent (c : Clk) (coh : Bool) (t : Nat) : Clk :=
  match c.incoh, coh with
  | (a, none) :: l, true => { c with incoh := (a, some t) :: l.take 255, everCoh := true, waitCoh := false }
  | l, false => { c with incoh := (t, none) :: l }
  | _, _ => c

/-- COHERENT follows the selected source, with what hangs on it: the NONCOH mutes and EV_REF (R280, R387, R522). -/
def State.recohere (s : State) : State :=
  let coh := s.countsCoherent
  if coh = s.clk.coherent then s else ((s.noting fun s => s.onClk fun c => c.setCoherent coh s.now).noncoh).refEvent

/-- Another source is selected (R388, R389). -/
def State.selectSource (s : State) (src : Nat) : State :=
  ((s.onClk fun c =>
    { c with sel := src, switchTo := none, lostSel := false, lastChange := s.now,
             recPort := if src = srcRec then (match s.link.tmu.up with | some p => p + 1 | none => 0xFF) else if src = srcHold then c.recPort else 0xFF }).refEvent).recohere

/-! ### Core islands (R394 to R398): points 0 to 3 for P0 to P3, 4 for PS -/

def State.coreIsl (s : State) (p : Nat) : CoreIsl := tget .reset s.clk.cores p
def State.onCoreIsl (s : State) (p : Nat) (g : CoreIsl → CoreIsl) : State := s.onClk fun c => { c with cores := tmod .reset c.cores p g }

/-- A Quire is a member of a running plan. -/
def State.inPlan (s : State) (q : Nat) : Bool :=
  [s.plans.corr.run, s.plans.beam.run].any fun r => r.active && r.members.contains q

/-- Weave is enabled on a Quire, or COVAR_RUN runs (R28, R151). -/
def State.weaves (s : State) (q : Nat) : Bool := (tget (.reset q) s.ro q).weave.enable || (tget (.reset q) s.ro q).covar.isSome

/-- They need the pinned crossing of a Quire in CONTROL. -/
def State.needsPin (s : State) (q : Nat) : Bool := (s.pers q == .control && s.weaves q) || (s.pers q == .service && (s.roq q).covar.isSome)

/-- A targeted self-test of the whole physical Quire runs, and one of anything in it. -/
def State.quireTest (s : State) (p : Nat) : Bool := s.svc.tests.any fun t => t.unit.kind == 9 && t.unit.phys == p
def State.anyTest (s : State) (p : Nat) : Bool := s.svc.tests.any fun t => bits t.unit.phys 0 5 == p

/-- The need of a personality (R398). -/
def State.needOf (s : State) (q : Nat) (ps : Pers) : Nat :=
  let plan := fun (r : PlanRun) => if r.active && r.members.contains q then r.point else 3
  match ps with
  | .off => 4
  | .control => if s.weaves q then 1 else 3
  | .correlate | .beamform => min (plan s.plans.corr.run) (plan s.plans.beam.run)
  | .service => if s.anyTest (s.pq q) then 0 else if (s.roq q).covar.isSome then 1 else 3

/-- The need of a logical Quire; one on its way out of SERVICE or OFF needs what its new personality needs (R27, R398). -/
def State.dvfsNeed (s : State) (q : Nat) : Nat :=
  match (s.qb q).pers, (s.qb q).pendPers with
  | .off, some x => s.needOf q x
  | .service, some x => min (s.needOf q .service) (s.needOf q x)
  | x, _ => s.needOf q x

/-- The logical Quire bound to a physical one. -/
def State.boundTo (s : State) (p : Nat) : Option Nat := (List.range 16).find? fun q => s.pq q == p

/-- The point that a core island ought to have: the need, or the fixed point where that is the faster (R398). In BOOT, once the
supplies are good, the Quires run at P0 for their self-tests (R523 B–H). -/
def State.wantedPoint (s : State) (p : Nat) : Nat :=
  if s.dev.st = .off ∨ s.dev.st = .endpaper then 4
  else if s.dev.st = .boot then (if s.clk.sAt.isSome then 0 else 4)
  else match s.boundTo p with
    | some q =>
      let n := s.dvfsNeed q
      let m := tget 0 s.clk.modes q
      if n = 4 ∨ m = 0 then n else min n (m - 1)
    | none => if s.anyTest p then 0 else match s.svc.migration with | some m => if m.target = p then 3 else 4 | none => 4

/-- The time of a transition between two neighbouring points, the faster one given (R396). -/
def transTime (fast : Nat) : Nat := if fast = 0 ∨ fast = 1 then 18 * uUs else 16 * uUs

/-- The sequencer begins its next transition, where it has one to make (R396, R397). A downward one runs at the new frequency at
once. -/
def CoreIsl.begin (c : CoreIsl) (now : Nat) : CoreIsl :=
  if c.trans.isSome ∨ c.use = c.target then c
  else if c.target < c.use then { c with trans := some (c.use - 1, now + transTime (c.use - 1)) }
  else { c with trans := some (c.use + 1, now + transTime c.use), use := c.use + 1, since := now }

/-- The governor (R398): a faster point at once; a slower one only where `lower` allows it, or where no boundary is to be waited
for: a Quire in CORRELATE or BEAMFORM outside every running plan has none. DEDUCED. -/
def State.govern (s : State) (lower : Nat → Bool) : State :=
  (List.range 17).foldl (fun a p =>
    let w := a.wantedPoint p
    let free := match a.boundTo p with | some q => lower q || a.pers q == .off || a.pers q == .service || w == 4 || (a.pers q != .control && !a.inPlan q) | none => true
    if decide (w < (a.coreIsl p).target) || (free && w != (a.coreIsl p).target) then a.onCoreIsl p fun c => ({ c with target := w } : CoreIsl).begin a.now else a) s

/-- The governor where no boundary has come. -/
def State.raisePoints (s : State) : State := s.govern fun _ => false

/-- The islands of the device-reference root (R382): TMU, SPN, LGA, the chiplets and the 17 synthesis islands, and EPI and BSC, which run on the
oscillator in BOOT and in ENDPAPER. -/
def State.rootIslands (s : State) : List Nat := (if s.runs then [1, 15] else []) ++ [2, 3, 8, 11, 12, 13, 14] ++ (List.range 17).map fun p => 33 + p

/-- A forced release is a discontinuity in each of them (R23, R389). -/
def State.countDiscont (s : State) : State :=
  s.onClk fun c => { c with islands := s.rootIslands.foldl (fun t i => tmod .reset t i fun x => { x with discont := inc32 x.discont }) c.islands }

end Sys2Proof.Machine
end

