-- ==== Sys2Proof/Machine/Plans.lean ====
section
/-! DEFINITION. What the plans do (07): block boundaries, accumulation, integrations and their exports, beams. -/
namespace Sys2Proof.Machine

def State.onCorr (s : State) (g : Corr → Corr) : State := s.onPlans fun p => { p with corr := g p.corr }
def State.onBeam (s : State) (g : Beam → Beam) : State := s.onPlans fun p => { p with beam := g p.beam }
def State.onCorrRun (s : State) (g : PlanRun → PlanRun) : State := s.onCorr fun c => { c with run := g c.run }
def State.onBeamRun (s : State) (g : PlanRun → PlanRun) : State := s.onBeam fun c => { c with run := g c.run }

/-- The clock of the plans that are active. -/
def Plans.clk (p : Plans) : PlanClk := if p.corr.run.active then p.corr.run.clk else p.beam.run.clk

/-- The label of the first channel sample of a block, by its serial number (R238). -/
def State.blockLabel (s : State) (blk : Nat) : Nat :=
  match s.ct.cfg with
  | some k => s.plans.clk.label (s.ct.origin + s.ct.num blk * k.b)
  | none => 0

/-- The boundary before block `m` is an integration boundary for logical Quire `q` (R238): every block boundary is one, but for the members of an
active correlation plan. -/
def State.integrationEdge (s : State) (q m : Nat) : Bool :=
  match s.plans.corr.cfg with
  | some p => !(s.plans.corr.run.active && s.plans.corr.run.members.contains q) || s.ct.num m % p.nblk == 0
  | none => true

/-- Units are dealt again to the members of the correlation plan, and the DVFS point is chosen (R241, R243): false where the
plan no longer fits at PMAX. -/
def State.corrDeal (s : State) : State × Bool :=
  match s.plans.corr.cfg, s.ct.cfg with
  | some p, some k =>
    match s.umaxOf s.plans.corr.run.members (p.tiles k.npad).length p.passes with
    | none => (s, false)
    | some u => match pointFor p.pmax u (p.bw k s.plans.corr.run.clk.fch) with
      | none => (s, false)
      | some pt =>
        (s.onCorrRun fun r =>
          { r with umax := u, point := pt, arrays := r.members.foldl (fun n q => n + (s.arraysOf q).length) 0 }, true)
  | _, _ => (s, false)

/-- The same for the beam plan. -/
def State.beamDeal (s : State) : State × Bool :=
  match s.plans.beam.cfg, s.ct.cfg with
  | some p, some k =>
    match s.umaxOf s.plans.beam.run.members (p.tileCount k.npad) p.passes with
    | none => (s, false)
    | some u => match pointFor p.pmax u (p.bw s.plans.beam.run.clk.fch) with
      | none => (s, false)
      | some pt =>
        (s.onBeamRun fun r =>
          { r with umax := u, point := pt, arrays := r.members.foldl (fun n q => n + (s.arraysOf q).length) 0 }, true)
  | _, _ => (s, false)

/-! ### Export paths -/

/-- The export paths of a CORR_EXPORT_SET come into force: its DMA channel is bound, the old one freed. -/
def State.corrExportApply (s : State) (e : CorrExport) : State :=
  let old := match s.plans.corr.exp with | some x => if bitOf x.paths 0 then some x.dma else none | none => none
  let s1 := match old with | some n => if bitOf e.paths 0 ∧ e.dma = n then s else s.dmaUnbind n | none => s
  let s2 := if bitOf e.paths 0 ∧ old ≠ some e.dma then s1.dmaBind e.dma (.corr 0 0) else s1
  s2.onCorr fun c => { c with exp := some e, expPend := none }

/-- Export paths that wait come into force at an integration boundary, or when the plan has stopped (R256). -/
def State.corrPathsAct (s : State) : State :=
  match s.plans.corr.expPend with
  | some e => (s.corrExportApply e).resolve (wait .corrExport 0 0) []
  | none => s

/-- The host interface is reset: its path is lost to the exports, which go on over the ports (R256). DEDUCED. -/
def Corr.noHost (c : Corr) : Corr :=
  let off := fun (e : CorrExport) => { e with paths := e.paths / 2 * 2, dma := 0xFF }
  { c with exp := c.exp.map off, finished := c.finished.map fun x => { x with exp := x.exp.map off } }
def Beam.noHost (b : Beam) : Beam :=
  { b with exps := b.exps.map fun e => (e.1, (List.range e.2.length).map fun i => if i = 0 then none else lget none e.2 i) }

/-! ### Boundaries (R238, R252, R256, R259, R265, R269, R270) -/

/-- A drained plan has stopped: a CORR_STOP ends, and export paths that wait come into force (R256, R265, R270). -/
def State.corrDrained (s : State) : State :=
  let c := s.plans.corr
  if c.cur.isEmpty && c.finished.isEmpty && c.run.st == .stopping && (c.stop == some 2 || c.stop == some 3) then
    let s1 := ((s.onCorrRun fun r => { r with st := if c.stop = some 2 then .stoppedCapacity else .idle }).onCorr fun c => { c with stop := none }).resolve
      (wait .corrStop 0 0) []
    s1.corrPathsAct.raisePoints
  else s

/-- A new integration that begins at block `m`. -/
def Corr.begin (c : Corr) (m number label nblk : Nat) : Corr :=
  { c with
    cur := c.cur ++ [{ number := number, first := m, time := label, last := m + nblk, blocks := 0, flags := 0, sat := 0,
                       blankedSum := 0, weights := [], discard := false, exp := none }],
    nextNumber := number + 1 }

/-- The integrations with the one in progress at block `m` cut there, and flags set (R256, R265): SHORT where it has not its
NBLK blocks. -/
def Corr.cutAt (c : Corr) (m flags : Nat) : Corr :=
  { c with cur := c.cur.map fun x =>
      if x.first < m ∧ m < x.last then { x with last := m, flags := x.flags ||| 2 ||| flags } else x }

/-- The correlation plan at the boundary before block `m`. Where its units no longer fit, it stops there (R265): a plan that was about to start does not
start, and its CORR_START ends with E_CAPACITY. DESIGN CHOICE. -/
def State.corrBoundary (s : State) (m : Nat) : State :=
  match s.plans.corr.cfg with
  | none => s
  | some p =>
    let c := s.plans.corr
    let n := s.ct.num m
    let isInt := n % p.nblk == 0
    let label := s.blockLabel m
    let start := fun (s : State) => s.onCorr fun c => c.begin m (c.numBase + n / p.nblk) label p.nblk
    let begins := c.run.st == .pending && decide (c.run.start ≤ label) && isInt
    let runs := c.run.st == .running || (c.run.st == .stopping && (c.stop == some 0 || c.stop == some 1))
    if begins || runs then
      let (s1, fits) := if c.redo then s.corrDeal else (s, true)
      let s1 := s1.onCorr fun c => { c with redo := false }
      if !fits then
        let s2 := (s1.onCorr fun c => { c.cutAt m 0 with stop := some 2 }).onCorrRun fun r => { r with st := .stopping, refuse := maskQuires p.qmask }
        (if begins then s2.failWait (wait .corrStart 0 0) (planCap 1) else s2).corrDrained
      else if begins then (((start s1.corrPathsAct).onCorrRun fun r => { r with st := .running, proc := m }).resolve (wait .corrStart 0 0) [])
      else if c.stop = some 1 then
        ((s1.onCorr fun c => { c with cur := c.cur.filter (fun x => decide (x.last ≤ m)), stop := some 3 }).resolve (wait .corrStop 0 0) []).corrDrained
      else if isInt then
        let s2 := s1.corrPathsAct
        if c.stop = some 0 then (s2.onCorr fun c => { c with stop := some 3 }).corrDrained else start s2
      else s1
    else if isInt && c.run.active then s.corrPathsAct
    else s

/-- How many of its beams a path sends, of the paths in force from block `m` on: a port those that fit its capacity, and never one that it has stopped
(R262). -/
def State.pathKeeps (s : State) (p : BeamCfg) (m : Nat) (x : BeamPath) (i : Nat) : Nat :=
  let was := match s.plans.beam.kept.find? fun e => e.1 == (m, i) with | some e => e.2 | none => x.count
  if 1 ≤ i ∧ i ≤ 4 then
    (List.range (was + 1)).foldl (fun (n c : Nat) =>
      if (c : Rat) * p.beamRate s.plans.beam.run.clk.fch ≤ s.pathCap i then max n c else n) 0
  else was

/-- The ports stop the beams that they cannot carry, whenever their lanes have changed (R262). -/
def State.beamsFit (s : State) : State :=
  match s.plans.liveBeam with
  | none => s
  | some p => s.plans.beam.exps.foldl (fun (z : State) y => (List.range 5).foldl (fun (a : State) i =>
      match lget none y.2 i with
      | some x =>
        let keep := a.pathKeeps p y.1 x i
        if keep < x.count then a.onBeam fun b => { b with kept := ((y.1, i), keep) :: b.kept.filter fun e => e.1 != (y.1, i) } else a
      | none => a) z) s

/-- The beam paths come into force from block `m` on; STAGE_POS is 0 without STAGE (R274). -/
def State.beamExportApply (s : State) (m : Nat) (paths : List (Option BeamPath)) : State :=
  let chan := fun (l : List (Option BeamPath)) => match lget none l 0 with
    | some x => some (x.addr / 2 ^ 24 % 16) | none => none
  let old := chan s.plans.beam.paths
  let new := chan paths
  let s1 := match old with | some n => if new = some n then s else s.dmaUnbind n | none => s
  let s2 := match new with | some n => if old = some n then s1 else s1.dmaBind n (.beam 0 0) | none => s1
  (s2.onBeam fun b =>
    { b with exps := (m, paths) :: b.exps.take 3, expPend := none, kept := b.kept.filter fun e => e.1.1 != m, stagePos := if (lget none paths 5).isSome then b.stagePos else 0 }).beamsFit

/-- A weight bank that waits is active from block `m` on, where its time has come (R259). -/
def State.beamBankAct (s : State) (m : Nat) (due : Nat → Bool) : State :=
  match s.plans.beam.bankPend with
  | some (k, t) => if due t then (s.onBeam fun b => { b with banks := (m, k) :: b.banks.take 3, bankPend := none }).resolve (wait .beamCommit 0 0) [] else s
  | none => s

/-- Beam paths that wait come into force from block `m` on (R272). -/
def State.beamPathsAct (s : State) (m : Nat) : State :=
  match s.plans.beam.expPend with
  | some e => (s.beamExportApply m e).resolve (wait .beamExport 0 0) []
  | none => s

/-- The beam plan has sent its last block: it has stopped, and what waited for a block boundary comes about (R259, R265, R270, R272). DESIGN CHOICE. -/
def State.beamDrained (s : State) : State :=
  let m := s.plans.beam.run.proc
  let s1 := (s.onBeam fun b => { b with last := none }).onBeamRun fun r => { r with st := if r.refuse.isEmpty then .idle else .stoppedCapacity }
  ((s1.beamBankAct m fun _ => true).beamPathsAct m).raisePoints

/-- The beam plan at the boundary before block `m`: what waits for a block boundary comes about while the plan waits for its start or drains too. Where
its units no longer fit, it stops there (R265), as the correlation plan does. -/
def State.beamBoundary (s : State) (m : Nat) : State :=
  match s.plans.beam.cfg with
  | none => s
  | some p =>
    let b := s.plans.beam
    if !b.run.active then s
    else
      let s1 := (s.beamBankAct m fun t => decide (t ≤ s.blockLabel m)).beamPathsAct m
      let begins := b.run.st == .pending && decide (b.run.start ≤ s.blockLabel m)
      let runs := b.run.st == .running || (b.run.st == .stopping && b.last == none)
      if begins || runs then
        let (s2, fits) := if b.redo then s1.beamDeal else (s1, true)
        let s2 := s2.onBeam fun b => { b with redo := false }
        let s3 := if begins then s2.onBeamRun fun r => { r with st := .running, proc := m } else s2
        if !fits then
          let s4 := (s3.onBeam fun b => { b with last := some m, stop := false }).onBeamRun fun r => { r with st := .stopping, refuse := maskQuires p.qmask }
          let s5 := if begins then s4.failWait (wait .beamStart 0 0) (planCap 1) else s4.resolve (wait .beamStop 0 0) []
          if s5.plans.beam.run.proc = m then s5.beamDrained else s5
        else if begins then s3.resolve (wait .beamStart 0 0) []
        else if b.stop then
          let s4 := (s3.onBeam fun b => { b with last := some m, stop := false }).resolve (wait .beamStop 0 0) []
          if s4.plans.beam.run.proc = m then s4.beamDrained else s4
        else s3
      else s1

/-- A plan is running or about to, so that block boundaries come. -/
def State.blocksCome (s : State) : Bool := s.plans.corr.run.active || s.plans.beam.run.active

/-- What the plans do at the next block boundary (R238), the present instant. -/
def State.planBoundary (s : State) : State :=
  let m := s.ct.nextB
  ((s.corrBoundary m).beamBoundary m).onCt fun k => { k with nextB := m + 1 }

/-! ### Accumulation (R245 to R250) -/

/-- The value of input `i` at sample `t` of channel `c` in a half of the corner-turn region (R220, R223). -/
def State.ctVal (s : State) (k : CtCfg) (half c t i : Nat) : Iq :=
  let o := k.offset half c t i
  if k.s = 1 then
    let b := (s.memByte k.region o).toNat
    ⟨toSigned 4 b, toSigned 4 (b / 16)⟩
  else ⟨(s.memByte k.region o).toInt, (s.memByte k.region (o + 1)).toInt⟩

/-- The losses of an input in a block: an input without a record is absent. -/
def State.blockRec (s : State) (blk i : Nat) : BlockRec :=
  match s.ct.recs.find? fun r => r.block == blk && r.input == i with
  | some r => r
  | none => { block := blk, input := i, missing := 0, flagged := 0, absent := true }

/-- An input is treated as zero for a whole block: blanked (R248), or absent. -/
def State.blanked (s : State) (p : CorrCfg) (blk i : Nat) : Bool :=
  let r := s.blockRec blk i
  r.absent || (p.blank && decide (p.blankThr < r.missing + r.flagged))

/-- x_i × conj(x_j) over the samples of a block (R239, R246). -/
def State.product (s : State) (k : CtCfg) (half c i j : Nat) (zi zj : Bool) : Iq :=
  if zi || zj then ⟨0, 0⟩
  else (List.range k.b).foldl (fun a t =>
    let x := s.ctVal k half c t i
    let y := s.ctVal k half c t j
    ⟨a.i + x.i * y.i + x.q * y.q, a.q + x.q * y.i - x.i * y.q⟩) ⟨0, 0⟩

/-- The offset of a slot (R250). -/
def CorrCfg.slotOffset (p : CorrCfg) (k : CtCfg) (h c tile r x : Nat) : Nat :=
  (h * k.f + c) * (p.slots k.npad * 8) + (1024 * tile + 32 * r + x) * 8

/-- A slot's value. -/
def State.slotVal (s : State) (region off : Nat) : Iq :=
  let b := s.memRead region off 8
  ⟨sfld b 0 4, sfld b 4 4⟩

/-- A component saturated at ±(2^31 − 1) (R247). -/
def satVis (v : Int) : Int := clampI (-(2 ^ 31 - 1)) (2 ^ 31 - 1) v

/-- Adds a partial sum into a slot: the first block of an integration writes it (R246); the saturations are counted. -/
def State.addSlot (s : State) (region off : Nat) (first : Bool) (v : Iq) : State × Nat :=
  let o := if first then ⟨0, 0⟩ else s.slotVal region off
  let i := satVis (o.i + v.i)
  let q := satVis (o.q + v.q)
  (s.memWrite region off (leBytes 4 (ofSigned 32 i) ++ leBytes 4 (ofSigned 32 q)),
    ofBool (i != o.i + v.i) + ofBool (q != o.q + v.q))

/-- Adds the tiles of one channel, from tile number `n` on. -/
def State.addTiles (s : State) (p : CorrCfg) (k : CtCfg) (blk half h c : Nat) (first : Bool) :
    Nat → List (Nat × Nat) → Nat → State × Nat
  | _, [], sat => (s, sat)
  | n, (a, b) :: ts, sat =>
    let r := (List.range 1024).foldl (fun (x : State × Nat) cell =>
      let i := 32 * a + cell / 32
      let j := 32 * b + cell % 32
      let y := x.1.addSlot p.vregion (p.slotOffset k h c n (cell / 32) (cell % 32)) first
        (s.product k half c i j (s.blanked p blk i) (s.blanked p blk j))
      (y.1, x.2 + y.2)) (s, sat)
    r.1.addTiles p k blk half h c first (n + 1) ts r.2

/-- The weights after a block (R248, R249). -/
def State.addWeights (s : State) (p : CorrCfg) (k : CtCfg) (blk : Nat) (x : Integ) : Integ :=
  (List.range k.npad).foldl (fun x i =>
    let r := s.blockRec blk i
    let z := s.blanked p blk i
    { x with
      weights := tmod ⟨0, 0, 0⟩ x.weights i fun w =>
        if z then { w with blanked := w.blanked + 1 }
        else { w with missing := w.missing + r.missing, flagged := w.flagged + r.flagged },
      blankedSum := x.blankedSum + ofBool z }) x

/-- The records of blocks that no plan needs any more are dropped. -/
def State.dropRecs (s : State) : State :=
  let r := s.readTo
  s.onCt fun k => { k with void := k.void.filter fun e => decide (r ≤ e), recs := k.recs.filter fun e => decide (r ≤ e.block), was := k.was.filter fun e => decide (r < e.1) }

/-- The cell-ops of some tiles of `p` passes, each of `n` cells and samples, are counted: for the device, and for each Quire that held
them (R241, R406). -/
def State.creditCells (s : State) (members : List Nat) (tiles p n : Nat) : State :=
  let l := dealTiles p tiles (members.map fun q => (q, (s.arraysOf q).length, 0))
  s.onClk fun c => { c with cellops := (c.cellops + tiles * p * n) % 2 ^ 64,
                            qcells := l.foldl (fun t x => tmod 0 t x.1 fun v => (v + x.2.2 * n) % 2 ^ 64) c.qcells }

/-- CHANNEL_ADD: the arrays have finished the next channel of the next released block, and its partial sums are added to the
visibility accumulators (R246). A block in no integration is processed and discarded, and its cell-ops
count (R256, R274); none is processed after the last boundary of a plan that stops. The first add into the buffer of an export that has not completed waits for OVERRUN. -/
def execChannelAdd (s : State) : Host.Outcome State Fault Refusal :=
  let c := s.plans.corr
  let blk := c.run.proc
  match c.cfg, s.ct.cfg with
  | some p, some k =>
    if !c.run.active || c.run.st == .pending || decide (s.ct.released ≤ blk) then .next s
    else
      match c.cur.find? fun x => decide (x.first ≤ blk) && decide (blk < x.last) with
      | none =>
        let s1 := (s.onCorr fun c => { c with chan := 0 }).onCorrRun fun r => { r with proc := blk + 1 }
        if c.stop = some 2 ∨ c.stop = some 3 then .next s1.dropRecs
        else
          let tiles := (p.tiles k.npad).length
          .next ((s1.onCorrRun fun q => { q with cellops := (q.cellops + tiles * 1024 * k.b * p.passes * k.f) % 2 ^ 64 }).creditCells c.run.members tiles p.passes
            (1024 * k.b * k.f)).dropRecs
      | some x =>
        let first := blk == x.first
        if first && c.chan == 0 && c.finished.any fun y => y.number % 2 == x.number % 2 then .next s
        else
          let tiles := p.tiles k.npad
          let r := s.addTiles p k blk (s.ct.half blk) (x.number % 2) c.chan first 0 tiles 0
          let endB := c.chan + 1 == k.f
          let x1 := { x with sat := x.sat + r.2 }
          let x2 := if endB then { s.addWeights p k blk x1 with blocks := x.blocks + 1 } else x1
          let s1 := r.1.onCorr fun c => { c with chan := if endB then 0 else c.chan + 1, cur := c.cur.map fun y => if y.number = x.number then x2 else y }
          let s2 := s1.onCorrRun fun q =>
            { q with sat := satAdd 32 q.sat r.2, cellops := (q.cellops + tiles.length * 1024 * k.b * p.passes) % 2 ^ 64,
                     blanked := satAdd 32 q.blanked (x2.blankedSum - x.blankedSum),
                     proc := if endB then blk + 1 else blk }
          let s3 := (s2.creditCells c.run.members tiles.length p.passes (1024 * k.b)).onClk fun c => { c with pairs := (c.pairs + p.items true k.npad * k.b) % 2 ^ 64 }
          .next (if endB then s3.dropRecs else s3)
  | _, _ => .next s

/-- INTEGRATION_FINISHED: the last channel of the oldest integration's last block has been added, and its export starts on
the paths now in force (R252). -/
def execIntegrationFinished (s : State) : Host.Outcome State Fault Refusal :=
  let c := s.plans.corr
  match c.cur with
  | [] => .next s
  | x :: xs =>
    if x.last ≤ c.run.proc ∧ c.chan = 0 then
      .next (s.onCorr fun c => { c with cur := xs, finished := c.finished ++ [{ x with exp := c.exp }] })
    else .next s

/-! ### Records (R251, R254, R255) -/

/-- The header of a record (R255). -/
def recHeader (kind plan flags number time chan beam off count len : Nat) : List Byte :=
  leBytes 1 kind ++ leBytes 1 plan ++ leBytes 2 flags ++ leBytes 4 number ++ dtBytes time ++ leBytes 2 chan ++ leBytes 2 beam ++
    leBytes 4 off ++ leBytes 2 count ++ leBytes 2 len

/-- The tile of a pair of tile coordinates (R239). -/
def CorrCfg.tileIdx (p : CorrCfg) (a b : Nat) : Nat := if p.rect then (a - p.na / 32) * (p.na / 32) + b else a * (a + 1) / 2 + b

/-- The slots of a channel in the order of the export, as offsets in the channel (R251). -/
def CorrCfg.slotOrder (p : CorrCfg) (k : CtCfg) (baseline : Bool) : List Nat :=
  if !baseline then List.range (p.slots k.npad)
  else
    let slot := fun i j => 1024 * p.tileIdx (i / 32) (j / 32) + 32 * (i % 32) + j % 32
    if p.rect then ((List.range k.npad).drop p.na).flatMap fun i => (List.range p.na).map fun j => slot i j
    else (List.range k.npad).flatMap fun i => (List.range (i + 1)).map fun j => slot i j

/-- A list in pieces of `n`, with the place of each. -/
def pieces {α : Type} (n : Nat) (l : List α) : List (Nat × List α) :=
  (List.range (ceilDiv l.length n)).map fun i => (i * n, (l.drop (i * n)).take n)

/-- The records of an integration before END, in order (R254). -/
def State.integRecords (s : State) (p : CorrCfg) (k : CtCfg) (e : CorrExport) (x : Integ) : List (List Byte) :=
  let order := pieces 512 (p.slotOrder k e.baseline)
  let base := fun c => (x.number % 2 * k.f + c) * (p.slots k.npad * 8)
  (List.range k.f).flatMap (fun c => order.map fun pc =>
    recHeader 1 0 0 x.number x.time c 0 pc.1 pc.2.length (8 * pc.2.length) ++
      pc.2.flatMap fun sl => s.memRead p.vregion (base c + 8 * sl) 8) ++
  (pieces 256 (List.range k.npad)).map fun pc =>
    recHeader 2 0 0 x.number x.time 0 0 pc.1 pc.2.length (16 * pc.2.length) ++ pc.2.flatMap fun i =>
      let w := tget ⟨0, 0, 0⟩ x.weights i
      leBytes 4 w.missing ++ leBytes 4 w.flagged ++ leBytes 4 w.blanked ++ zeros 4

/-- The END record (R255, R256). -/
def endRecord (x : Integ) (trunc : Bool) : List Byte :=
  recHeader 3 0 (ofBool trunc + x.flags + (if x.sat = 0 then 0 else 16)) x.number x.time 0 0 0 0 16 ++
    leBytes 4 x.blocks ++ leBytes 4 x.blankedSum ++ leBytes 4 x.sat ++ zeros 4

/-- The path with the lowest ratio of bytes sent to capacity, the lowest number on a tie (R254): entries are the path, its
capacity and its bytes. -/
def nextPath : List (Nat × Rat × Nat) → Option Nat
  | [] => none
  | x :: xs =>
    match nextPath xs with
    | none => if x.2.1 = 0 then none else some x.1
    | some n =>
      if x.2.1 = 0 then some n
      else match xs.find? fun y => y.1 == n with
        | some y => if (x.2.2 : Rat) * y.2.1 ≤ (y.2.2 : Rat) * x.2.1 then some x.1 else some n
        | none => some x.1

/-- A record leaves on a path: through the DMA channel, or as a BULK frame on a port. -/
def State.sendRecord (s : State) (path dma addr : Nat) (rec : List Byte) : State :=
  if path = 0 then s.dmaRecord dma rec
  else (s.sendFrame (path - 1) 5 addr s.dev.addr 0 rec).1

/-- Records sent one after the other, striped over the paths (R254). -/
def State.stripe (s : State) (e : CorrExport) : List (Nat × Nat) → List (List Byte) → State
  | _, [] => s
  | sent, r :: rs =>
    let l := e.list.map fun i => (i, (if i = 0 ∧ !s.hostUp then 0 else s.pathCap i), tget 0 sent i)
    match nextPath l with
    | none => s
    | some i => (s.sendRecord i e.dma (lget 0 e.addrs (i - 1)) r).stripe e (tmod 0 sent i fun n => n + r.length) rs

/-- EXPORT_COMPLETE: the oldest export has sent its last record (R254): EV_INTEG fires, and a plan that was stopped has
stopped when its last export has ended (R270). -/
def execExportComplete (s : State) : Host.Outcome State Fault Refusal :=
  let c := s.plans.corr
  match c.finished, c.cfg, s.ct.cfg with
  | x :: xs, some p, some k =>
    match x.exp with
    | none => .next ((s.onCorr fun c => { c with finished := xs }).corrDrained)
    | some e =>
      if e.list.all fun i => decide (s.pathCap i = 0) then .next s
      else
        let s1 := s.stripe e [] (s.integRecords p k e x ++ [endRecord x false])
        let s2 := (s1.onCorr fun c => { c with finished := xs }).onCorrRun fun r => { r with exported := inc32 r.exported }
        .next ((s2.fireObj p.evInteg deviceId).corrDrained)
  | _, _, _ => .next s

/-- OVERRUN: an export has not completed before the first add into its buffer (R252): of its records the first
`sentRecords` have left, the others are abandoned, and END carries TRUNC. -/
def execOverrun (sentRecords : Nat) (s : State) : Host.Outcome State Fault Refusal :=
  let c := s.plans.corr
  match c.finished, c.cfg, s.ct.cfg with
  | x :: xs, some p, some k =>
    if c.cur.any fun y => (c.finished.any fun z => z.number % 2 == y.number % 2) && y.first == c.run.proc && decide (y.first < s.ct.released) then
      let s1 := match x.exp with
        | some e => s.stripe e [] ((s.integRecords p k e x).take sentRecords ++ [endRecord x true])
        | none => s
      let s2 := (s1.onCorr fun c => { c with finished := xs }).onCorrRun fun r => { r with overrun := inc32 r.overrun }
      .next (((s2.fireObj p.evInteg deviceId).fireObj p.evAlarm deviceId).corrDrained)
    else .next s
  | _, _, _ => .next s

/-! ### Beams (R257 to R262) -/

/-- The weight of beam `m`, input `i` in a bank (R259). -/
def State.weight (s : State) (p : BeamCfg) (npad bank c m i : Nat) : Iq :=
  let g := (c - p.ch0) / p.wgroup
  let o := bank * p.bankSize npad + g * (p.nbeam * npad * 2) + m * (npad * 2) + i * 2
  ⟨(s.memByte p.wregion o).toInt, (s.memByte p.wregion (o + 1)).toInt⟩

/-- One beam sample, and how many of its components clipped (R257). -/
def State.beamSample (s : State) (p : BeamCfg) (k : CtCfg) (blk bank c t m : Nat) : Iq × Nat :=
  let a := (List.range k.npad).foldl (fun (a : Iq) i =>
    if (s.blockRec blk i).absent then a
    else
      let w := s.weight p k.npad bank c m i
      let x := s.ctVal k (s.ct.half blk) c t i
      ⟨a.i + w.i * x.i - w.q * x.q, a.q + w.i * x.q + w.q * x.i⟩) ⟨0, 0⟩
  let y : Iq := ⟨roundDiv a.i (2 ^ p.bshift), roundDiv a.q (2 ^ p.bshift)⟩
  let mx : Int := if p.outBits = 4 then 7 else 127
  let z : Iq := ⟨clampI (-mx) mx y.i, clampI (-mx) mx y.q⟩
  (z, ofBool (z.i != y.i) + ofBool (z.q != y.q))

/-- The bank of a block. -/
def Beam.bankOf (b : Beam) (blk : Nat) : Nat := match b.banks.find? fun e => decide (e.1 ≤ blk) with | some e => e.2 | none => 0
/-- The paths of a block. -/
def Beam.pathsOf (b : Beam) (blk : Nat) : List (Option BeamPath) :=
  match b.exps.find? fun e => decide (e.1 ≤ blk) with | some e => e.2 | none => []

/-- The block from which they have been in force. -/
def Beam.expAt (b : Beam) (blk : Nat) : Nat := match b.exps.find? fun e => decide (e.1 ≤ blk) with | some e => e.1 | none => 0

/-- The records of one beam and channel in a block (R261). -/
def State.beamRecords (s : State) (p : BeamCfg) (k : CtCfg) (blk bank c m : Nat) : List (List Byte) :=
  (pieces (min (4096 / (p.outBits / 4)) k.b) (List.range k.b)).map fun pc =>
    let data := pc.2.flatMap fun t => sampleBytes (p.outBits / 4) (s.beamSample p k blk bank c t m).1
    recHeader 4 1 0 (s.ct.num blk % 2 ^ 32) (s.blockLabel blk) c m pc.1 pc.2.length data.length ++ data

/-- A record written to the STAGE ring: whole, at the start where it would pass the end (R261). -/
def State.stageWrite (s : State) (region : Nat) (rec : List Byte) : State :=
  let pos := if s.regionSize region < s.plans.beam.stagePos + rec.length then 0 else s.plans.beam.stagePos
  (s.memWrite region pos rec).onBeam fun b => { b with stagePos := pos + rec.length }

/-- One path's beams of a block leave: the beams not sent are counted and the alarm fires. -/
def State.beamPathOut (s : State) (p : BeamCfg) (k : CtCfg) (blk bank i : Nat) (x : BeamPath) : State :=
  let keep := s.pathKeeps p (s.plans.beam.expAt blk) x i
  let recs := (List.range keep).flatMap fun n => (List.range p.nch).flatMap fun c =>
    s.beamRecords p k blk bank (p.ch0 + c) (x.first + n)
  let s1 := recs.foldl (fun a r =>
    if i = 5 then a.stageWrite x.addr r else a.sendRecord i (x.addr / 2 ^ 24 % 16) (if i = 0 then 0 else x.addr) r) s
  if keep < x.count then
    (s1.onBeamRun fun r => { r with pathLost := satAdd 32 r.pathLost (x.count - keep) }).fireObj p.evAlarm deviceId
  else s1

/-- BEAM_BLOCK_OUTPUT: the beams of the next released block are complete, and leave on their paths (R257, R261). A block that a step of device time has cut is
processed and discarded (R238, R256). -/
def execBeamBlockOutput (s : State) : Host.Outcome State Fault Refusal :=
  let b := s.plans.beam
  let blk := b.run.proc
  match b.cfg, s.ct.cfg with
  | some p, some k =>
    if !(b.run.st == .running || b.run.st == .stopping) || decide (s.ct.released ≤ blk) then .next s
    else
      let bank := b.bankOf blk
      let clips := (List.range p.nch).foldl (fun n c => (List.range p.nbeam).foldl (fun n m =>
        (List.range k.b).foldl (fun n t => n + (s.beamSample p k blk bank (p.ch0 + c) t m).2) n) n) 0
      let void := s.ct.void.contains blk
      let s1 := if void then s else (List.range 6).foldl (fun a i => match lget none (b.pathsOf blk) i with
        | some x => a.beamPathOut p k blk bank i x
        | none => a) s
      let s2 := s1.onBeamRun fun r =>
        { r with proc := blk + 1, clip := if void then r.clip else satAdd 32 r.clip clips, exported := if void then r.exported else inc32 r.exported,
                 cellops := (r.cellops + p.tileCount k.npad * 1024 * k.b * p.passes * p.nch) % 2 ^ 64 }
      let s3 := ((s2.creditCells b.run.members (p.tileCount k.npad) p.passes (1024 * k.b * p.nch)).fireObj (if void then 0xFFFF else p.evBlock) deviceId).dropRecs
      .next (match b.last with
        | some m => if blk + 1 < m then s3
            else s3.beamDrained
        | none => s3)
  | _, _ => .next s

/-- CT_WRAP: the writer returns to half 0, the reader has finished, and a deferred CT_SET takes effect (R225, R256). Blocks are counted again only where B changes
(R224). -/
def execCtWrap (s : State) : Host.Outcome State Fault Refusal :=
  match s.ct.cfg, s.ct.pend with
  | some k, some k' =>
    let m := s.ct.released
    let n := s.ct.num m
    let at' := s.ct.origin + n * k.b
    let idle := fun (r : PlanRun) => !r.active || r.st == .pending || r.proc == m
    if n % 2 = 0 ∧ s.ct.nextB ≤ m + 1 ∧ idle s.plans.corr.run ∧ idle s.plans.beam.run ∧
        s.chanQuires.all (fun q => (s.chanl q).next == at') then
      if k'.b = k.b then .next ((s.onCt fun c => { c with cfg := some k', pend := none }).resolve (wait .ct 0 0) []) else
      let s1 := s.onCt fun c => { c with cfg := some k', pend := none, origin := at', off := -(m : Int), seam := [] }
      let s2 := s1.onCorr fun c =>
        { c.cutAt m 0 with numBase := match c.cur.find? fun x => x.first == m with | some x => x.number | none => c.nextNumber }
      let s3 := match s2.plans.corr.cfg with
        | some p => if s2.plans.corr.run.st = PState.running ∧ s2.ct.nextB = m + 1 then
            s2.onCorr fun c => if c.cur.any fun x => x.first == m then c else c.begin m c.numBase (s2.blockLabel m) p.nblk
          else s2
        | none => s2
      .next (s3.resolve (wait .ct 0 0) [])
    else .next s
  | _, _ => .next s

end Sys2Proof.Machine
end

