-- ==== Sys2Proof/Machine/PlanOps.lean ====
section
/-! DEFINITION. The plan opcodes 0x0600 to 0x060B (07, R266 to R274). -/
namespace Sys2Proof.Machine

/-- The resources of the two plans (R52). -/
def corrKey : Nat := devKey 0x600
def corrExpKey : Nat := devKey 0x602
def beamKey : Nat := devKey 0x605
def beamExpKey : Nat := devKey 0x607
def beamBankKey : Nat := devKey 0x608

/-- The Quires of the plan as it is set (R266). -/
def corrCtl (s : State) : List Nat := match s.plans.corr.cfg with | some p => maskQuires p.qmask | none => []
def beamCtl (s : State) : List Nat := match s.plans.beam.cfg with | some p => maskQuires p.qmask | none => []

/-- An event field of a plan: field number, producer (R499). Fields 0x600 and 0x601 are EV_INTEG and EV_ALARM, 0x605 and 0x606
the beam plan's EV_BLOCK and EV_ALARM. -/
def corrEvents (p : List Byte) : List EvField := [evField 0x600 true (u p 24 2), evField 0x601 true (u p 26 2)]
def beamEvents (p : List Byte) : List EvField := [evField 0x605 true (u p 16 2), evField 0x606 true (u p 18 2)]

/-- After a plan has stopped for want of capacity the next plan command gets E_CAPACITY (R265). -/
def afterCapacity (corr : Bool) (run : Cmd → State → State × Res) (c : Cmd) (s : State) : State × Res :=
  let r := if corr then s.plans.corr.run else s.plans.beam.run
  if r.refuse.isEmpty then run c s
  else ((if corr then s.onCorrRun fun r => { r with refuse := [] } else s.onBeamRun fun r => { r with refuse := [] }), .fail (planCap 1))

/-- The fields that CORR_PLAN_SET carries (R267). -/
def corrOf (p : List Byte) : CorrCfg :=
  { qmask := u p 0 2, mode := u p 2 1, rect := u p 3 1 == 1, na := u p 4 2, t := u p 8 4, nblk := u p 12 4, vregion := u p 16 2,
    pmax := u p 18 1, blank := u p 19 1 == 1, blankThr := u p 20 4, evInteg := u p 24 2, evAlarm := u p 26 2 }

/-- The 32 bytes of a correlation plan (R267). -/
def CorrCfg.bytes (x : CorrCfg) : List Byte :=
  leBytes 2 x.qmask ++ leBytes 1 x.mode ++ leBytes 1 (ofBool x.rect) ++ leBytes 2 x.na ++ zeros 2 ++ leBytes 4 x.t ++ leBytes 4 x.nblk ++
    leBytes 2 x.vregion ++ leBytes 1 x.pmax ++ leBytes 1 (ofBool x.blank) ++ leBytes 4 x.blankThr ++ leBytes 2 x.evInteg ++
    leBytes 2 x.evAlarm ++ zeros 4

/-- CORR_PLAN_SET (R235, R245, R250, R267). Without a CT_SET since reset there is no S, F, B and NPAD to hold it against: E_STATE. -/
def opCorrPlanSet : OpSpec :=
  { cls := [.device], len := some 32, keys := fun _ => [corrKey], ctl := fun c _ => maskQuires (c.u 0 2),
    state := fun _ s => firstErr [failIf s.plans.corr.run.active (planErr Status.planRunning), stateIf s s.ct.cfg.isNone],
    fields := fun _ s =>
      let k := s.ct.cfg.getD (ctOf [])
      [fU 0 2 1 0xFFFF, fP 2 1 (fun v => v == 4 * k.s), fU 3 1 0 1,
       fX 4 (fun p => if u p 3 1 = 0 then u p 4 2 == 0 else decide (32 ≤ u p 4 2) && decide (u p 4 2 + 32 ≤ k.npad) && u p 4 2 % 32 == 0),
       fR 6 2, fU 12 4 1 65536, fU 16 2 0 2047, fU 18 1 0 3, fU 19 1 0 1, fU 20 4 0 (k.b * k.f), fCh 24, fCh 26, fR 28 4],
    more := fun c s =>
      let p := corrOf c.p
      let other := match s.plans.liveBeam with | some b => b.qmask | none => 0
      firstErr [s.planQuiresErr p.qmask other .correlate, s.regionErr c.port p.vregion,
        match s.ct.cfg with | some k => s.corrGeometryErr p k | none => none],
    reg := fun c s => s.evFieldsCheck c.port deviceId (corrEvents c.p),
    run := afterCapacity true fun c s =>
      ((s.evFieldsApply c.port deviceId (corrEvents c.p)).onCorr fun x => { x with cfg := some (corrOf c.p) }, .ok []) }

/-- CORR_PLAN_GET: zeros before the first CORR_PLAN_SET. -/
def opCorrPlanGet : OpSpec :=
  readOp [.device] 0 fun _ s => match s.plans.corr.cfg with | some p => p.bytes | none => zeros 32

/-- The fields that CORR_EXPORT_SET carries (R268). -/
def corrExpOf (p : List Byte) : CorrExport :=
  { paths := u p 0 1, dma := u p 1 1, baseline := u p 2 1 == 1, addrs := [u p 4 4, u p 8 4, u p 12 4, u p 16 4] }

/-- The ranges of CORR_EXPORT_SET (R268). -/
def corrExpFields : List Field :=
  [fU 0 1 1 0x1F, fX 1 (fun p => if bitOf (u p 0 1) 0 then decide (u p 1 1 ≤ 15) else u p 1 1 == 0xFF), fU 2 1 0 1, fR 3 1] ++
    (List.range 4).map (fun i => fX (4 + 4 * i) fun p =>
      if bitOf (u p 0 1) (i + 1) then decide (u p (4 + 4 * i) 4 ≤ 0x3FFFE) else u p (4 + 4 * i) 4 == 0) ++ [fR 20 4]

/-- A DMA channel cannot be taken: it is bound to another stream, or carries an ordinary transfer. -/
def State.dmaErr (s : State) (n : Nat) (mine : StreamUse) (status : Nat) : Option Err :=
  firstErr [failIf (match (s.dmaCh n).stream with | some x => x != mine | none => false) (planErr status),
    failIf ((s.dmaCh n).stream.isNone && (s.dmaCh n).busy) (eBusy hintUnknown)]

/-- A path, 0 for PCIe and 1 to 4 for the ports, is DOWN (R268): PCIe while the host interface is in reset. -/
def State.pathDown (s : State) (i : Nat) : Bool := if i = 0 then !s.hostUp else !s.portUp (i - 1)

/-- CORR_EXPORT_SET (R253, R256, R268). -/
def opCorrExportSet : OpSpec :=
  { cls := [.device], len := some 24, keys := fun _ => [corrExpKey], ctl := fun _ s => corrCtl s,
    cap := fun c s => c.judge corrExpFields [0, 2] (match s.plans.liveCorr, s.ct.cfg with
      | some p, some k => s.corrExportErr p (corrExpOf c.p) k s.plans.corr.run.clk.fch s.plans.liveBeam
      | _, _ => none),
    fields := fun _ _ => corrExpFields,
    more := fun c s =>
      let e := corrExpOf c.p
      firstErr [failIf (e.list.any s.pathDown) (planErr Status.pathDown),
        if bitOf e.paths 0 then s.dmaErr e.dma (.corr 0 0) Status.dmaBound else none],
    run := afterCapacity true fun c s =>
      if s.plans.corr.run.active then
        (s.onCorr fun x => { x with expPend := some (corrExpOf c.p) }, .accepted [wait .corrExport 0 0] false none)
      else (s.corrExportApply (corrExpOf c.p), .ok []) }

/-- The first block boundary, as a block number, whose label is at or after an instant. -/
def PlanClk.blockFrom (k : PlanClk) (origin b t : Nat) : Nat :=
  ceilDiv (ceilDiv (ceilDiv (t * k.mul) uSample - k.goff) k.per - origin) b

/-- The channelisers and the corner turn set out at block number `n` where no plan was active, or where the one that is active waits for a later
block. -/
def State.plansBegin (s : State) (n : Nat) : State :=
  let waits := fun (r : PlanRun) => !r.active || r.st == .pending
  match s.ct.cfg with
  | none => s
  | some k =>
    if s.anyPlan && !(waits s.plans.corr.run && waits s.plans.beam.run && s.ct.off == 0 && decide (n < s.ct.nextB)) then s
    else
      let s1 := s.onCt fun t => { t with off := 0, was := [], seam := [], void := [], nextB := n, released := n, recs := [] }
      s1.onPlans fun p => { p with chans := p.chans.map fun e =>
        (e.1, { e.2 with next := s1.ct.origin + n * k.b, written := n, lost := [], until' := none }) }

/-- The ranges of CORR_START and BEAM_START (R269): START no more than 1,000 s ahead. -/
def startFields (s : State) : List Field :=
  [fX 0 (fun p => match dtOf (slice p 0 12) with | some t => decide (t ≤ s.now + 1000 * uS) | none => false), fR 12 4]

/-- A failure that is E_CAPACITY comes with step 10 of R40, before the ranges. -/
def capOnly (e : Option Err) : Option Err := e.filter fun x => x.status == Status.eCapacity

/-- Every check of the plan and of its export as they are set (R269). -/
def State.corrSetErr (s : State) : Option Err :=
  match s.plans.corr.cfg, s.plans.corr.exp, s.ct.cfg with
  | some p, some e, some k => s.corrStartErr p e k
  | _, _, _ => some (planErr Status.planNotSet)
def State.beamSetErr (s : State) : Option Err :=
  match s.plans.beam.cfg, s.plans.beam.exps, s.ct.cfg with
  | some p, _ :: _, some k => s.beamStartErr p k
  | _, _, _ => some (planErr Status.planNotSet)

/-- CORR_START (R269). -/
def opCorrStart : OpSpec :=
  { cls := [.device], len := some 16, keys := fun _ => [corrKey], ctl := fun _ s => corrCtl s,
    state := fun _ s => failIf s.plans.corr.run.active (planErr Status.planRunning),
    cap := fun _ s => capOnly s.corrSetErr,
    fields := fun _ s => startFields s,
    more := fun c s => firstErr [s.corrSetErr, c.late s 0 0],
    run := afterCapacity true fun c s =>
      match s.plans.corr.cfg, s.ct.cfg with
      | some p, some k =>
        let clk := (s.inputClks k.npad).headD { per := 1, goff := 0, mul := 1 }
        let n := clk.blockFrom s.ct.origin k.b (c.time 0)
        let s1 := s.plansBegin n
        let d := s1.traffic k clk.fch (some p) s1.plans.liveBeam
        let s2 := s1.onCorr fun x =>
          { x with run := { x.run with st := .pending, start := c.time 0, clk := clk, proc := s1.ct.released,
                                       members := maskQuires p.qmask },
                   chan := 0, cur := [], finished := [], numBase := x.numBase, stop := none, redo := false }
        (s2.corrDeal.1.noteD d, .accepted [wait .corrStart 0 0] false (some (c.time 0)))
      | _, _ => (s, .fail (planErr Status.planNotSet)) }

/-- CORR_STOP (R270). A plan that is not running, or is already stopping, gets E_STATE. -/
def opCorrStop : OpSpec :=
  { cls := [.device], len := some 4, keys := fun _ => [corrKey], ctl := fun _ s => corrCtl s,
    state := fun _ s => stateIf s (s.plans.corr.run.st != .running),
    fields := fun _ _ => [fU 0 1 0 1, fR 1 3],
    run := afterCapacity true fun c s =>
      ((s.onCorr fun x => { x with stop := some (c.u 0 1) }).onCorrRun fun r => { r with st := .stopping }, .accepted [wait .corrStop 0 0] false none) }

/-- The fields that BEAM_PLAN_SET carries (R271). -/
def beamOf (p : List Byte) : BeamCfg :=
  { qmask := u p 0 2, inBits := u p 2 1, outBits := u p 3 1, nbeam := u p 4 2, ch0 := u p 6 2, nch := u p 8 2, wgroup := u p 10 2,
    wregion := u p 12 2, pmax := u p 14 1, bshift := u p 15 1, evBlock := u p 16 2, evAlarm := u p 18 2 }

/-- The 24 bytes of a beam plan (R271). -/
def BeamCfg.bytes (x : BeamCfg) : List Byte :=
  leBytes 2 x.qmask ++ leBytes 1 x.inBits ++ leBytes 1 x.outBits ++ leBytes 2 x.nbeam ++ leBytes 2 x.ch0 ++ leBytes 2 x.nch ++
    leBytes 2 x.wgroup ++ leBytes 2 x.wregion ++ leBytes 1 x.pmax ++ leBytes 1 x.bshift ++ leBytes 2 x.evBlock ++ leBytes 2 x.evAlarm ++ zeros 4

/-- BEAM_PLAN_SET (R257, R259, R260, R271). -/
def opBeamPlanSet : OpSpec :=
  { cls := [.device], len := some 24, keys := fun _ => [beamKey], ctl := fun c _ => maskQuires (c.u 0 2),
    state := fun _ s => firstErr [failIf s.plans.beam.run.active (planErr Status.planRunning), stateIf s s.ct.cfg.isNone],
    fields := fun _ s =>
      let k := s.ct.cfg.getD (ctOf [])
      [fU 0 2 1 0xFFFF, fP 2 1 (fun v => v == 4 * k.s), fP 3 1 (fun v => v == 4 || v == 8),
       fP 4 2 (fun v => decide (32 ≤ v) && decide (v ≤ 512) && v % 32 == 0), fP 6 2 (fun v => decide (v < k.f)),
       fX 8 (fun p => decide (1 ≤ u p 8 2) && decide (u p 6 2 + u p 8 2 ≤ k.f)), fX 10 (fun p => decide (1 ≤ u p 10 2) && decide (u p 10 2 ≤ u p 8 2)),
       fU 12 2 0 2047, fU 14 1 0 3, fU 15 1 0 31, fCh 16, fCh 18, fR 20 4],
    more := fun c s =>
      let p := beamOf c.p
      let other := match s.plans.liveCorr with | some b => b.qmask | none => 0
      firstErr [s.planQuiresErr p.qmask other .beamform, s.regionErr c.port p.wregion,
        match s.ct.cfg with | some k => s.beamGeometryErr p k | none => none],
    reg := fun c s => s.evFieldsCheck c.port deviceId (beamEvents c.p),
    run := afterCapacity false fun c s =>
      ((s.evFieldsApply c.port deviceId (beamEvents c.p)).onBeam fun x => { x with cfg := some (beamOf c.p) }, .ok []) }

/-- BEAM_PLAN_GET: zeros before the first BEAM_PLAN_SET. -/
def opBeamPlanGet : OpSpec :=
  readOp [.device] 0 fun _ s => match s.plans.beam.cfg with | some p => p.bytes | none => zeros 24

/-- The paths that BEAM_EXPORT_SET carries (R272). -/
def beamPathsOf (p : List Byte) : List (Option BeamPath) :=
  (List.range 6).map fun i =>
    if u p (8 * i + 2) 2 = 0 then none else some { first := u p (8 * i) 2, count := u p (8 * i + 2) 2, addr := u p (8 * i + 4) 4 }

/-- Two beam ranges overlap (R261). -/
def beamOverlap (l : List (Option BeamPath)) : Bool :=
  let xs := l.filterMap id
  (List.range 512).any fun b => decide (2 ≤ (xs.filter fun x => decide (x.first ≤ b) && decide (b < x.first + x.count)).length)

/-- The range of ADDR_p (R272). -/
def beamAddrOk (i count addr : Nat) : Bool :=
  if count = 0 then addr == 0
  else if i = 0 then bitOf addr 31 && addr % 2 ^ 24 == 0 && bits addr 28 3 == 0
  else if i = 5 then decide (addr ≤ 2047) else decide (addr ≤ 0x3FFFE)

/-- The ranges of BEAM_EXPORT_SET (R261, R272). -/
def beamExpFields (s : State) : List Field :=
  let nb := match s.plans.beam.cfg with | some p => p.nbeam | none => 0
  (List.range 6).flatMap fun i =>
    [fX (8 * i) (fun p => decide (u p (8 * i) 2 < nb) && !beamOverlap ((beamPathsOf p).take (i + 1))),
     fX (8 * i + 2) (fun p => decide (u p (8 * i) 2 + u p (8 * i + 2) 2 ≤ nb)),
     fX (8 * i + 4) (fun p => beamAddrOk i (u p (8 * i + 2) 2) (u p (8 * i + 4) 4))]

/-- The state as it would be with other beam paths. -/
def State.withPaths (s : State) (l : List (Option BeamPath)) : State := s.onBeam fun b => { b with exps := [(0, l)] }

/-- The limits that beam paths keep (R261, R264): the capacity of each path, and while the plan runs D and what is left for the correlation export. -/
def State.beamPathsErr (s : State) (l : List (Option BeamPath)) : Option Err :=
  match s.plans.beam.cfg, s.ct.cfg with
  | some p, some k =>
    let s1 := s.withPaths l
    firstErr [s.beamExportErr p l (match s.inputClks k.npad with | x :: _ => x.fch | [] => 0),
      if s.plans.beam.run.active then
        firstErr [failIf (decide (1800000000000 < s1.liveTraffic k)) (planCap 5),
          match s.plans.liveCorr, s.plans.corr.exp with
          | some q, some e => s1.corrExportErr q e k s.plans.corr.run.clk.fch (some p)
          | _, _ => none]
      else none]
  | _, _ => none

/-- BEAM_EXPORT_SET (R261, R272). Overlapping ranges get E_RANGE at the FIRST of the later path. -/
def opBeamExportSet : OpSpec :=
  { cls := [.device], len := some 48, keys := fun _ => [beamExpKey], ctl := fun _ s => beamCtl s,
    state := fun _ s => failIf s.plans.beam.cfg.isNone (planErr Status.planNotSet),
    cap := fun c s => c.judge (beamExpFields s) ((List.range 6).flatMap fun i => [8 * i, 8 * i + 2]) (s.beamPathsErr (beamPathsOf c.p)),
    fields := fun _ s => beamExpFields s,
    more := fun c s =>
      let l := beamPathsOf c.p
      firstErr [failIf ((List.range 5).any fun i => (lget none l i).isSome && s.pathDown i) (planErr Status.pathDown),
        (match lget none l 0 with | some x => s.dmaErr (x.addr / 2 ^ 24 % 16) (.beam 0 0) Status.dmaBound | none => none),
        match lget none l 5 with | some x => s.regionErr c.port x.addr | none => none],
    run := afterCapacity false fun c s =>
      if s.plans.beam.run.active then
        let d := match s.ct.cfg with | some k => (s.withPaths (beamPathsOf c.p)).liveTraffic k | none => 0
        ((s.onBeam fun x => { x with expPend := some (beamPathsOf c.p) }).noteD d, .accepted [wait .beamExport 0 0] false none)
      else ((s.onBeam fun b => { b with exps := b.exps.take 1 }).beamExportApply 0 (beamPathsOf c.p), .ok []) }

/-- BEAM_WEIGHT_COMMIT (R259, R266, R273). While the plan does not run there is no block of it, and the bank is active at once. -/
def opBeamWeightCommit : OpSpec :=
  { cls := [.device], timed := true, len := some 4, keys := fun _ => [beamBankKey], ctl := fun _ s => beamCtl s,
    fields := fun _ _ => [fU 0 1 0 1, fR 1 3],
    busy := fun c s => failIf (s.plans.beam.bankPend.isSome || (match s.plans.beam.banks with | [] => 0 | e :: _ => e.2) == c.u 0 1) (eBusy hintUnknown),
    run := afterCapacity false fun c s =>
      if s.plans.beam.run.active then
        (s.onBeam fun b => { b with bankPend := some (c.u 0 1, c.execTime s) }, .accepted [wait .beamCommit 0 0] false none)
      else (s.onBeam fun b => { b with banks := [(0, c.u 0 1)] }, .accepted [] false none) }

/-- BEAM_START (R269). Beams that a port has stopped stay stopped until a BEAM_EXPORT_SET (R262). -/
def opBeamStart : OpSpec :=
  { cls := [.device], len := some 16, keys := fun _ => [beamKey], ctl := fun _ s => beamCtl s,
    state := fun _ s => failIf s.plans.beam.run.active (planErr Status.planRunning),
    cap := fun _ s => capOnly s.beamSetErr,
    fields := fun _ s => startFields s,
    more := fun c s => firstErr [s.beamSetErr, c.late s 0 0],
    run := afterCapacity false fun c s =>
      match s.plans.beam.cfg, s.ct.cfg with
      | some p, some k =>
        let clk := (s.inputClks k.npad).headD { per := 1, goff := 0, mul := 1 }
        let n := clk.blockFrom s.ct.origin k.b (c.time 0)
        let s1 := s.plansBegin n
        let d := s1.traffic k clk.fch s1.plans.liveCorr (some p)
        let s2 := s1.onBeam fun x =>
          { x with run := { x.run with st := .pending, start := c.time 0, clk := clk, proc := s1.ct.released,
                                       members := maskQuires p.qmask },
                   banks := (match x.banks with | [] => [] | e :: _ => [(0, e.2)]),
                   exps := (match x.exps with | [] => [] | e :: _ => [(0, e.2)]),
                   kept := (match x.exps with | [] => [] | e :: _ => x.kept.filterMap fun y => if y.1.1 = e.1 then some ((0, y.1.2), y.2) else none), stop := false, last := none, redo := false }
        (s2.beamDeal.1.beamsFit.noteD d, .accepted [wait .beamStart 0 0] false (some (c.time 0)))
      | _, _ => (s, .fail (planErr Status.planNotSet)) }

/-- BEAM_STOP (R270). -/
def opBeamStop : OpSpec :=
  { cls := [.device], len := some 4, keys := fun _ => [beamKey], ctl := fun _ s => beamCtl s,
    state := fun _ s => stateIf s (s.plans.beam.run.st != .running),
    fields := fun _ _ => [fU 0 1 0 0, fR 1 3],
    run := afterCapacity false fun _ s =>
      ((s.onBeam fun x => { x with stop := true }).onBeamRun fun r => { r with st := .stopping }, .accepted [wait .beamStop 0 0] false none) }

/-- STATE of PLAN_STATUS (R274). -/
def PState.code : PState → Nat
  | .idle => 0 | .pending => 1 | .running => 2 | .stopping => 3 | .stoppedCapacity => 4

/-- The 64 bytes of PLAN_STATUS (R274). -/
def PlanRun.bytes (r : PlanRun) (number stage : Nat) : List Byte :=
  leBytes 1 r.st.code ++ leBytes 1 r.point ++ leBytes 2 r.arrays ++ leBytes 4 r.umax ++ leBytes 4 number ++
    [r.exported, r.overrun, r.sat, r.pathLost, r.blanked, r.clip].flatMap (leBytes 4) ++ zeros 4 ++ leBytes 8 r.cellops ++
    leBytes 8 r.d ++ leBytes 8 stage

/-- PLAN_STATUS (R274): NUMBER is that of the integration in progress, or of the beam plan's present block. -/
def opPlanStatus : OpSpec :=
  { readOp [.device] 4 (fun c s =>
      if c.u 0 1 = 0 then s.plans.corr.run.bytes (s.plans.corr.nextNumber - 1) 0
      else s.plans.beam.run.bytes (s.ct.num (s.ct.nextB - 1)) s.plans.beam.stagePos) with
    fields := fun _ _ => [fU 0 1 0 1, fR 1 3] }

end Sys2Proof.Machine
end

