-- ==== Sys2Proof/Machine/Bias.lean ====
section
/-! DEFINITION. The bias channels (13, R455 to R469, R482 to R488): codes, generators, the update, range changes, the clear pin and the
bias opcodes 0x0D00 to 0x0D06. -/
namespace Sys2Proof.Machine

namespace Status
def biasCleared : Nat := 0x10D0
def biasLimit : Nat := 0x10D1
def biasSlew : Nat := 0x10D2
def biasNosafe : Nat := 0x10D3
def biasTableBusy : Nat := 0x10D4
def biasCalDisagree : Nat := 0x10D5
end Status

def State.onBsc (s : State) (g : Bsc → Bsc) : State := { s with bsc := g s.bsc }
def State.bch (s : State) (n : Nat) : BiasCh := tget .reset s.bsc.chs n
def State.onBch (s : State) (n : Nat) (g : BiasCh → BiasCh) : State :=
  s.onBsc fun b => { b with chs := tmod .reset b.chs n g }

/-! ### Codes (R455) -/

/-- One LSB of a range, and 1 µV, in 2^-15 µV. -/
def biasLsb (r : Nat) : Nat := 78125 * 2 ^ r
def u15 : Nat := 32768

/-- The nearest code to a voltage in 2^-15 µV, a half away from zero; and that code limited to the range. -/
def nearCode (r : Nat) (v : Int) : Int := roundDiv v (biasLsb r)
def codeOf (r : Nat) (v : Int) : Int := clampI (-524287) 524287 (nearCode r v)

/-- A voltage in µV can be represented in a range. -/
def fitsRange (r : Nat) (uv : Int) : Bool := let c := nearCode r (uv * u15); decide (-524287 ≤ c) && decide (c ≤ 524287)

/-- The voltage of the code for a voltage in µV, in 2^-15 µV. -/
def codeVolts (r : Nat) (uv : Int) : Int := codeOf r (uv * u15) * biasLsb r

/-! ### Generators (R461) -/

/-- π in units of 2^-80. -/
def pi80 : Int := 3797952473636338580787993

/-- sin(2π i ÷ 4,096) for the first quarter, in 2^-80: its power series. -/
def sinQuarter (i : Nat) : Int :=
  let x : Int := pi80 * (i : Int) / 2048
  let x2 : Int := x * x / 2 ^ 80
  ((List.range 16).foldl (fun (a : Int × Int) k =>
    (a.1 + a.2, -(a.2 * x2 / 2 ^ 80) / (((2 * k + 2) * (2 * k + 3) : Nat) : Int))) (0, x)).1

/-- Table 0: round(131,071 × sin(2π i ÷ 4,096)). -/
def sineTable (i : Nat) : Int :=
  let j := i % 4096
  let q := j % 2048
  let v := shiftRound (131071 * sinQuarter (if q ≤ 1024 then q else 2048 - q)) 80
  if j < 2048 then v else -v

/-- An entry of a waveform table. -/
def Bsc.tab (b : Bsc) (t i : Nat) : Int := if t = 0 then sineTable i else tget 0 b.tables (4096 * t + i % 4096)

/-- One step of the noise register: x^31 + x^28 + 1. -/
def lfsrStep (v : Nat) : Nat := (2 * v + (bits v 30 1 + bits v 27 1) % 2) % 2 ^ 31

/-- The noise state of a generator after an update. The register is seeded at its first update from K0 on, which is later than K0 where a step of device time
jumps K0 (DESIGN CHOICE); a seeded one is never 0. -/
def Gen64.noise (g : Gen64) : Gen64 :=
  if g.wave ≠ 4 then g
  else
    let l := if g.lfsr = 0 then g.phase % 2 ^ 31 else lfsrStep g.lfsr
    let n := toSigned 16 (l / 2 ^ 15)
    { g with lfsr := l, f := g.f + ((n : Rat) - g.f) / ((2 ^ g.nf : Nat) : Rat) }

/-- The source value at update `k` in µV. -/
def Gen64.value (b : Bsc) (g : Gen64) (k : Nat) : Int :=
  let p := (g.freq * (k - g.k0) + g.phase) % 2 ^ 32
  let lin := fun (num : Int) => roundDiv (g.offset * (2 ^ 32 : Nat) + g.amp * num) (2 ^ 32)
  if g.wave = 1 then
    let i := p / 2 ^ 20
    let fr : Int := (bits p 12 8 : Int)
    let t0 := b.tab g.table i
    roundDiv (g.offset * (2 ^ 25 : Nat) + g.amp * (256 * t0 + (b.tab g.table (i + 1) - t0) * fr)) (2 ^ 25)
  else if g.wave = 2 then
    lin (if p < 2 ^ 30 then 4 * (p : Int) else if p < 3 * 2 ^ 30 then 2 ^ 33 - 4 * (p : Int) else 4 * (p : Int) - 2 ^ 34)
  else if g.wave = 3 then lin (2 * (p : Int) - 2 ^ 32)
  else if g.wave = 4 then
    let x : Rat := (g.offset : Rat) + (g.amp : Rat) * g.f / 32768
    roundDiv x.num x.den
  else g.offset

/-! ### The update (R457 to R459) -/

/-- The keys of a bias channel's trim and gain. -/
def trimKey (n : Nat) : Nat := 4096 + 2 * n
def gainKey (n : Nat) : Nat := 4097 + 2 * n
/-- A correction; its units divide STEP by every STEP_DIV. -/
def calUnit : Nat := 720720
def Bsc.corr (b : Bsc) (key : Nat) (d : Int) : CorrVal := tget { cur := d, target := d } b.cal.corrs key

/-- Trim (in codes) and gain (in ppm) applied to a voltage in 2^-15 µV. -/
def Bsc.correct (b : Bsc) (n r : Nat) (v : Int) : Int :=
  roundDiv (v * (1000000 * (calUnit : Int) + (b.corr (gainKey n) 0).cur)) (1000000 * calUnit) +
    roundDiv ((b.corr (trimKey n) 0).cur * biasLsb r) calUnit

/-- The trim and gain taken off a voltage in 2^-15 µV again. -/
def Bsc.uncorrect (b : Bsc) (n r : Nat) (v : Int) : Int :=
  let num := (v - roundDiv ((b.corr (trimKey n) 0).cur * biasLsb r) calUnit) * (1000000 * (calUnit : Int))
  let den := 1000000 * (calUnit : Int) + (b.corr (gainKey n) 0).cur
  if 0 < den then roundDiv num den.toNat else v

/-- A range change whose TARGET something newer replaces. -/
def RangeSw.overtaken (w : RangeSw) : RangeSw := match w.step with | .wait _ => w | _ => { w with target := none }

/-- The sources due by update `k` take over in turn (R456, R463): a BIAS_SET or BIAS_GEN_SET ends a clear that the pin no longer
holds (R467), and in ENDPAPER the policy's source (R468). A CLEARED channel that is frozen, too, takes them once it is not (R468, R469). -/
def BiasCh.take (c : BiasCh) (bclr frozen : Bool) (k : Nat) : BiasCh :=
  let now := fun (e : Nat × BiasSrc) => decide (e.1 ≤ k * uUs) && !(frozen && c.cleared)
  (c.pend.filter now).foldl (fun a e =>
    let b := { a with cleared := if bclr then a.cleared else false, ep := none, hold := false, avg := [], avgLast := none, sw := a.sw.map RangeSw.overtaken }
    match e.2 with
    | .target v sl => { b with target := v, slew := sl, gen := none }
    | .gen g => if g.wave = 0 then { b with target := g.offset, slew := b.live.slew, gen := none } else { b with gen := some g, slew := b.live.slew })
    { c with pend := c.pend.filter fun e => !now e }

/-- What a channel is to put out at an update: the source value in µV, before the limit window, the slew in µV that applies, whether it steps there at once,
whether it is the 0 V of a range change, and whether it is a generator's, which no code rounds first. -/
structure BiasGoal where
  v : Int
  slew : Nat
  step : Bool := false
  zero : Bool := false
  exact : Bool := false

/-- The source of a channel at update `k`: the first that applies; none where the output holds (R457, R468). -/
def BiasCh.source (b : Bsc) (c : BiasCh) (frozen : Bool) (k : Nat) : Option BiasGoal :=
  if c.st = .retired then some { v := c.live.clr, slew := c.live.slew }
  else if c.st = .ramping ∧ k * uUs < c.rampAt + uUs then none
  else if c.cleared then some { v := c.live.clr, slew := c.live.slew, step := c.clrStep }
  else if c.hold then none
  else match c.ep with
    | some (v, sl) => some { v := v, slew := sl }
    | none =>
      if c.st = .ramping then some { v := c.live.safe, slew := c.live.puSlew }
      else if frozen then none
      else match c.sw, c.gen with
        | some { step := .zero, .. }, _ => some { v := 0, slew := c.slew, zero := true }
        | _, some g => some { v := g.value b k, slew := c.slew, exact := true }
        | _, none => some { v := c.target, slew := c.slew }

/-- The source value within the limit window, in 2^-15 µV. -/
def BiasCh.windowed (c : BiasCh) (g : BiasGoal) : Int :=
  let v := clampI c.live.lo c.live.hi g.v
  if g.exact then v * u15 else codeVolts c.range v

/-- The output moves toward its source by at most the slew, and the code is converted (R458, R459). -/
def BiasCh.move (b : Bsc) (n : Nat) (c : BiasCh) (src : Int) (slew : Nat) (step : Bool) : BiasCh :=
  let goal := b.correct n c.range src
  let d := goal - c.pos
  let lim : Int := ((slew * u15 : Nat) : Int)
  let limited := !step && (decide (lim < d) || decide (d < -lim))
  let pos := if limited then (if 0 < d then c.pos + lim else c.pos - lim) else goal
  let code := codeOf c.range pos
  { c with pos := pos, code := code, moving := limited, slewLimited := if limited then inc32 c.slewLimited else c.slewLimited,
           deglitch := if bits (ofSigned 20 code) 12 8 ≠ bits (ofSigned 20 c.code) 12 8 then inc32 c.deglitch else c.deglitch }

/-- A range change at update `k` (R464): under hold where the present voltage fits the new range, else by way of 0 V; one update after the release TARGET
takes over. -/
def BiasCh.rangeStep (c : BiasCh) (frozen : Bool) (k : Nat) : BiasCh :=
  match c.sw with
  | some w => match w.step with
    | .wait t =>
      if t ≤ k * uUs ∧ !frozen then
        let lim : Int := 524287 * (biasLsb w.range : Int)
        if -lim ≤ c.pos ∧ c.pos ≤ lim then { c with sw := some { w with step := .held k } } else { c with sw := some { w with step := .zero } }
      else c
    | .rel h =>
      if k < h + 21 then c
      else match w.target with
        | some v => { c with sw := none, gen := none, target := v, slew := c.live.slew, avg := [], avgLast := none }
        | none => { c with sw := none }
    | _ => c
  | none => c

/-- A channel moves at update `k` toward what its source asks for. A range change by way of 0 V is held from the update that arrives there, or at the end of
the window next to it where the window leaves out 0 V (DESIGN CHOICE). -/
def BiasCh.drive (b : Bsc) (n : Nat) (c : BiasCh) (g : BiasGoal) (k : Nat) : BiasCh :=
  let c1 := c.move b n (c.windowed g) g.slew g.step
  let c2 := if g.v < c.live.lo ∨ c.live.hi < g.v then { c1 with limited := inc32 c1.limited } else c1
  if c2.moving then c2
  else { c2 with st := if c2.st = .ramping then .on else c2.st,
                 sw := if g.zero then c2.sw.map fun w => { w with step := .held k } else c2.sw }

/-- Update `k` of a channel (R457). The noise register of a generator goes on in a freeze, as its phase does (DEDUCED). -/
def BiasCh.update (b : Bsc) (n : Nat) (c : BiasCh) (frozen : Bool) (k : Nat) : BiasCh :=
  if c.st = .clamped ∨ c.st = .nosafe then c
  else
    let c1 := (c.take b.bclr frozen k).rangeStep frozen k
    let c2 := { c1 with gen := c1.gen.map fun (g : Gen64) => if g.k0 ≤ k then g.noise else g }
    match c2.sw with
    | some { step := .held _, .. } | some { step := .rel _, .. } => c2
    | _ => match c2.source b frozen k with
      | none => c2
      | some g => c2.drive b n g k

/-- BIAS_UPDATE: the next update of every channel (R456, R457). -/
def execBiasUpdate (s : State) : Host.Outcome State Fault Refusal :=
  if s.dev.st == .off then .next s
  else
    let k := s.bsc.k + 1
    let s1 := s.advanceTo (k * uUs)
    let b := s1.bsc
    .next (s1.onBsc fun x =>
      { x with k := k, chs := (List.range 64).foldl (fun t n =>
          tput .reset t n ((tget .reset t n).update b n (!s1.clk.coherent && s1.dev.st != .endpaper) k)) x.chs })

/-- RANGE_RELEASE: 20 updates after the switch the land is released at the nearest code of the new range; TARGET, or what has taken over meanwhile, follows
one update later (R464). -/
def execRangeRelease (n : Fin 64) (s : State) : Host.Outcome State Fault Refusal :=
  match (s.bch n).sw with
  | some { step := .held k, range := r, target := _ } =>
    let s1 := s.advanceTo ((k + 20) * uUs)
    .next ((s1.onBch n fun c =>
      let code := codeOf r c.pos
      let pos := code * (biasLsb r : Int)
      { c with sw := c.sw.map fun w => { w with step := .rel k }, range := r, code := code, pos := pos, avg := [], avgLast := none,
               deglitch := if bits (ofSigned 20 code) 12 8 ≠ bits (ofSigned 20 c.code) 12 8 then inc32 c.deglitch else c.deglitch }).resolve
        (wait .biasRange (biasId n) 0) [])
  | _ => .next s

/-! ### The clear pin, overload and power-up (R466 to R468) -/

/-- The policy of a channel in ENDPAPER (R468): its generator stops, and the output holds or ramps to SAFE. A range change that has not begun is dropped; one
under way ends without TARGET. -/
def BiasCh.enterEp (b : Bsc) (n : Nat) (c : BiasCh) : BiasCh :=
  { c with gen := none, target := roundDiv (b.uncorrect n c.range c.pos) u15, pend := [], hold := !c.live.epRamp, clrEp := b.bclr,
           ep := if c.live.epRamp then some (c.live.safe, c.live.puSlew) else none, moving := false,
           sw := match c.sw with
             | some w => match w.step with | .wait _ | .zero => none | _ => some w.overtaken
             | none => none }

/-- Leaving ENDPAPER keeps the present code (R402, R468), of a ramp too (DESIGN CHOICE). -/
def BiasCh.leaveEp (b : Bsc) (n : Nat) (c : BiasCh) : BiasCh :=
  let c1 := { c with clrEp := false }
  if c.ep.isSome then { c1 with ep := none, hold := true, moving := false, target := roundDiv (b.uncorrect n c.range c.pos) u15 } else c1

/-- BCLR_N: the filtered pin changes; asserted, every channel is CLEARED and its generator stops, and stays so after deassertion until a command (R467); but
where the pin was asserted when ENDPAPER began, the channel follows EPMODE after deassertion (R469). Without VAUX only the pin's level is known. -/
def execBclrN (low : Bool) (s : State) : Host.Outcome State Fault Refusal :=
  .next (s.onBsc fun b =>
    let b1 := { b with bclr := low }
    if s.dev.st == .off then b1
    else { b1 with chs := (List.range 64).foldl (fun t n => tmod .reset t n fun c =>
        if low then { c with cleared := true, clrStep := c.live.clrNow, gen := none, pend := [], clrEp := false, avg := [], avgLast := none }
        else if s.dev.st == .endpaper && c.clrEp then { (c.enterEp b1 n) with cleared := false } else c) b.chs })

/-- OVERLOAD: an output has been in current limit for 100 µs, or has left it (R468). -/
def execBiasOverload (n : Fin 64) (on : Bool) (s : State) : Host.Outcome State Fault Refusal :=
  .next (s.onBch n fun c => { c with overload := on, overloads := if on && !c.overload then inc32 c.overloads else c.overloads })

/-- The live safety fields that 32 bytes spell (R465). -/
def safetyOf (p : List Byte) : Safety :=
  { range := u p 0 1, clrNow := u p 1 1 == 1, epRamp := u p 2 1 == 1, owner := u p 3 1, safe := sfld p 4 4, clr := sfld p 8 4,
    lo := sfld p 12 4, hi := sfld p 16 4, puSlew := u p 20 2, slew := u p 22 2, trim := u p 24 1 == 1 }

/-- The ranges of an entry (R465); `r` is the range in force, to which the clear value belongs. -/
def safetyFields (r : Option Nat) : List Field :=
  let win := fun (p : List Byte) (v : Int) => decide (sfld p 12 4 ≤ v) && decide (v ≤ sfld p 16 4)
  [fU 0 1 0 2, fU 1 1 0 1, fU 2 1 0 1, fP 3 1 (fun v => decide (v ≤ 5) || v == 0xFF),
   fX 4 (fun p => win p (sfld p 4 4) && fitsRange (u p 0 1) (sfld p 4 4)),
   fX 8 (fun p => win p (sfld p 8 4) && fitsRange (r.getD (u p 0 1)) (sfld p 8 4)),
   fX 12 (fun p => decide (-5000000 ≤ sfld p 12 4) && decide (sfld p 12 4 ≤ sfld p 16 4)), fX 16 (fun p => decide (sfld p 16 4 ≤ 5000000)),
   fU 20 2 1 10000, fU 22 2 1 10000, fU 24 1 0 1, fR 25 7]

/-- The valid entry of a channel in the newest safe-code image, if there is one (R466). -/
def State.safeEntry (s : State) (n : Nat) : Option Safety :=
  match s.newest 0x081 with
  | none => none
  | some c =>
    let p := c.part (128 + 32 * n) 32
    if (safetyFields none).all fun f => f.ok p then some (safetyOf p) else none

/-- BCLR_FILTER of the safe-code image (R465). -/
def State.safeFilter (s : State) : Nat := match s.newest 0x081 with | some c => c.u (128 + 64 * 32) 1 | none => 100

/-- A bias rail is lost: the power-down clamp engages on every channel, which stay CLAMPED until the ramp of a restart (R466, R468); before the supplies have all
been good, in BOOT, they may still ramp in it. -/
def BiasCh.clamp (c : BiasCh) : BiasCh :=
  if c.st = .ramping ∨ c.st = .on then
    { c with st := .clamped, pos := 0, code := 0, moving := false, gen := none, pend := [], sw := none, ep := none, hold := false }
  else { c with pos := 0, code := 0 }
def State.biasOff (s : State) : State :=
  s.onBsc fun b => { b with mayRamp := b.mayRamp && s.dev.st == .boot && s.clk.sAt.isNone, chs := b.chs.map fun e => (e.1, e.2.clamp) }

/-- POWER_UP_RAMP: the entry of a clamped channel has been read. A valid one, with both bias rails good, opens the clamp over 50 µs
and the output then ramps to SAFE, or to the clear value where the clear pin is asserted (R467); without one the channel is NOSAFE and is recorded, and the
device can be no more than REDUCED (R466). -/
def execPowerUpRamp (n : Fin 64) (s : State) : Host.Outcome State Fault Refusal :=
  if (s.bch n).st ≠ .clamped || !s.bsc.mayRamp || s.dev.st == .off || s.dev.st == .endpaper then .next s
  else match s.safeEntry n with
    | none => .next (((s.onBch n fun c => { c with st := .nosafe }).logFault (unitC 12 n) 3 0 (biasId n) 0).toReduced)
    | some e =>
      if bitOf s.clk.good 9 ∧ bitOf s.clk.good 10 then
        .next ((s.onBsc fun b => { b with bclrFilter := s.safeFilter }).onBch n fun c =>
          { c with st := .ramping, cleared := c.cleared || s.bsc.bclr, clrStep := e.clrNow, ep := none, hold := false,
                   live := e, range := e.range, pos := 0, code := 0, target := e.safe, slew := e.slew, gen := none, pend := [],
                   sw := none, rampAt := s.now + 50 * uUs })
      else .next s

/-! ### Opcodes (R482 to R487) -/

/-- STATE of a channel (R487). -/
def State.biasState (s : State) (n : Nat) : Nat :=
  let c := s.bch n
  if c.st = .nosafe then 9 else if c.st = .clamped then 0 else if c.st = .retired then 8 else if c.cleared then 6
  else if !s.clk.coherent && c.st != .ramping && s.dev.st != .endpaper then 7 else if c.st = .ramping then 1
  else match c.sw with
    | some { step := .held _, .. } | some { step := .rel _, .. } => 5
    | _ => match c.gen with
      | some g => if g.k0 ≤ s.bsc.k then 4 else if c.moving then 3 else 2
      | none => if c.moving then 3 else 2

/-- The port may change a channel's output (R460). -/
def State.biasPort (s : State) (c : Cmd) (n : Nat) : Option Err :=
  let w := (s.bch n).live.owner
  failIf (!(s.isOwner c.port || w == 0xFF || w == c.port)) (err Status.ePrivilege w)

/-- The states in which a channel's output can be changed (R466, R467, R469). -/
def State.biasMay (s : State) (n : Nat) : Option Err :=
  let x := s.bch n
  firstErr [failIf (x.st = .retired) (err Status.eDegraded 0), failIf (x.st = .nosafe) (err Status.biasNosafe 0),
    failIf s.bsc.bclr (err Status.biasCleared 0), stateIf s (x.st = .clamped)]

/-- In BOOT and ENDPAPER a command needs OWNER privilege (R482). -/
def State.biasOwner (s : State) (c : Cmd) : Option Err :=
  failIf (!s.runs && !s.isOwner c.port) (err Status.ePrivilege 0xFF)

/-- A value in µV within the window and the range in force. -/
def BiasCh.accepts (c : BiasCh) (v : Int) : Bool := decide (c.live.lo ≤ v) && decide (v ≤ c.live.hi) && fitsRange c.range v

/-- BIAS_SET (R456, R463, R483). -/
def opBiasSet : OpSpec :=
  { cls := [.bias], timed := true, ep := fun _ => true, len := some 8, may := fun c s => firstErr [s.biasOwner c, s.biasPort c c.i], state := fun c s => s.biasMay c.i,
    fields := fun c s => [fX 0 (fun p => (s.bch c.i).accepts (sfld p 0 4)), fU 4 2 0 10000, fR 6 2],
    run := fun c s =>
      (s.onBch c.i fun x =>
        { x with pend := x.pend ++ [(c.execTime s, .target (c.sg 0 4) (if c.u 4 2 = 0 then x.live.slew else c.u 4 2))] }, .ok []) }

/-- BIAS_GET (R483). -/
def opBiasGet : OpSpec :=
  { readOp [.bias] 0 (fun c s =>
      let x := s.bch c.i
      leBytes 1 x.range ++ leBytes 1 (s.biasState c.i) ++ leBytes 1 (match x.gen with | some g => g.wave | none => 0) ++ zeros 1 ++
        leBytes 4 (ofSigned 32 x.code) ++ leBytes 4 (ofSigned 32 (codeOf x.range (x.target * u15))) ++ leBytes 2 x.slew ++ zeros 2 ++
        [x.live.lo, x.live.hi, x.live.clr, x.live.safe].flatMap fun v => leBytes 4 (ofSigned 32 v)) with
    ep := fun _ => true }

/-- BIAS_RANGE_SET (R464, R484). A generator that waits for its K0 does not run yet. -/
def opBiasRangeSet : OpSpec :=
  { cls := [.bias], timed := true, len := some 8, may := fun c s => s.biasPort c c.i,
    state := fun c s => firstErr [s.biasMay c.i, stateIf s (s.bch c.i).gen.isSome],
    fields := fun _ _ => [fU 0 1 0 2, fR 1 3],
    more := fun c s =>
      let x := s.bch c.i
      failIf (!([c.sg 4 4, x.live.clr, x.live.lo, x.live.hi].all fun v => fitsRange (c.u 0 1) v)) (err Status.biasLimit 0),
    run := fun c s =>
      (s.onBch c.i fun x => { x with sw := some { step := .wait (c.execTime s), range := c.u 0 1, target := some (c.sg 4 4) } },
        .accepted [wait .biasRange (biasId c.i) 0] true none) }

/-- The generator that BIAS_GEN_SET carries (R485). -/
def genOf (p : List Byte) : Gen64 :=
  { wave := u p 0 1, table := u p 1 1, nf := u p 2 1, freq := u p 4 4, phase := u p 8 4, offset := sfld p 12 4, amp := sfld p 16 4,
    k0 := ceilDiv ((dtOf (slice p 20 12)).getD 0) uUs, lfsr := 0, f := 0 }

/-- The steepest continuous slope exceeds a slew (R462). -/
def Gen64.tooSteep (b : Bsc) (g : Gen64) (slew : Nat) : Bool :=
  let af := g.amp * (g.freq : Int)
  if g.wave = 1 then
    let m := (List.range 4096).foldl (fun a i => max a (b.tab g.table (i + 1) - b.tab g.table i).natAbs) 0
    decide ((slew : Int) * 2 ^ 49 < 4096 * af * m)
  else if g.wave = 2 then decide ((slew : Int) * 2 ^ 32 < 4 * af)
  else if g.wave = 3 then decide ((slew : Int) * 2 ^ 32 < 2 * af) else false

/-- BIAS_GEN_SET (R461 to R463, R485). -/
def opBiasGenSet : OpSpec :=
  { cls := [.bias], len := some 32, may := fun c s => s.biasPort c c.i, state := fun c s => s.biasMay c.i,
    fields := fun c s =>
      let w := fun (p : List Byte) => u p 0 1
      [fU 0 1 0 4, fX 1 (fun p => decide (u p 1 1 ≤ if w p = 1 then 7 else 0)), fX 2 (fun p => decide (u p 2 1 ≤ if w p = 4 then 15 else 0)), fR 3 1,
       fX 4 (fun p => decide (u p 4 4 ≤ if 1 ≤ w p ∧ w p ≤ 3 then 0x0CCCCCCC else 0)), fX 8 (fun p => w p != 4 || u p 8 4 % 2 ^ 31 != 0),
       fX 12 (fun p => decide ((s.bch c.i).live.lo ≤ sfld p 12 4) && decide (sfld p 12 4 ≤ (s.bch c.i).live.hi)),
       fX 16 (fun p => decide (0 ≤ sfld p 16 4) && decide (sfld p 16 4 ≤ if w p = 0 then 0 else 10000000)),
       fX 20 (fun p => match dtOf (slice p 20 12) with | some t => decide (t ≤ s.now + 1000 * uS) | none => false)],
    more := fun c s =>
      let g := genOf c.p
      let l := (s.bch c.i).live
      firstErr [c.late s 20 (2 * uUs), failIf (decide (g.offset - g.amp < l.lo) || decide (l.hi < g.offset + g.amp)) (err Status.biasLimit 0),
        failIf (g.tooSteep s.bsc l.slew) (err Status.biasSlew 0)],
    run := fun c s => (s.onBch c.i fun x => { x with pend := x.pend ++ [(c.time 20, .gen (genOf c.p))] }, .ok []) }

/-- A generator that runs uses a table; one that waits for its K0 does not run yet. -/
def BiasCh.usesTable (c : BiasCh) (t : Nat) : Bool := match c.gen with | some g => g.wave == 1 && g.table == t | none => false

/-- BIAS_TABLE_WRITE (R463, R486). -/
def opBiasTableWrite : OpSpec :=
  { cls := [.device], len := none, lenMin := 8, lenOk := fun n => decide (8 ≤ n) && decide (n ≤ 4064) && n % 4 == 0, keys := fun c => [devKey (0xD0400 + c.u 0 1)],
    fields := fun _ _ =>
      [fU 0 1 1 7, fR 1 1, fU 2 2 0 4095,
       fX 4 fun p => decide (u p 2 2 + (p.length - 4) / 4 ≤ 4096) && (List.range ((p.length - 4) / 4)).all fun k =>
         decide (-131072 ≤ sfld p (4 + 4 * k) 4) && decide (sfld p (4 + 4 * k) 4 ≤ 131071)],
    more := fun c s => failIf (s.bsc.chs.any fun e => e.2.usesTable (c.u 0 1)) (err Status.biasTableBusy 0),
    run := fun c s =>
      (s.onBsc fun b =>
        { b with tables := tputs 0 b.tables (4096 * c.u 0 1 + c.u 2 2) ((List.range ((c.p.length - 4) / 4)).map fun k => c.sg (4 + 4 * k) 4) }, .ok []) }

/-- BIAS_SAFETY_SET (R465, R487). -/
def opBiasSafetySet : OpSpec :=
  { cls := [.bias], priv := fun _ => .owner, ep := fun _ => true, len := some 32,
    state := fun c s => failIf ((s.bch c.i).st = .retired) (err Status.eDegraded 0), fields := fun c s => safetyFields (some (s.bch c.i).range),
    more := fun c s =>
      let x := s.bch c.i
      let l := safetyOf c.p
      failIf (decide (x.pos < codeVolts x.range l.lo) || decide (codeVolts x.range l.hi < x.pos)) (err Status.biasLimit 0),
    run := fun c s => (s.onBch c.i fun x => { x with live := safetyOf c.p }, .ok []) }

/-- BIAS_STATUS (R487). -/
def opBiasStatus : OpSpec :=
  { readOp [.bias] 0 (fun c s =>
      let x := s.bch c.i
      leBytes 1 (s.biasState c.i) ++
        leBytes 1 (ofBool x.overload + 2 * ofBool s.bsc.bclr + 4 * ofBool (s.dev.st == .endpaper && x.ep.isSome) + 8 * ofBool x.cal) ++
        zeros 2 ++ leBytes 4 (ofSigned 32 x.readback) ++ [x.slewLimited, x.deglitch, x.limited, x.overloads, x.rbErr].flatMap (leBytes 4) ++ zeros 4) with
    ep := fun _ => true }

end Sys2Proof.Machine
end

