-- ==== Sys2Proof/Machine/Rf.lean ====
section
/-! DEFINITION. The events of the converter lines (08): the mute pin, the mute and unmute sequences, settling and the
temperature of a chiplet. -/
namespace Sys2Proof.Machine

/-- RF_MUTE_N: an edge of the pin. It passes the glitch filter FILTER ns later; a pin that returns before has made no edge there (R283). -/
def execRfMuteN (low : Bool) (s : State) : Host.Outcome State Fault Refusal :=
  let s1 := s.onRf fun r => { r with pinRaw := low }
  if s.dev.st == .off then .next (s1.onRf fun r => { r with pin := low })
  else if low = s.rf.pinRaw then .next s
  else
    let s2 := { s1 with delayed := s1.delayed.filter fun d => match d.eff with | .mutePin _ => false | _ => true }
    .next (if low = s.rf.pin then s2 else if s.rf.filter = 0 then s2.mutePin low else s2.delay (s.now + s.rf.filter * uNs) (.mutePin low))

/-- MUTE_TAKE_EFFECT: the next mute of a line takes effect at the mute point, and the DAC input goes to code 0 (R281). -/
def execMuteTakeEffect (n : Fin 40) (s : State) : Host.Outcome State Fault Refusal :=
  let d := s.dac n
  match d.mutes ++ d.muteAt.toList with
  | [] => .next s
  | m :: ms =>
    let t := ms.foldl min m
    .next ((s.advanceTo t).onDac n fun d =>
      let d1 := d.takeMutes t
      match d1.muteAt with
      | some x => { d1 with muteAt := none, zeroAt := x, zero := true }
      | none => d1)

/-- SWITCH_OPEN: 50 ns into a mute the output switch opens (R281). -/
def execSwitchOpen (n : Fin 40) (s : State) : Host.Outcome State Fault Refusal :=
  let d := s.dac n
  if d.zero ∧ d.cause ≠ 0 ∧ !d.opened then
    .next ((s.advanceTo (d.zeroAt + tSwitch)).onDac n fun d => { d with opened := true })
  else .next s

/-- UNMUTE_RESUME: the DAC input resumes (R282). -/
def execUnmuteResume (n : Fin 40) (s : State) : Host.Outcome State Fault Refusal :=
  match (s.dac n).resumeAt with
  | some t =>
    if (s.dac n).cause = 0 then .next ((s.advanceTo t).onDac n fun d => { d with zero := false, resumeAt := none }) else .next s
  | none => .next s

/-- LINE_SETTLE: a line that left OFF has settled; an unmute that has waited for it acts at the coarse tick (R279). -/
def execLineSettle (n : Fin 40) (s : State) : Host.Outcome State Fault Refusal :=
  match (s.dac n).settleTo with
  | some t =>
    let s1 := s.advanceTo t
    .next (s1.onDac n fun d => { d with settleTo := none })
  | none => .next s

/-- THERM: a chiplet's temperature crosses 110 °C or falls below 100 °C (R280). -/
def execTherm (c : Fin 4) (milliC : Int) (s : State) : Host.Outcome State Fault Refusal :=
  if 110000 < milliC ∧ !s.rf.hot.contains c.val then
    .next ((s.onRf fun r => { r with hot := c.val :: r.hot }).setCauses (chipDacs c) mTherm true)
  else if milliC < 100000 ∧ s.rf.hot.contains c.val then
    .next ((s.onRf fun r => { r with hot := r.hot.filter fun x => x != c.val }).clearCauses (chipDacs c) mTherm)
  else .next s

end Sys2Proof.Machine
end

