-- ==== Sys2Proof/Machine/Sequencer.lean ====
section
/-! DEFINITION. The step sequencer (03, R90 to R113): one meaning for each step word, the waits and their ends, LATE and
fast-forward, the ring and its refill.

Sample counts are output times throughout: a sample is issued 60 samples earlier (R80). A row for a step word runs that
word of the Folio named if it is the next word of the Folio's program; otherwise it leaves the state as it is. -/
namespace Sys2Proof.Machine

/-- The device time at which an output sample begins. -/
def outTime (n : Nat) : Nat := n * uSample

/-- The device time at which an output sample is issued. -/
def issueTime (n : Nat) : Nat := (n - lOut) * uSample

/-! ### The program counter and the ring (R108, R109) -/

/-- The ring's length in words; 0 without a ring. -/
def RingCfg.words (r : RingCfg) : Nat := 2048 - r.base

/-- The words of the stream. -/
def RingCfg.total (r : RingCfg) : Nat := r.length / 16

/-- The step-memory address of stream word `pos`. -/
def Folio.ringAddr (fo : Folio) (pos : Nat) : Nat :=
  let len := fo.ring.words
  if len = 0 then 2048 else fo.ring.base + (pos + len - fo.rr.origin % len) % len

/-- The next word of the program; none where it is not resident or the sequencer stands at the wrap. -/
def Folio.word (fo : Folio) : Option Nat :=
  if fo.inRing && (fo.pc == 2048 || decide (fo.rr.fetched ≤ fo.rr.next)) then none else some (tget 0 fo.steps fo.pc)

/-- The stream words still held for an open level of the ring (R109): the first word that is not free. -/
def Folio.heldFrom (fo : Folio) : Nat :=
  fo.reps.foldl (fun n r => if r.inRing then min n (r.pos - 1) else n) fo.rr.next

/-- The resident words ahead of the sequencer (R109). -/
def Folio.residentAhead (fo : Folio) : Nat := fo.rr.fetched - fo.rr.next

/-- The Folio goes on at stream word `pos`, which may lie in the pass before or after the present one. -/
def Folio.ringGo (fo : Folio) (pos : Nat) : Folio :=
  let len := fo.ring.words
  let org := if pos < fo.rr.origin then fo.rr.origin - len else if fo.rr.origin + len < pos then fo.rr.origin + len
    else fo.rr.origin
  { fo with inRing := true, pc := fo.ring.base + (pos - org), rr := { fo.rr with next := pos, origin := org } }

/-- The target of a BRANCH taken or a JUMP (R108): a static address, or the ring's resume point. -/
def Folio.target (fo : Folio) (ring : Bool) (t : Nat) : Folio :=
  let fo1 := if fo.inRing then { fo with rr := { fo.rr with next := fo.rr.next + 1 } } else fo
  if ring then if fo.ring.base = 2048 then { fo with past := true }.toHalt 9 else fo1.ringGo fo1.rr.next
  else if fo.ring.base ≤ t then { fo with past := true }.toHalt 9
  else { fo1 with inRing := false, pc := t }

/-- The low-watermark channel fires once when the resident words ahead fall below LWM (R109). -/
def State.checkLwm (s : State) (q f : Nat) : State :=
  let fo := s.folio q f
  if fo.ring.base = 2048 then s
  else
    let low := decide (fo.residentAhead < fo.ring.lwm)
    let s1 := s.onFolio q f fun x => { x with rr := { x.rr with lwmFired := low } }
    if low && !fo.rr.lwmFired then s1.fireObj fo.cfg.evLwm (folioId q f) else s1

/-! ### The sequencer's own time (R95 to R97, R110), in output samples -/

/-- The sample at which the sequencer takes its next word: up to 64 samples ahead of issue, not before a BRANCH's
decision point, one word per cycle. -/
def Folio.taken (fo : Folio) : Nat :=
  max fo.free (match fo.dp with | some _ => fo.boundary - 12 | none => fo.boundary - ahead)

/-- One zero-time word has been processed: it costs a cycle and counts in the run after a decision point (R97); a run
beyond four words makes the Folio LATE with cause BEHIND. -/
def Folio.zeroTime (fo : Folio) : Folio :=
  let run := if fo.dp.isSome then fo.run + 1 else 0
  { fo with free := fo.taken + 2, run := run,
            pendLate := (if 4 < run then some (fo.pendLate.getD 3) else fo.pendLate) }

/-! ### Boundaries -/

/-- A zero-time word's effect at the boundary at output sample `n` (R95). -/
def State.boundOp (s : State) (q f n : Nat) (o : BoundOp) : State :=
  match o with
  | .frame c e re =>
    let b := leBytes 16 e
    let m := u b 15 1
    let to' : Ctx :=
      { fw := BitVec.ofNat 48 (u b 0 6), phase := BitVec.ofNat 32 (u b 6 4), ascale := u b 10 3, lineA := u b 13 1,
        lineB := u b 14 1, epoch := 0 }
    s.onFolio q f fun fo => fo.onCtx c fun x =>
      let y := x.merge m to'
      { y with epoch := if re then BitVec.ofNat 48 n else x.epoch }
  | .shift c d => s.onFolio q f fun fo => fo.onCtx c fun x => { x with phase := x.phase + d }
  | .emit ch => s.fireObj ch (folioId q f)

/-- The value of FR0 to FR7 just before an instant (R96, R104, R105): a change at the instant itself is not seen. -/
def Folio.regNow (fo : Folio) (r : Nat) : Nat :=
  if r < 4 then (lget ⟨0, []⟩ fo.fr r).val
  else if r < 7 then (match fo.reps[fo.reps.length - 1 - (r - 4)]? with
    | some l => if r - 4 < fo.reps.length then l.index else 0
    | none => 0)
  else ofBool fo.timeout + 2 * ofBool fo.stale + 4 * ofBool fo.lateSeen + 8 * ofBool fo.wordErr
def Folio.regAt (fo : Folio) (r t : Nat) : Nat :=
  if r < 4 then (lget ⟨0, []⟩ fo.fr r).before t
  else match (fo.frOld.filter fun e => decide (t ≤ e.1)).getLast? with
    | some e => lget 0 e.2 (r - 4)
    | none => fo.regNow r

/-- What FR4 to FR7 read, and the record of a change of them at an instant; the latest 16 changes are kept. -/
def Folio.flags (fo : Folio) : List Nat := [4, 5, 6, 7].map fo.regNow
def Folio.noted (fo : Folio) (before : List Nat) (t : Nat) : Folio :=
  if fo.flags = before then fo else { fo with frOld := ((t, before) :: fo.frOld).take 16 }

/-- The Folio's boundary has come: device time stands at it, the host's writes have come first (R113), and the zero-time
words before it take effect in program order. Its decision point becomes the previous one where a BRANCH was decided at it; a boundary without a BRANCH
has none. DEDUCED. -/
def State.reach (s : State) (q f : Nat) : State :=
  let fo := s.folio q f
  let s1 := s.advanceTo (outTime fo.boundary)
  let ops := if fo.st == .halted then fo.ops.filter (fun o => match o with | .emit _ => false | _ => true) else fo.ops
  let s2 := ops.foldl (fun a o => a.boundOp q f fo.boundary o) s1
  s2.onFolio q f fun x =>
    { x with ops := [], prevDp := x.dp.getD x.prevDp, dp := none, run := 0,
             evLog := x.evLog.filter fun e => decide (x.dp.getD x.prevDp ≤ e.2) }

/-- Both generators silent from the Folio's boundary on. -/
def State.silence (s : State) (q f : Nat) : State :=
  let sq := s.synq q
  s.onFolio q f fun x => { x with genA := x.genA.silence sq x.boundary, genB := x.genB.silence sq x.boundary }

/-- What follows once time has passed from `s` to `s1`: nothing, where the Folio has been halted on the way by a SEQ_STOP that came due (R126). -/
def State.still (s s1 : State) (q f : Nat) (k : State → State) : State := if (s.folio q f).busy && !(s1.folio q f).busy then s1 else k s1

/-- A Folio after a halt at its boundary; triggers not judged yet are latched or dropped (R102). -/
def Folio.haltBound (fo : Folio) (cause : Nat) : Folio :=
  fo.trigQ.foldl Folio.trigger
    { fo with genA := Gen.stop fo.boundary, genB := Gen.stop fo.boundary, st := .halted, haltCause := cause, past := fo.past || fo.wait.isSome,
              wait := none, pendHalt := none, pendLate := none, stop0 := none, trigQ := [] }

/-- The Folio halts at its boundary, from which both generators are zero (R95, R107, R593). -/
def State.haltAt (s : State) (q f cause : Nat) : State :=
  s.still (s.reach q f) q f fun t => (t.onFolio q f fun fo => fo.haltBound cause).fireObj (s.folio q f).cfg.evHalt (folioId q f)

/-- A halt cause stands for the boundary: one of the program's own, or a SEQ_STOP that came before its issue (R126). -/
def Folio.halting (fo : Folio) : Option Nat :=
  match fo.pendHalt with
  | some c => some c
  | none =>
    match fo.stop0 with
    | some n => if n ≤ fo.boundary then some 2 else none
    | none => none

/-! ### Words that are not resident (R110) -/

/-- The LATE cause of a word that is not resident (R110). -/
def Folio.absentCause (fo : Folio) : Nat :=
  if fo.ring.total ≤ fo.rr.next then 4
  else if fo.reps.any fun r => r.inRing && decide (fo.ring.words - 64 < fo.rr.next + 1 - (r.pos - 1)) then 5
  else 1

/-- Some word between the sequencer and its next timed step is not resident. -/
def Folio.pathOpen (fo : Folio) : Nat → Nat → Bool
  | 0, _ => true
  | n + 1, pos =>
    if fo.rr.fetched ≤ pos then true
    else
      match decodeStep (tget 0 fo.steps (fo.ringAddr pos)) with
      | some (.halt) | some (.jump ..) | some .repeatEnd | none => false
      | some x => if x.timed then false else fo.pathOpen n (pos + 1)

/-- The words that were resident at an instant. -/
def Folio.fetchedAt (fo : Folio) (t : Nat) : Nat :=
  match (fo.rr.log.filter fun e => decide (t < e.1)).getLast? with
  | some e => e.2
  | none => fo.rr.fetched

/-- A wait ends, and the next timed step starts at output sample `n`. A word on the path to it that was not resident 64 samples before that step's issue
makes the Folio LATE (R110), though the wait has ended later than that. -/
def Folio.goesOn (fo : Folio) (n : Nat) : Folio :=
  let x := { fo.advance with st := .running, wait := none, boundary := n }
  let old := { x with rr := { x.rr with fetched := min x.rr.fetched (x.fetchedAt (issueTime (n - ahead))) } }
  if x.inRing && x.rr.fetched != old.rr.fetched && old.pathOpen 2048 x.rr.next then { x with pendLate := some (x.pendLate.getD old.absentCause) } else x

/-! ### Triggers (R101, R102) -/

/-- The triggers that came too near a boundary to be judged are judged now, those still too near are kept. -/
def Folio.drainTrig (fo : Folio) : Folio :=
  let late := fo.trigQ.filter fun a => fo.st == .running && decide (fo.boundary ≤ a)
  let now := fo.trigQ.filter fun a => !(fo.st == .running && decide (fo.boundary ≤ a))
  now.foldl (fun x a => x.trigger a) { fo with trigQ := late }

/-- The field of TRIG_EV among a Folio's registrations (R499). -/
def trigField : Nat := 4

/-- An event of a channel reaches a Folio (R98, R100 to R102), which consumes it by `fields`. -/
def State.seqArrive (s : State) (q f ch : Nat) (fields : List Nat) : State :=
  let a := sampleOf s.now + lOut
  s.onFolio q f fun fo =>
    let fo1 := { fo with evLog := if fo.busy then (ch, s.now) :: fo.evLog else fo.evLog }
    let fo2 :=
      match fo1.wait with
      | some (.event c b e _) =>
        if c = ch && decide (b ≤ a) && decide (a < e) then
          fo1.goesOn (a + 16)
        else fo1
      | _ => fo1
    if fo2.cfg.stepwait && fields.contains trigField then
      if fo2.st == .running && decide (fo2.boundary ≤ a) then { fo2 with trigQ := fo2.trigQ ++ [a] }
      else fo2.trigger a
    else fo2

/-! ### LATE (R110, R111) -/

/-- The Folio goes LATE at the scheduled start of the late step. The spill sample of the step before, which belongs to that step, still comes out at this
sample. DESIGN CHOICE. -/
def State.goLate (s : State) (q f cause : Nat) : State :=
  s.still (s.reach q f) q f fun t =>
    let s2 := ((t.silence q f).onFolio q f fun fo =>
      { fo with st := .late, lateCause := cause, lateSeen := true, lateCount := inc32 fo.lateCount, pendLate := none,
                wait := none, free := max fo.free fo.boundary }).fireObj (s.folio q f).cfg.evLate (folioId q f)
    if cause = 4 then s2.haltAt q f 4
    else if (s.folio q f).cfg.lateHalt then (s2.onFolio q f fun fo => { fo with past := cause == 2 }).haltAt q f 3 else s2

/-- The sample at which a LATE Folio's sequencer reaches its next word. -/
def State.lateReach (s : State) (fo : Folio) : Nat := max fo.free (sampleOf s.now + lOut)

/-- Output can resume at the step the Folio has reached: its issue is still 64 samples ahead (R110). DEDUCED: the spec does not say whether the step's
issue or its output is meant. -/
def State.canResume (s : State) (fo : Folio) : Bool := decide (s.lateReach fo + ahead ≤ fo.boundary)

/-- One word of a LATE Folio is passed over; a timed step moves the schedule on by its duration. -/
def Folio.skip (fo : Folio) (reach dur : Nat) : Folio :=
  { fo.advance with free := reach + 2, boundary := fo.boundary + dur }

/-- A firing suppressed in fast-forward (R111). -/
def Folio.suppress (fo : Folio) (b : Bool) : Folio := if b then { fo with skipCount := inc32 fo.skipCount } else fo

/-! ### The frame of every word row -/

/-- A Folio that has halted had issued sample `n` before (R593). -/
def Folio.issuesAt (fo : Folio) (n : Nat) : Bool := match fo.cut with | some c => decide (n < c) | none => false

/-- How a word acts: on a Folio that runs, and on one that is LATE. -/
structure WordAct where
  run : State → State
  late : State → Nat → State

/-- When the changes of FR4 to FR7 that a Folio's next word `x` makes are dated, the word having led to `t`: a BRANCH at its decision point, another word
without a duration when the sequencer takes it, a step when its first sample is issued, or put out where the Folio has gone LATE (R96, R98). -/
def State.wordAt (s : State) (q f : Nat) (x : StepWord) (t : State) : Nat :=
  match x with
  | .branch .. => outTime ((s.folio q f).boundary - dpLead)
  | _ => if !x.timed then issueTime (s.folio q f).taken
    else if (t.folio q f).st == .late then outTime (s.folio q f).boundary else issueTime (s.folio q f).boundary

/-- What every word row does after its word: the low-water mark is looked at, and the change of the flags is dated. -/
def State.wordDone (s : State) (q f : Nat) (x : StepWord) (t : State) : State :=
  (t.checkLwm q f).onFolio q f fun y => y.noted (s.folio q f).flags (s.wordAt q f x t)

/-- Runs the Folio's next word through `k`, which knows the words of its row. A halt that stands for the boundary comes
first; an invalid ring word halts the Folio with cause 12. A change of FR4 to FR7 is recorded with the instant of the word: its decision point, or when the
sequencer takes it. -/
def State.seqRow (s : State) (q f : Nat) (k : StepWord → Option WordAct) : State :=
  let fo := s.folio q f
  let tail := fo.st == .halted && fo.issuesAt fo.boundary
  if !(fo.busy || tail) then s
  else
    match (if tail || fo.st == .waiting then none else fo.halting), fo.word with
    | some c, _ => s.haltAt q f c
    | none, none => s
    | none, some w =>
      match decodeStep w with
      | none => if fo.inRing then s.onFolio q f fun x => x.toHalt 12 else s
      | some x =>
        match k x with
        | none => s
        | some a =>
          s.wordDone q f x (if fo.st == .late && !s.canResume fo then a.late s (s.lateReach fo)
            else if fo.st == .late && x.timed then a.run (s.onFolio q f fun y => { y with st := .running })
            else if fo.st == .late then a.late s (s.lateReach fo)
            else a.run s)

/-! ### Timed steps -/

/-- How a step sets a generator: a play of its own, a hold, or silence. -/
inductive GenDo where
  | play (w : GenWord)
  | hold
  | silent
  deriving DecidableEq, Repr

/-- A generator at the start of a step. -/
def Gen.begin (sq : SynQuire) (fo : Folio) (g : Gen) (isB : Bool) (d : GenDo) (fine dur : Nat) : Gen :=
  match d with
  | .play w => g.play sq fo isB w fine fo.boundary dur
  | .hold => g.holdOn sq fo isB fo.boundary dur
  | .silent => g.silence sq fo.boundary

/-- A pending window put in the order of the first labels. -/
def insPend (p : PendWin) : List PendWin → List PendWin
  | [] => [p]
  | x :: t => if x.start ≤ p.start then x :: insPend p t else p :: x :: t

/-- An ACQUIRE's window (R93, R138): it is pending until the first grid label at or after s₀ + WOFF. -/
def State.acquire (s : State) (q f n rset woff : Nat) : State :=
  let fo := s.folio q f
  let no := fo.acqNo + 1
  (s.onFolio q f fun x => { x with acqNo := no, acqs := ((no, n) :: x.acqs).take 16 }).onDemod q f fun d =>
    { d with pend := insPend { rset := rset, start := roundUp (n + woff) 8, acq := no } d.pend }

/-- A timed step starts at the Folio's boundary. -/
def State.startStep (s : State) (q f dur fine : Nat) (a b : GenDo) (mark : Bool) (acq : Option (Nat × Nat)) : State :=
  let free := (s.folio q f).taken + 2
  let s1 := s.reach q f
  let sq := s1.synq q
  let fo := s1.folio q f
  let n := fo.boundary
  let tail := fo.st == .halted
  if tail && !fo.issuesAt n then s1 else
  let s2 := s1.onFolio q f fun x =>
    let ga := x.genA.begin sq fo false a fine dur
    let gb := x.genB.begin sq fo true b fine dur
    let ga := match tail, x.cut with | true, some c => ga.cutAt c | _, _ => ga
    let gb := match tail, x.cut with | true, some c => gb.cutAt c | _, _ => gb
    let y := { x with genA := ga, genB := gb, wait := none, st := if tail then .halted else .running }
    { y.advance with free := free, boundary := n + dur }.drainTrig
  let s3 := match acq with
    | some (rs, wo) => s2.acquire q f n rs wo
    | none => s2
  if mark && !tail then s3.fireObj fo.cfg.evMark (folioId q f) else s3

/-- A PLAY, HOLD or ACQUIRE of a running Folio: it may be LATE; in STEPWAIT mode it waits for its trigger first (the
first row begins the wait, the next one starts the step once the trigger has set its start, R101). -/
def State.timedWord (s : State) (q f dur fine : Nat) (a b : GenDo) (mark : Bool) (acq : Option (Nat × Nat)) : State :=
  let fo := s.folio q f
  if fo.st == .halted then s.startStep q f dur fine a b mark acq
  else
    match fo.wait with
    | some (.trig _ _ (some n)) =>
      let s1 := s.onFolio q f fun x => { x with boundary := n }
      match (s1.folio q f).halting with
      | some c => s1.haltAt q f c
      | none => s1.startStep q f dur fine a b mark acq
    | some _ => s
    | none =>
      match fo.pendLate with
      | some c => s.goLate q f c
      | none =>
        if fo.boundary < fo.taken + 2 then s.goLate q f 3
        else if fo.cfg.stepwait then
          s.still (s.advanceTo (outTime fo.boundary)) q f fun t => (t.silence q f).onFolio q f fun x =>
            let due := match x.latch with
              | some n => some ((if fo.boundary ≤ n then n else fo.boundary) + 16)
              | none => none
            { x with st := .waiting, timeout := false, latch := none,
                     wait := some (.trig fo.boundary (fo.boundary + x.cfg.trigTo) due) }.drainTrig
        else s.startStep q f dur fine a b mark acq

/-- A timed step in fast-forward (R111): its MARK fires nothing, its ACQUIRE opens no window. -/
def State.skipStep (s : State) (q f dur reach : Nat) (mark acq : Bool) : State :=
  s.onFolio q f fun fo =>
    let fo1 := fo.suppress (mark && decide (fo.cfg.evMark < 256))
    let fo2 := if acq then { fo1 with acqNo := fo1.acqNo + 1, acqs := ((fo1.acqNo + 1, fo1.boundary) :: fo1.acqs).take 16 }
      else fo1
    fo2.skip reach dur

/-- PLAY (R91). -/
def State.wordPlay (q f : Nat) : StepWord → Option WordAct
  | .play d fi a b m =>
    some { run := fun s => s.timedWord q f d fi (.play a) (.play b) m none,
           late := fun s r => s.skipStep q f d r m false }
  | _ => none

/-- HOLD (R90, R93). -/
def State.wordHold (q f : Nat) : StepWord → Option WordAct
  | .hold d ha hb m =>
    some { run := fun s => s.timedWord q f d 0 (if ha then .hold else .silent) (if hb then .hold else .silent) m none,
           late := fun s r => s.skipStep q f d r m false }
  | _ => none

/-- ACQUIRE (R91, R93). -/
def State.wordAcquire (q f : Nat) : StepWord → Option WordAct
  | .acquire d fi a rs wo hb m =>
    some { run := fun s => s.timedWord q f d fi (.play a) (if hb then .hold else .silent) m (some (rs, wo)),
           late := fun s r => s.skipStep q f d r m true }
  | _ => none

/-- The start time of a WAIT_UNTIL (R94, R99); the bytes of its entry that R94 gives as zero are not looked at (DESIGN CHOICE): WMODE, the parameter entry, the SEQ_GO start and the end of the previous
timed step. A grid entry with PERIOD outside 64 to 2^40 or OFFSET beyond it, or a device time that is none, gives no
time. -/
def waitEnd (wmode entry go bnd : Nat) : Option Nat :=
  let b := leBytes 16 entry
  match wmode with
  | 0 => (dtOf (b.take 12)).map sampleAt
  | 1 => some (go + u b 0 8)
  | _ =>
    let p := u b 0 8
    let o := u b 8 8
    if 64 ≤ p && decide (p ≤ 2 ^ 40) && decide (o < p) then some (bnd + ((o + p - bnd % p) % p)) else none

/-- WAIT_UNTIL begins (R99): both generators silent until the start time; an earlier start makes the Folio LATE with
cause WAIT_PAST. An entry that gives no time is taken as past. -/
def State.beginUntil (s : State) (q f wmode : Nat) (bnd : Bool) (pidx : Nat) : State :=
  let fo := s.folio q f
  match fo.pendLate with
  | some c => s.goLate q f c
  | none =>
    if fo.boundary < fo.taken + 2 then s.goLate q f 3
    else
      match waitEnd wmode (tget 0 fo.params pidx) fo.go fo.boundary with
      | none => s.goLate q f 2
      | some n =>
        if n < fo.boundary then s.goLate q f 2
        else
          let free := fo.taken + 2
          s.still (s.reach q f) q f fun t => (t.silence q f).onFolio q f fun x =>
            { x with st := .waiting, wait := some (.until n bnd), free := free }.drainTrig

/-- WAIT_UNTIL in fast-forward (R111): an end that still lies in the future is the resume point. -/
def State.skipUntil (s : State) (q f wmode : Nat) (bnd : Bool) (pidx reach : Nat) : State :=
  s.onFolio q f fun fo =>
    match waitEnd wmode (tget 0 fo.params pidx) fo.go fo.boundary with
    | none => fo.skip reach 0
    | some n =>
      if reach < n then { fo with st := .waiting, wait := some (.until n bnd), free := reach + 2, boundary := max fo.boundary reach }
      else { fo.skip reach 0 with boundary := n }

/-- WAIT_UNTIL. -/
def State.wordWaitUntil (q f : Nat) : StepWord → Option WordAct
  | .waitUntil w b p =>
    some { run := fun s => if (s.folio q f).wait.isSome || (s.folio q f).st == .halted then s else s.beginUntil q f w b p,
           late := fun s r => s.skipUntil q f w b p r }
  | _ => none

/-- The earliest arrival of a channel in a span of issued samples. -/
def Folio.arrival (fo : Folio) (ch lo hi : Nat) : Option Nat :=
  (fo.evLog.filterMap fun e =>
    let a := sampleOf e.2 + lOut
    if e.1 = ch && decide (lo ≤ a) && decide (a < hi) then some a else none).min?

/-- WAIT_EVENT begins (R100), in issue time: an arrival since its first issued sample ends it at once. -/
def State.beginEvent (s : State) (q f dur ch : Nat) (toHalt : Bool) : State :=
  let fo := s.folio q f
  match fo.pendLate with
  | some c => s.goLate q f c
  | none =>
    if fo.boundary < fo.taken + 2 then s.goLate q f 3
    else
      let free := fo.taken + 2
      let n := fo.boundary
      let hit := fo.arrival ch n (n + dur)
      s.still (s.reach q f) q f fun t => (t.silence q f).onFolio q f fun x =>
        let y := { x with timeout := false, free := free }
        match hit with
        | some a => (y.goesOn (a + 16)).drainTrig
        | none => { y with st := .waiting, wait := some (.event ch n (n + dur) toHalt) }.drainTrig

/-- WAIT_EVENT. -/
def State.wordWaitEvent (q f : Nat) : StepWord → Option WordAct
  | .waitEvent d c h =>
    some { run := fun s => if (s.folio q f).wait.isSome || (s.folio q f).st == .halted then s else s.beginEvent q f d c h,
           late := fun s r => s.onFolio q f fun fo =>
             if r < fo.boundary + d then
               { fo with st := .waiting, free := r + 2, timeout := false,
                         wait := some (.event c (max r fo.boundary) (fo.boundary + d) h),
                         boundary := max fo.boundary r }
             else fo.skip r d }
  | _ => none

/-! ### Zero-time steps -/

/-- The sequencer takes the Folio's next word, up to 64 samples ahead of issue (R95), and does `k` with it. -/
def State.takeWord (s : State) (q f : Nat) (k : State → State) : State := s.still (s.advanceTo (issueTime (s.folio q f).taken)) q f k

/-- The Folio's next word has been processed (R127). -/
def State.passWord (s : State) (q f : Nat) : State := s.onFolio q f fun fo => { fo with past := true }

/-- HALT (R90): at the boundary. -/
def State.wordHalt (q f : Nat) : StepWord → Option WordAct
  | .halt =>
    some { run := fun s =>
             if (s.folio q f).st == .halted then s
             else match (s.folio q f).zeroTime.pendLate with
               | some c => s.goLate q f c
               | none => (s.passWord q f).haltAt q f 1,
           late := fun s _ => (s.passWord q f).haltAt q f 1 }
  | _ => none

/-- The comparison of a CSRC 3 condition (R93). -/
def cmpReg (cmp a b : Nat) : Bool :=
  match cmp with
  | 0 => a == b
  | 1 => a != b
  | 2 => decide (a < b)
  | 3 => decide (b ≤ a)
  | 4 => decide (toSigned 32 a < toSigned 32 b)
  | 5 => decide (toSigned 32 b ≤ toSigned 32 a)
  | _ => (BitVec.ofNat 32 a &&& BitVec.ofNat 32 b) != 0

/-- The latest result that a CSRC 1 condition may use at an instant (R98): that of the Folio's latest ACQUIRE before it;
a result with STATE 3 is stale (R140). -/
def State.freshResult (s : State) (q f t : Nat) : Option Nat :=
  match (s.folio q f).acqs.find? fun a => decide (outTime a.2 < t) with
  | none => none
  | some (no, _) =>
    match (s.demod q f).results.find? fun r => r.acq == no && decide (r.time < t) with
    | some r => if r.word % 4 = 3 then none else some r.word
    | none => none

/-- The condition of a BRANCH at its decision point (R98): whether it holds, or none where it is stale. -/
def State.cond (s : State) (q f t : Nat) (c : Cond) : Option Bool :=
  let fo := s.folio q f
  match c with
  | .event ch => some (fo.evLog.any fun e => e.1 == ch && decide (fo.prevDp ≤ e.2) && decide (e.2 < t))
  | .result rf fl v =>
    (s.freshResult q rf t).map fun w =>
      match fl with
      | 0 => w % 4 == v
      | 1 => bitOf w 2
      | _ => decide (v ≤ w % 4)
  | .flag n => some (s.flagAt q n t == 1)
  | .reg r cmp imm => some (cmpReg cmp (fo.regAt r t) imm)

/-- BRANCH (R96, R98): the condition is taken at the decision point, 72 samples before the boundary. -/
def State.branch (s : State) (q f : Nat) (c : Cond) (neg ring : Bool) (t : Nat) : State :=
  let dp := outTime ((s.folio q f).boundary - dpLead)
  s.still (s.advanceTo dp) q f fun s1 =>
    let r := s1.cond q f dp c
    let isResult := match c with | .result .. => true | _ => false
    let take := match r with | some b => b != neg | none => false
    s1.onFolio q f fun fo =>
      let fo1 := { fo with dp := some dp }.zeroTime
      let fo2 := { fo1 with stale := if isResult then r.isNone else fo1.stale,
                            staleCount := if r.isNone then inc32 fo1.staleCount else fo1.staleCount }
      if take then fo2.target ring t else fo2.advance

/-- BRANCH; in fast-forward it takes its not-taken path (R111). -/
def State.wordBranch (q f : Nat) : StepWord → Option WordAct
  | .branch c n r t =>
    some { run := fun s => s.branch q f c n r t, late := fun s r => s.onFolio q f fun fo => fo.skip r 0 }
  | _ => none

/-- JUMP. -/
def State.wordJump (q f : Nat) : StepWord → Option WordAct
  | .jump r t =>
    some { run := fun s => s.takeWord q f fun s1 => s1.onFolio q f fun fo => fo.zeroTime.target r t,
           late := fun s re => s.onFolio q f fun fo => { fo.target r t with free := re + 2 } }
  | _ => none

/-- REPEAT_BEGIN (R103): opens a level; a fourth is a repeat fault. -/
def Folio.repBegin (fo : Folio) (count : Nat) (fromReg : Bool) (reg t : Nat) : Folio :=
  if 3 ≤ fo.reps.length then fo.toHalt 8
  else
    let iters := (if fromReg then fo.regAt reg t % 65536 else count) + 1
    let fo1 := fo.advance
    { fo1 with reps := { body := fo1.pc, inRing := fo1.inRing, pos := fo1.rr.next, iters := iters, index := 0 } :: fo1.reps }

/-- REPEAT_END (R103): another iteration from the word after the level's REPEAT_BEGIN, or the level closes. -/
def Folio.repEnd (fo : Folio) : Folio :=
  match fo.reps with
  | [] => fo.toHalt 8
  | r :: rs =>
    if r.index + 1 < r.iters then
      let fo1 := { fo with reps := { r with index := r.index + 1 } :: rs }
      if r.inRing then fo1.ringGo r.pos
      else
        let fo2 := if fo1.inRing then { fo1 with rr := { fo1.rr with next := fo1.rr.next + 1 } } else fo1
        { fo2 with inRing := false, pc := r.body }
    else { fo with reps := rs }.advance

/-- REPEAT_BEGIN reads its register when the word executes. -/
def State.wordRepeatBegin (q f : Nat) : StepWord → Option WordAct
  | .repeatBegin c fr r =>
    some { run := fun s => s.takeWord q f fun s1 => s1.onFolio q f fun fo => fo.zeroTime.repBegin c fr r (s1.now + 1),
           late := fun s re => s.onFolio q f fun fo => { fo.repBegin c fr r (s.now + 1) with free := re + 2 } }
  | _ => none

/-- REPEAT_END. -/
def State.wordRepeatEnd (q f : Nat) : StepWord → Option WordAct
  | .repeatEnd =>
    some { run := fun s => s.takeWord q f fun s1 => s1.onFolio q f fun fo => fo.zeroTime.repEnd,
           late := fun s re => s.onFolio q f fun fo => { fo.repEnd with free := re + 2 } }
  | _ => none

/-- A step ignored as a word error (R105). -/
def Folio.badWord (fo : Folio) : Folio := { fo with wordErr := true, wordErrCount := inc32 fo.wordErrCount }

/-- The range of FW and DFW (R81, R133). -/
def fwOk (i : Int) : Bool := decide (-0x666666666666 ≤ i) && decide (i ≤ 0x666666666666)

/-- A SET_FRAME entry that can be applied (R94, R105): FW in range, lines declared or none, reserved bits zero, whether its MASK names them or not. -/
def frameOk (sq : SynQuire) (e : Nat) : Bool :=
  let b := leBytes 16 e
  let m := u b 15 1
  let line := fun l => l == 0xFF || sq.lines.any fun x => x.line == l
  decide (m < 32) && decide (u b 10 3 < 2 ^ 18) && fwOk (toSigned 48 (u b 0 6)) && line (u b 13 1) && line (u b 14 1)

/-- SET_FRAME (R90, R94): the entry is read now and takes effect at the boundary, in fast-forward at once. -/
def State.wordSetFrame (q f : Nat) : StepWord → Option WordAct
  | .setFrame c re p =>
    some { run := fun s => s.takeWord q f fun s1 => s1.onFolio q f fun fo =>
               let e := tget 0 fo.params p
               let fo1 := if frameOk (s1.synq q) e then { fo with ops := fo.ops ++ [.frame c e re] } else fo.badWord
               fo1.zeroTime.advance,
           late := fun s r =>
             let fo := s.folio q f
             let e := tget 0 fo.params p
             let s1 := if frameOk (s.synq q) e then s.boundOp q f fo.boundary (.frame c e re)
               else s.onFolio q f fun x => x.badWord
             s1.onFolio q f fun x => x.skip r 0 }
  | _ => none

/-- SHIFT_PHASE (R90). -/
def State.wordShiftPhase (q f : Nat) : StepWord → Option WordAct
  | .shiftPhase c fr r d =>
    some { run := fun s => s.takeWord q f fun s1 => s1.onFolio q f fun fo =>
               let v := if fr then fo.regAt r (s1.now + 1) else d
               { fo with ops := fo.ops ++ [BoundOp.shift c (BitVec.ofNat 32 v)] }.zeroTime.advance,
           late := fun s re =>
             let fo := s.folio q f
             let v := if fr then fo.regAt r (s.now + 1) else d
             (s.boundOp q f fo.boundary (.shift c (BitVec.ofNat 32 v))).onFolio q f fun x => x.skip re 0 }
  | _ => none

/-- EMIT_EVENT (R90, R105): dropped as a word error where the channel does not list the Folio as producer. -/
def State.wordEmitEvent (q f : Nat) : StepWord → Option WordAct
  | .emitEvent ch =>
    some { run := fun s => s.takeWord q f fun s1 => s1.onFolio q f fun fo =>
             let fo1 := if (s.inForce ch).prods.any fun r => r.obj == folioId q f then { fo with ops := fo.ops ++ [.emit ch] }
               else fo.badWord
             fo1.zeroTime.advance,
           late := fun s r => s.onFolio q f fun fo => (fo.suppress true).skip r 0 }
  | _ => none

/-- What a word of any row does. -/
def State.anyWord (q f : Nat) (x : StepWord) : Option WordAct :=
  [State.wordHalt q f, State.wordPlay q f, State.wordHold q f, State.wordAcquire q f, State.wordWaitUntil q f, State.wordWaitEvent q f, State.wordBranch q f,
   State.wordJump q f, State.wordRepeatBegin q f, State.wordRepeatEnd q f, State.wordSetFrame q f, State.wordShiftPhase q f, State.wordEmitEvent q f].findSome?
    fun k => k x

/-- The words of a halted Folio that it had issued before it halted (R593), `n` at most. -/
def State.runTail (s : State) (q f : Nat) : Nat → State
  | 0 => s
  | n + 1 =>
    let fo := s.folio q f
    if fo.st == .halted && fo.issuesAt fo.boundary then
      (s.seqRow q f (State.anyWord q f)).runTail q f n
    else s

/-- What all Folios have issued up to now comes out, and device time stands where it stood: effects that come later have to wait. -/
def State.runTails (s : State) : State :=
  let s1 := s.syn.quires.foldl (fun (a : State) e => e.2.folios.foldl (fun (b : State) x => b.runTail e.1 x.1 64) a) { s with delayed := [] }
  { s1 with now := s.now, delayed := s.delayed }

/-! ### The meanings of the step rows -/

def execStepHalt (q : Fin 16) (f : Fin 32) (s : State) : Host.Outcome State Fault Refusal :=
  .next (s.seqRow q f (State.wordHalt q f))
def execStepPlay (q : Fin 16) (f : Fin 32) (s : State) : Host.Outcome State Fault Refusal :=
  .next (s.seqRow q f (State.wordPlay q f))
def execStepHold (q : Fin 16) (f : Fin 32) (s : State) : Host.Outcome State Fault Refusal :=
  .next (s.seqRow q f (State.wordHold q f))
def execStepAcquire (q : Fin 16) (f : Fin 32) (s : State) : Host.Outcome State Fault Refusal :=
  .next (s.seqRow q f (State.wordAcquire q f))
def execStepWaitUntil (q : Fin 16) (f : Fin 32) (s : State) : Host.Outcome State Fault Refusal :=
  .next (s.seqRow q f (State.wordWaitUntil q f))
def execStepWaitEvent (q : Fin 16) (f : Fin 32) (s : State) : Host.Outcome State Fault Refusal :=
  .next (s.seqRow q f (State.wordWaitEvent q f))
def execStepBranch (q : Fin 16) (f : Fin 32) (s : State) : Host.Outcome State Fault Refusal :=
  .next (s.seqRow q f (State.wordBranch q f))
def execStepJump (q : Fin 16) (f : Fin 32) (s : State) : Host.Outcome State Fault Refusal :=
  .next (s.seqRow q f (State.wordJump q f))
def execStepRepeatBegin (q : Fin 16) (f : Fin 32) (s : State) : Host.Outcome State Fault Refusal :=
  .next (s.seqRow q f (State.wordRepeatBegin q f))
def execStepRepeatEnd (q : Fin 16) (f : Fin 32) (s : State) : Host.Outcome State Fault Refusal :=
  .next (s.seqRow q f (State.wordRepeatEnd q f))
def execStepSetFrame (q : Fin 16) (f : Fin 32) (s : State) : Host.Outcome State Fault Refusal :=
  .next (s.seqRow q f (State.wordSetFrame q f))
def execStepShiftPhase (q : Fin 16) (f : Fin 32) (s : State) : Host.Outcome State Fault Refusal :=
  .next (s.seqRow q f (State.wordShiftPhase q f))
def execStepEmitEvent (q : Fin 16) (f : Fin 32) (s : State) : Host.Outcome State Fault Refusal :=
  .next (s.seqRow q f (State.wordEmitEvent q f))

/-! ### The ends of waits -/

/-- A WAIT_UNTIL ends (R99): the sequencer takes the words after it 64 samples before issue. -/
def execWaitUntilEnd (q : Fin 16) (f : Fin 32) (s : State) : Host.Outcome State Fault Refusal :=
  match (s.folio q f).wait with
  | some (.until n _) =>
    .next (s.still (s.advanceTo (issueTime (n - ahead))) q f fun t => t.onFolio q f fun fo => fo.goesOn n)
  | _ => .next s

/-- A WAIT_EVENT times out (R100). -/
def execWaitEventTimeout (q : Fin 16) (f : Fin 32) (s : State) : Host.Outcome State Fault Refusal :=
  match (s.folio q f).wait with
  | some (.event _ _ n h) =>
    .next (s.still (s.advanceTo (issueTime n)) q f fun t =>
      let s1 := t.onFolio q f fun fo => { fo.goesOn n with timeout := true }.noted fo.flags (issueTime n)
      if h then s1.haltAt q f 5 else s1)
  | _ => .next s

/-- The STEPWAIT trigger times out (R101): the Folio halts, or the step starts at expiry. -/
def execTrigTimeout (q : Fin 16) (f : Fin 32) (s : State) : Host.Outcome State Fault Refusal :=
  match (s.folio q f).wait with
  | some (.trig b n none) =>
    .next (s.still (s.advanceTo (issueTime n)) q f fun t =>
      let s1 := t.onFolio q f fun fo => { fo with timeout := true, wait := some (.trig b n (some n)) }.noted fo.flags (issueTime n)
      if (s.folio q f).cfg.proceed then s1 else (s1.onFolio q f fun fo => { fo with boundary := n }).haltAt q f 6)
  | _ => .next s

/-! ### LATE, and the ring -/

/-- A Folio goes LATE (R110): because a run or a fault set it so, because its next word is not resident 64 samples before
issue, or because its words took longer than the time to issue. -/
def execFolioLate (q : Fin 16) (f : Fin 32) (s : State) : Host.Outcome State Fault Refusal :=
  let fo := s.folio q f
  if fo.st == .late && fo.word.isNone && fo.pc != 2048 && decide (fo.ring.total ≤ fo.rr.next) then
    .next ((s.onFolio q f fun x => { x with lateCause := 4 }).haltAt q f 4)
  else if fo.st != .running then .next s
  else
    match fo.pendLate with
    | some c => .next (s.goLate q f c)
    | none =>
      if fo.word.isNone && fo.pc != 2048 then
        .next (s.still (s.advanceTo (issueTime (fo.boundary - ahead))) q f fun t => t.goLate q f fo.absentCause)
      else if fo.boundary < fo.free then .next (s.goLate q f 3)
      else .next s

/-- Output resumes at the first timed step scheduled at least 64 samples ahead (R110). -/
def execFastForwardResume (q : Fin 16) (f : Fin 32) (s : State) : Host.Outcome State Fault Refusal :=
  let fo := s.folio q f
  let timed := match fo.word with
    | some w => (match decodeStep w with | some x => x.timed | none => false)
    | none => false
  .next (if fo.st == .late && timed && s.canResume fo then s.onFolio q f fun x => { x with st := .running } else s)

/-- A chunk of up to `n` stream words read from the region into the ring. -/
def State.fetchWords (s : State) (q f : Nat) : Nat → State
  | 0 => s
  | n + 1 =>
    let fo := s.folio q f
    if fo.ring.total ≤ fo.rr.fetched then s
    else
      let w := leNat (s.memRead fo.ring.region (fo.ring.start + 16 * fo.rr.fetched) 16)
      (s.onFolio q f fun x =>
        { x with steps := tput 0 x.steps (x.ringAddr x.rr.fetched) w,
                 rr := { x.rr with fetched := x.rr.fetched + 1 } }).fetchWords q f n

/-- The engine's latest fetches for a Folio are remembered with what was resident before them, 32 at most. -/
def Folio.noteFetch (fo : Folio) (t : Nat) : Folio := { fo with rr := { fo.rr with log := ((t, fo.rr.fetched) :: fo.rr.log).take 32 } }

/-- The free words of a Folio's ring (R109). -/
def Folio.ringFree (fo : Folio) : Nat := fo.ring.words - (fo.rr.fetched - fo.heldFrom)

/-- The refill engine may fetch for a Folio: a ring, 64 free words, and stream left. -/
def Folio.wantsRefill (fo : Folio) : Bool :=
  fo.ring.base != 2048 && decide (64 ≤ fo.ringFree) && decide (fo.rr.fetched < fo.ring.total)

/-- REFILL_FETCH (R109): the engine fetches 64 words for this Folio, if it has the fewest resident words ahead of those
that can take them; of two with as few the lower-numbered one (DESIGN CHOICE: the spec names none). Words that come later than 64 samples before issue make the Folio LATE. -/
def execRefillFetch (q : Fin 16) (f : Fin 32) (s : State) : Host.Outcome State Fault Refusal :=
  let fo := s.folio q f
  let first := (s.synq q).folios.all fun (g, x) =>
    !x.wantsRefill || decide (fo.residentAhead < x.residentAhead) ||
      (fo.residentAhead == x.residentAhead && decide (f.val ≤ g))
  if !(fo.wantsRefill && first) then .next s
  else
    let late := fo.st == .running && fo.inRing && fo.pathOpen 2048 fo.rr.next &&
      decide (issueTime (fo.boundary - ahead) < s.now)
    let s1 := if late then s.onFolio q f fun x => { x with pendLate := some (x.pendLate.getD fo.absentCause) } else s
    .next (((s1.onFolio q f fun x => x.noteFetch s.now).fetchWords q f 64).checkLwm q f)

/-- A ring setting put in force (R112, R123): the stream starts afresh at word `pos`. -/
def Folio.setRing (fo : Folio) (r : RingCfg) (pos : Nat) : Folio :=
  { fo with ring := r, ringPend := none, rr := { fetched := pos, next := pos, origin := pos, lwmFired := false, log := [] } }

/-- RING_WRAP (R112): the sequencer wraps from word 2,047 to the ring's first word; a pending change acts here: the words
beyond the wrap are fetched again, from the same stream position, into the new ring. -/
def execRingWrap (q : Fin 16) (f : Fin 32) (s : State) : Host.Outcome State Fault Refusal :=
  let fo := s.folio q f
  if !(fo.inRing && fo.pc == 2048) then .next s
  else
    match fo.ringPend with
    | none => .next (s.onFolio q f fun x =>
        { x with pc := x.ring.base, rr := { x.rr with origin := x.rr.next } })
    | some r =>
      let s1 := s.onFolio q f fun x =>
        let y := x.setRing r x.rr.next
        if r.base = 2048 then y.toHalt 9 else { y with pc := r.base }
      .next (s1.resolve (wait .seqRing (folioId q f) 0) [])

/-! ### Sequence boundaries (R113) -/

/-- A Folio is at a sequence boundary. -/
def Folio.atBoundary (fo : Folio) (now : Nat) : Bool :=
  match fo.st with
  | .idle | .armed | .halted => true
  | .waiting =>
    match fo.wait with
    | some (.until n true) => decide (now + fo.cfg.bndMin * uUs ≤ outTime n)
    | _ => false
  | _ => false

/-- A CONTROL Quire is at a sequence boundary: all its Folios are. -/
def State.seqBoundary (s : State) (q : Nat) : Bool := (s.synq q).folios.all fun (_, fo) => fo.atBoundary s.now

end Sys2Proof.Machine
end

