-- ==== Sys2Proof/Machine/RfOps.lean ====
section
/-! DEFINITION. The converter opcodes 0x0700 to 0x0706 and 0x0709 (08, R293 to R299). -/
namespace Sys2Proof.Machine

namespace Status
def lineBand : Nat := 0x1070
def lineNotMuted : Nat := 0x1071
def chipletOut : Nat := 0x1072
def calDisagree : Nat := 0x1073
end Status

/-- The checks of R293 and R528 on a line. -/
def State.dacErr (s : State) (n : Nat) : Option Err :=
  firstErr [failIf (s.dacOut n) (err Status.chipletOut 0), failIf (s.dacRetired n) (err Status.eDegraded 0)]
def State.adcErr (s : State) (n : Nat) : Option Err :=
  firstErr [failIf (s.adcOut n) (err Status.chipletOut 0), failIf (s.adcRetired n) (err Status.eDegraded 0)]

/-- A Quire whose lines another port may not change (R288). -/
def State.claims (s : State) (q : Nat) : Bool :=
  s.pers q == .control || s.pers q == .correlate || s.pers q == .beamform

/-- The Quires that use a DAC line, and those that use an ADC line (R288). -/
def State.dacUsers (s : State) (n : Nat) : List Nat :=
  (List.range 16).filter fun q => s.claims q && (s.synq q).lines.any fun l => l.line == n
def State.adcUsers (s : State) (n : Nat) : List Nat :=
  (List.range 16).filter fun q => s.claims q && ((s.roq q).slot0 == n || (s.roq q).slot1 == n)

/-- LFW lies in the band of a mode (R278). -/
def inBand (mode lfw : Nat) : Bool :=
  if mode = 0 then decide (lfw ≤ 0x70A3D70A3D70)
  else if mode = 1 then decide (0x800000000000 ≤ lfw) && decide (lfw ≤ 0xE147AE147AE1) else true

/-- The fields that DAC_LINE_SET carries (R294). -/
def dacOf (p : List Byte) : DacCfg :=
  { mode := u p 1 1, cshift := u p 2 1, lfw := BitVec.ofNat 48 (u p 4 8), lphase := BitVec.ofNat 32 (u p 12 4),
    lepoch := sampleAt ((dtOf (slice p 20 12)).getD 0), lgain := u p 16 2 }

/-- The settings of a line once the changes that wait for their tick have come about. -/
def State.dacNext (s : State) (n : Nat) : DacCfg :=
  s.delayed.foldl (fun c d => match d.eff with | .dac k m to' => if k = n then c.merge m to' else c | _ => c) (s.dac n).cfg

/-- DAC_LINE_SET (R278, R279, R288, R294). -/
def opDacLineSet : OpSpec :=
  { cls := [.dacline], timed := true, len := some 32, ctl := fun c s => s.dacUsers c.i, state := fun c s => s.dacErr c.i,
    fields := fun _ _ => [fU 0 1 1 0x1F, fU 1 1 0 2, fU 2 1 0 4, fR 3 1, fU 4 8 0 (2 ^ 48 - 1), fR 18 2, fT 20],
    more := fun c s =>
      let old := s.dacNext c.i
      let new := old.merge (c.u 0 1) (dacOf c.p)
      firstErr [failIf (!inBand new.mode new.lfw.toNat) (err Status.lineBand 0),
        failIf (new.mode != old.mode && (s.dac c.i).cause == 0) (err Status.lineNotMuted 0)],
    run := fun c s =>
      let t := if c.timed then tickAt (c.execTime s) else tickAfter s.now
      (s.delay t (.dac c.i (c.u 0 1) (dacOf c.p)), .ok []) }

/-- DAC_LINE_GET (R294). -/
def opDacLineGet : OpSpec :=
  readOp [.dacline] 0 fun c s =>
    let d := (s.dac c.i).cfg
    leBytes 1 0x1F ++ leBytes 1 d.mode ++ leBytes 1 d.cshift ++ zeros 1 ++ leBytes 8 d.lfw.toNat ++ leBytes 4 d.lphase.toNat ++
      leBytes 2 d.lgain ++ zeros 2 ++ dtBytes (outTime d.lepoch)

/-- LINES of RF_MUTE_SET and RF_UNMUTE (R295). -/
def linesField : Field := fU 0 8 1 0xFFFFFFFFFF

/-- RF_MUTE_SET (R281, R295): FAST, in every device state, and exempt from R288. A TIMED one has been queued for a time at least 16 ns after its
acceptance, and acts at its tick. -/
def opRfMuteSet : OpSpec :=
  { cls := [.device], timed := true, priv := fun _ => .observer, fast := true, ep := fun _ => true, bcast := true, len := some 8,
    ctl := fun _ _ => [], fields := fun _ _ => [linesField], keys := fun _ => [],
    run := fun c s =>
      let t := tickAt (if c.timed then s.now else s.now + 16 * uNs)
      ((maskLines (c.u 0 8)).foldl (fun a n => a.onDac n fun d => { d with mutes := d.mutes ++ [t] }) s, .ok []) }

/-- RF_UNMUTE (R282, R288, R295). -/
def opRfUnmute : OpSpec :=
  { cls := [.device], timed := true, len := some 8, keys := fun _ => [devKey 0x703],
    ctl := fun c s => (List.range 16).filter fun q => (maskLines (c.u 0 8)).any fun n => (s.dacUsers n).contains q,
    state := fun c s => firstErr ((maskLines (c.u 0 8)).map s.dacErr), fields := fun _ _ => [linesField],
    run := fun c s =>
      let early := tickAt (s.now + 16 * uNs)
      let t := if c.timed then max (tickAt (c.execTime s)) (tickAt s.now) else early
      (s.delay t (.unmute (c.u 0 8)), .later [wait .unmute 0 0] true (some t)) }

/-- RF_MUTE_POLICY_SET (R283, R296). -/
def opRfMutePolicySet : OpSpec :=
  { cls := [.device], priv := fun _ => .owner, ep := fun _ => true, len := some 4, keys := fun _ => [devKey 0x704],
    fields := fun _ _ => [fU 0 1 0 255, fU 1 1 0 1, fU 2 1 0 1, fR 3 1],
    run := fun c s =>
      ((s.onRf fun r => { r with filter := c.u 0 1, latch := c.u 1 1 == 1, allow := c.u 2 1 == 1 }).noncoh, .ok []) }

/-- The fields that ADC_LINE_SET carries (R297). -/
def adcOf (p : List Byte) : AdcCfg :=
  { afw := BitVec.ofNat 48 (u p 4 8), aphase := BitVec.ofNat 32 (u p 12 4),
    aepoch := sampleAt ((dtOf (slice p 20 12)).getD 0), gain6 := u p 2 1 == 1, enable := u p 3 1 == 1 }

/-- The Quires that receive an ADC line (R287). -/
def State.receivers (s : State) (n : Nat) : List Nat :=
  (List.range 16).filter fun q => s.pers q != .off && ((s.roq q).slot0 == n || (s.roq q).slot1 == n)

/-- ADC_LINE_SET (R287, R288, R297). -/
def opAdcLineSet : OpSpec :=
  { cls := [.adcline], timed := true, len := some 32, ctl := fun c s => s.adcUsers c.i,
    state := fun c s => firstErr [s.adcErr c.i, stateIf s (c.u 1 1 == 0 && (s.receivers c.i).any fun q => s.pers q == .correlate || s.pers q == .beamform)],
    fields := fun _ _ => [fU 0 1 1 0x1F, fU 1 1 0 1, fU 2 1 0 1, fU 3 1 0 1, fU 4 8 0 (2 ^ 48 - 1), fR 16 4, fT 20],
    run := fun c s =>
      let to' := adcOf c.p
      if c.u 1 1 = 1 then
        (s.delay (if c.timed then tickAt (c.execTime s) else tickAfter s.now) (.adc c.i (c.u 0 1 + 128) to'), .ok [])
      else if (s.receivers c.i).any fun q => s.folioBusy q then
        (s.onAdc c.i fun a => { a with pend := some (c.u 0 1, to') }, .accepted [wait .adcLine c.i 0] false none)
      else (s.delay (tickAfter s.now) (.adc c.i (c.u 0 1) to'), .ok []) }

/-- ADC_LINE_GET (R297). -/
def opAdcLineGet : OpSpec :=
  readOp [.adcline] 0 fun c s =>
    let a := (s.adc c.i).cfg
    leBytes 1 0x1F ++ leBytes 1 0 ++ leBytes 1 (ofBool a.gain6) ++ leBytes 1 (ofBool a.enable) ++ leBytes 8 a.afw.toNat ++
      leBytes 4 a.aphase.toNat ++ zeros 4 ++ dtBytes (outTime a.aepoch)

/-- CONV_STATUS (R299). -/
def opConvStatus : OpSpec :=
  { cls := [.dacline, .adcline], priv := fun _ => .observer, ep := fun _ => true, changes := false, len := some 0, keys := fun _ => [],
    run := fun c s =>
      let down := s.dev.st == .endpaper || !bitOf s.clk.good 4 || !bitOf s.clk.good 5
      let tail := fun (x : LineCal) (sat : Nat) => leBytes 4 sat ++ leBytes 4 x.count ++ leBytes 4 x.disagree ++ leBytes 4 x.missed ++ dtBytes x.last
      let st := fun (out retired off : Bool) (x : LineCal) =>
        if out then 3 else if retired then 4 else if off then 0 else if x.until'.isSome then 2 else 1
      if c.obj.cls = .dacline then
        let s1 := s.formTo s.now
        let d := s1.dac c.i
        (s1, .ok (leBytes 2 d.cause ++ leBytes 1 (st (s.dacOut c.i) (s.dacRetired c.i) (down || d.cfg.mode == 2) d.cal) ++ zeros 1 ++ tail d.cal d.sat))
      else
        let s1 := s.overGap c.i (s.now / uSample)
        let a := s1.adc c.i
        (s1, .ok (leBytes 2 0 ++ leBytes 1 (st (s.adcOut c.i) (s.adcRetired c.i) (down || !a.cfg.enable) a.cal) ++ zeros 1 ++ tail a.cal a.sat)) }

end Sys2Proof.Machine
end

