-- ==== Sys2Proof/Machine/Capture.lean ====
section
/-! DEFINITION. The capture opcodes 0x0B00 to 0x0B08 and the events of the capture units (12, R429 to R438). The codes of the ADC
lines come with the events: what a line carries at its land is not in the model. -/
namespace Sys2Proof.Machine

namespace Status
def capRegionSmall : Nat := 0x10B0
def capSource : Nat := 0x10B1
def capArmed : Nat := 0x10B2
def capNotSet : Nat := 0x10B3
end Status

/-- The configuration that CAP_CONFIG carries (R433). -/
def capOf (p : List Byte) : CapCfg :=
  { skind := u p 0 1, line := u p 1 1, dec := u p 2 1, mask := u p 3 1 == 1, quire := u p 4 1, folio := u p 5 1, rsets := u p 6 1,
    ring := u p 7 1 == 1, region := u p 8 2, mcomp := u p 10 1, queue1 := u p 11 1 == 1, nseg := u p 12 4, seglen := u p 16 4,
    pre := u p 20 4, evSeg := u p 24 2, evDone := u p 26 2, evAlarm := u p 28 2, mhyst := u p 30 2, mlevel := sfld p 32 4 }

/-- The bytes of a configuration (R433). -/
def CapCfg.image (c : CapCfg) : List Byte :=
  [c.skind, c.line, c.dec, ofBool c.mask, c.quire, c.folio, c.rsets, ofBool c.ring].flatMap (leBytes 1) ++ leBytes 2 c.region ++
    leBytes 1 c.mcomp ++ leBytes 1 (ofBool c.queue1) ++ leBytes 4 c.nseg ++ leBytes 4 c.seglen ++ leBytes 4 c.pre ++
    leBytes 2 c.evSeg ++ leBytes 2 c.evDone ++ leBytes 2 c.evAlarm ++ leBytes 2 c.mhyst ++ leBytes 4 (ofSigned 32 c.mlevel) ++ zeros 4

/-- The channels that a unit's fields name (R432). -/
def capEvents (p : List Byte) : List EvField :=
  [evField 0xB00 true (u p 24 2), evField 0xB01 true (u p 26 2), evField 0xB03 true (u p 28 2)]

/-- CAP_CONFIG (R431, R433). -/
def opCapConfig : OpSpec :=
  { cls := [.capture], len := some 40,
    state := fun c s =>
      let u := s.capU c.i
      stateIf s (u.active && match u.cfg with
        | some o => !o.ring || decide ({ capOf c.p with nseg := o.nseg } ≠ o)
        | none => false),
    fields := fun _ _ =>
      let k := fun (p : List Byte) => u p 0 1
      [fU 0 1 0 2, fX 1 (fun p => decide (u p 1 1 ≤ if k p ≤ 1 then 15 else 0)), fX 2 (fun p => decide (u p 2 1 ≤ if k p = 0 then 10 else 0)),
       fU 3 1 0 1, fX 4 (fun p => decide (u p 4 1 ≤ if k p = 2 then 15 else 0)), fX 5 (fun p => decide (u p 5 1 ≤ if k p = 2 then 31 else 0)),
       fX 6 (fun p => if k p = 2 then u p 6 1 != 0 else u p 6 1 == 0), fU 7 1 0 1, fU 8 2 0 2047,
       fX 10 (fun p => if k p = 0 then u p 10 1 == 0 else decide (1 ≤ u p 10 1) && decide (u p 10 1 ≤ 3)), fU 11 1 0 1,
       fU 12 4 1 1048576, fP 16 4 (fun v => decide (64 ≤ v) && decide (v ≤ 16777216) && v % 16 == 0),
       fX 20 (fun p => if k p = 2 then u p 20 4 == 0 else decide (u p 20 4 ≤ min 65536 (u p 16 4 - 1))),
       fCh 24, fCh 26, fCh 28, fU 30 2 0 32767, fS 32 4 (-32768) 46341, fR 36 4],
    more := fun c s =>
      firstErr [s.regionErr c.port (c.u 8 2),
        failIf ((s.capU c.i).active && !s.capFits (capOf c.p)) (err Status.capRegionSmall 0)],
    reg := fun c s => s.evFieldsCheck c.port (captureId c.i) (capEvents c.p),
    run := fun c s =>
      if (s.capU c.i).active then
        if (s.capU c.i).cfg = some (capOf c.p) then (s, .ok [])
        else (s.onCapU c.i fun u => { u with nsegPend := some (c.u 12 4) }, .accepted [wait .capArm (captureId c.i) 0] false none)
      else ((s.evFieldsApply c.port (captureId c.i) (capEvents c.p)).onCapU c.i fun u => { u with cfg := some (capOf c.p) }, .ok []) }

/-- CAP_CONFIG_GET (R433): zeros before the first CAP_CONFIG. -/
def opCapConfigGet : OpSpec :=
  readOp [.capture] 0 fun c s => match (s.capU c.i).cfg with | some x => x.image | none => zeros 40

/-- The source kind of a unit; a unit that is not configured counts as RAW. -/
def CapUnit.skind (u : CapUnit) : Nat := match u.cfg with | some c => c.skind | none => 0

/-- The unit records, or is in hold-off. -/
def CapUnit.busy (u : CapUnit) : Bool := u.st == .recording || u.st == .holdoff || !u.opened.isEmpty

/-- The registrations of CAP_TRIG_SET: on a unit that records or holds off, EVCH is that of the trigger in force until the end of the hold-off (R434). -/
def CapUnit.trigFields (u : CapUnit) (ch : Nat) : List EvField :=
  if u.busy then [evField evchLater false ch] else capTrigEvents ch 0xFFFF

/-- CAP_TRIG_SET (R434). -/
def opCapTrigSet : OpSpec :=
  { cls := [.capture], len := some 16,
    fields := fun c s =>
      let k := (s.capU c.i).skind
      [fX 0 (fun p => if k = 2 then u p 0 1 == 3 else decide (u p 0 1 ≤ 2)),
       fX 1 (fun p => if u p 0 1 ≠ 0 ∨ k = 0 then u p 1 1 == 0 else decide (1 ≤ u p 1 1) && decide (u p 1 1 ≤ 3)),
       fX 2 (fun p => if u p 0 1 = 0 then decide (1 ≤ u p 2 1) && decide (u p 2 1 ≤ 3) else u p 2 1 == 0), fR 3 1,
       fX 4 (fun p => if u p 1 1 = 3 then decide (0 ≤ sfld p 4 4) && decide (sfld p 4 4 ≤ 46341)
         else decide (-32768 ≤ sfld p 4 4) && decide (sfld p 4 4 ≤ 32767)),
       fU 8 2 0 32767, fX 10 (fun p => if u p 0 1 = 1 then decide (u p 10 2 ≤ 255) else u p 10 2 == 0xFFFF), fR 12 4],
    reg := fun c s => s.evFieldsCheck c.port (captureId c.i) ((s.capU c.i).trigFields (c.u 10 2)),
    run := fun c s =>
      let t : CapTrig := { tsrc := c.u 0 1, tcomp := c.u 1 1, slope := c.u 2 1, level := c.sg 4 4, hyst := c.u 8 2, evch := c.u 10 2 }
      ((s.evFieldsApply c.port (captureId c.i) ((s.capU c.i).trigFields (c.u 10 2))).onCapU c.i fun u =>
        if u.busy then { u with trigPend := some (t, c.port) } else { u with trig := some t, trigPend := none, up := false, down := false, evAt := none }, .ok []) }

/-- CAP_MASK_WRITE (R435). -/
def opCapMaskWrite : OpSpec :=
  { cls := [.capture], len := none, lenMin := 8, lenOk := fun n => decide (8 ≤ n) && decide (n ≤ 4064) && n % 4 == 0,
    state := fun c s => failIf (s.capU c.i).active (err Status.capArmed 0),
    fields := fun _ _ =>
      [fU 0 2 0 4095, fU 2 1 0 12, fR 3 1,
       fX 4 (fun p => decide (u p 0 2 + (p.length - 4) / 4 ≤ 4096) &&
         (List.range ((p.length - 4) / 4)).all fun k => decide (sfld p (4 + 4 * k) 2 ≤ sfld p (6 + 4 * k) 2))],
    run := fun c s =>
      let es := (List.range ((c.p.length - 4) / 4)).map fun k => (c.sg (4 + 4 * k) 2, c.sg (6 + 4 * k) 2)
      (s.onCapU c.i fun u => { u with mstep := c.u 2 1, mtab := tputs ((-32768 : Int), (32767 : Int)) u.mtab (c.u 0 2) es }, .ok []) }

/-- D with the capture units as they are (R33, R264). -/
def State.capTraffic (s : State) : Rat :=
  let base : Rat := 32000000000 * (s.ringQuires : Rat) + s.captureRate
  match s.ct.cfg with
  | some k => if s.plans.liveCorr.isSome || s.plans.liveBeam.isSome then s.liveTraffic k else base
  | none => base

/-- CAP_ARM (R416, R418, R421, R436). A unit that is armed already is armed anew, and a held trigger is gone (R425); a segment in progress ends with SHORT
(DESIGN CHOICE). -/
def opCapArm : OpSpec :=
  { cls := [.capture], len := some 4, fields := fun _ _ => [fR 0 4],
    state := fun c s =>
      let u := s.capU c.i
      firstErr [failIf (u.cfg.isNone || (u.trig.isNone && u.trigPend.isNone)) (err Status.capNotSet 0),
        match u.cfg with
        | some k => stateIf s (k.skind == 2 && s.pers k.quire != .control)
        | none => none],
    cap := fun c s =>
      let s1 := s.onCapU c.i fun u => { u with st := .armed }
      failIf ((s.capU c.i).cfg.isSome && (decide (28800000000 < s1.captureRate) || decide (1800000000000 < s1.capTraffic))) eCapacity,
    more := fun c s =>
      match (s.capU c.i).cfg with
      | none => none
      | some k =>
        let tap := k.skind == 0 && (List.range 16).any fun m => m != c.i && (s.capU m).active && match (s.capU m).cfg with
          | some o => o.skind == 0 && o.line / 4 == k.line / 4
          | none => false
        firstErr [s.regionErr c.port k.region, failIf tap (err Status.capSource 0), failIf (!s.capFits k) (err Status.capRegionSmall 0)],
    run := fun c s =>
      let noted := fun (a : State) => a.noteD a.capTraffic
      let s0 := (s.capCutOne c.i 0 none).capRearm c.i
      (noted <| (s0.onCapU c.i fun u =>
        { u with st := .armed, cause := 0, seg := 0, next := 0, during := 0, preShort := 0, srcErr := 0, maskFail := 0, wraps := 0,
                 lastTime := 0, up := false, down := false, held := none, force := none, evAt := none, opened := [], stopping := false,
                 cur := none }).capRestart [c.i] s.now true, .ok []) }

/-- CAP_FORCE (R423, R436): a unit that is not armed takes no trigger. -/
def opCapForce : OpSpec :=
  { cls := [.capture], timed := true, len := some 4, fields := fun _ _ => [fR 0 4],
    run := fun c s => (s.onCapU c.i fun u => if u.active then { u with force := some (c.execTime s) } else u, .ok []) }

/-- CAP_STOP (R436). -/
def opCapStop : OpSpec :=
  { cls := [.capture], len := some 4, fields := fun _ _ => [fU 0 1 0 1, fR 1 3],
    run := fun c s =>
      let u := s.capU c.i
      if !u.active then (s, .ok [])
      else if u.cur.isSome || !u.opened.isEmpty then
        (if c.u 0 1 = 1 then s.capStopAll [c.i] 2 else s.onCapU c.i fun u => { u with stopping := true, held := none }, .ok [])
      else (s.capStop c.i 2, .ok []) }

/-- STATE of CAPSTAT (R429). -/
def CapSt.code : CapSt → Nat
  | .idle => 0 | .armed => 1 | .recording => 2 | .holdoff => 3 | .done => 4 | .stopped => 5

/-- CAP_STATUS (R429, R437). -/
def opCapStatus : OpSpec :=
  { readOp [.capture] 0 (fun c s =>
      let u := s.capU c.i
      leBytes 4 ((if u.opened.isEmpty then u.st.code else CapSt.recording.code) + 8 * ofBool u.held.isSome + 16 * ofBool u.nsegPend.isSome + 32 * u.cause) ++ leBytes 4 u.seg ++
        leBytes 4 u.next ++ [u.during, u.preShort, u.srcErr, u.maskFail, u.wraps].flatMap (leBytes 4) ++ dtBytes u.lastTime ++ zeros 4) with
    ep := fun _ => true }

/-- CAP_HDR_READ (R438). -/
def opCapHdrRead : OpSpec :=
  { readOp [.capture] 8 (fun c s => match (s.capU c.i).cfg with
      | some k => s.memRead k.region (c.u 0 4 * 64) (c.u 4 2 * 64)
      | none => []) with
    state := fun c s => failIf (s.capU c.i).cfg.isNone (err Status.capNotSet 0),
    fields := fun c s =>
      let n := match (s.capU c.i).cfg with | some k => k.nseg | none => 0
      [fX 0 (fun p => decide (u p 0 4 < n)), fX 4 (fun p => decide (1 ≤ u p 4 2) && decide (u p 4 2 ≤ 63) && decide (u p 0 4 + u p 4 2 ≤ n)),
       fR 6 2] }

/-! ### Events -/

/-- The line of a sample delivers nothing at an instant (R430). -/
def State.lineSilent (s : State) (c : CapCfg) (t : Nat) : Bool :=
  if c.skind = 1 then s.adcSilent c.line t else !(s.adc c.line).cfg.enable || s.adcOut c.line || s.adcRetired c.line

/-- Source sample `k` of a RAW or DDC unit in the form in which it is stored (R415); `t` is the instant of its label. -/
def State.capForm (s : State) (c : CapCfg) (xs : List AdcIn) (k t : Nat) : RoSample :=
  let y :=
    if c.skind = 0 then
      let codes := (List.range (2 ^ c.dec)).map fun j => adcCode xs c.line (2 ^ c.dec * k + j)
      let sum := codes.foldl (fun (a : Int) v => a + v.getD 0) 0
      { i := clampI (-32768) 32767 (roundDiv (sum * 16) (2 ^ c.dec)), q := 0, ovr := codes.any (fun v => v.any fullScale),
        missing := codes.any Option.isNone }
    else s.ddc xs c.line k
  { y with missing := y.missing || s.lineSilent c t }

/-- The number of source samples from number `k` on that the codes of a command reach. -/
def CapCfg.reach (c : CapCfg) (xs : List AdcIn) (k : Nat) : Nat :=
  (xs.filter fun x => x.line == c.line).foldl (fun m x => max m (x.first + x.codes.length)) 0 / (if c.skind = 0 then 2 ^ c.dec else 8) - k

/-- Source samples reach a RAW or DDC unit in turn while its state is `st`, each at its label. -/
def State.capTake (n : Nat) (st : CapSt) (xs : List AdcIn) : Nat → State → State
  | 0, s => s
  | k + 1, s =>
    match (s.capU n).cfg with
    | none => s
    | some c =>
      if (s.capU n).st = st ∧ c.skind ≠ 2 then
        let t := (s.capU n).from' * c.period
        let s1 := s.advanceTo t
        let s2 := if c.skind = 1 then s1.countOver xs c.line (s.capU n).from' 1 else s1
        State.capTake n st xs k (s2.capSample n false (s1.capForm c xs (s.capU n).from' t))
      else s

/-- All the source samples that the codes of a command reach, while the unit's state is `st`. -/
def State.capRow (s : State) (n : Nat) (st : CapSt) (xs : List AdcIn) : State :=
  match (s.capU n).cfg with
  | some c => State.capTake n st xs (c.reach xs (s.capU n).from') s
  | none => s

/-- CAPTURE_TRIGGER: the source samples of an ARMED unit up to its trigger point, and the segment starts (R422 to R424). -/
def execCaptureTrigger (n : Fin 16) (x : List AdcIn) (s : State) : Host.Outcome State Fault Refusal :=
  .next (s.capRow n .armed x)

/-- SEGMENT_END: the samples of a RECORDING unit up to the last of its segment, whose header is written (R419). -/
def execSegmentEnd (n : Fin 16) (x : List AdcIn) (s : State) : Host.Outcome State Fault Refusal :=
  .next (s.capRow n .recording x)

/-- HOLDOFF_END: the samples of a unit in hold-off up to the first armed one (R425). A DEMOD unit has samples in windows only. -/
def execHoldoffEnd (n : Fin 16) (x : List AdcIn) (s : State) : Host.Outcome State Fault Refusal :=
  if (s.capU n).skind = 2 then
    if (s.capU n).st = .holdoff then .next ((s.advanceTo (s.capU n).holdTo).capRearm n) else .next s
  else .next (s.capRow n .holdoff x)

end Sys2Proof.Machine
end

