-- ==== Sys2Proof/Machine/CoreWord.lean ====
section
/-! DEFINITION. The instructions of a feedback core (05, R169 to R174): their fields, their 32-bit encoding and its reading,
which refuses every reserved operation, reserved field and value out of range (R189). -/
namespace Sys2Proof.Machine

/-- The parallel moves of format M (R169). -/
structure Moves where
  xd : Nat
  xi : Nat
  xen : Bool
  yd : Nat
  yi : Nat
  yen : Bool
  xupd : Bool
  yupd : Bool
  deriving DecidableEq, Repr

/-- An instruction, by format (R169, R170). `opc` is the OPC within a format. -/
inductive CoreWord where
  | plain (opc : Nat)
  | mac (opc : Nat) (acc : Bool) (p q : Nat) (m : Moves)
  | alu (opc dst sa sb : Nat)
  | imm (opc dst sa imm : Nat)
  | acc (a : Bool) (d sh sub : Nat)
  | mem (store : Bool) (d : Nat) (y : Bool) (ar : Nat) (upd abs : Bool) (addr : Nat)
  | movs (spec d : Nat) (toD : Bool)
  | lds (spec imm : Nat)
  | branch (cond target : Nat)
  | call (target : Nat)
  | ret
  | rep (fromReg : Bool) (d cnt fin : Nat)
  | wait (kind ei count : Nat)
  | pop (frame : Bool)
  | flag (flag mode arg : Nat)
  | flagg (group dm dv : Nat)
  | sendf (route : Nat) (fl : Bool) (dm dv : Nat) (dt : Bool) (dd : Nat)
  | evout (eo : Nat)
  deriving DecidableEq, Repr

/-- The moves at their places. -/
def Moves.enc (m : Moves) : Nat :=
  m.xd * 2 ^ 16 + m.xi * 2 ^ 14 + ofBool m.xen * 2 ^ 13 + m.yd * 2 ^ 10 + m.yi * 2 ^ 8 + ofBool m.yen * 2 ^ 7 +
    ofBool m.xupd * 2 ^ 6 + ofBool m.yupd * 2 ^ 5

/-- OPC of an instruction (R170). -/
def CoreWord.opc : CoreWord → Nat
  | .plain o => o
  | .mac o .. => o
  | .alu o .. => o
  | .imm o .. => o
  | .acc .. => 0x20
  | .mem st .. => if st then 0x22 else 0x21
  | .movs .. => 0x24
  | .lds .. => 0x25
  | .branch .. => 0x28
  | .call .. => 0x29
  | .ret => 0x2A
  | .rep .. => 0x2C
  | .wait .. => 0x2E
  | .pop .. => 0x2F
  | .flag .. => 0x30
  | .flagg .. => 0x31
  | .sendf .. => 0x32
  | .evout .. => 0x33

/-- The fields below bit 26 (R169). In FLAG, `arg` is COND in MODE 2 and D × 16 + BIT in MODE 3. -/
def CoreWord.low : CoreWord → Nat
  | .plain _ => 0
  | .mac _ a p q m => ofBool a * 2 ^ 25 + p * 2 ^ 22 + q * 2 ^ 19 + m.enc
  | .alu _ d a b => d * 2 ^ 23 + a * 2 ^ 20 + b * 2 ^ 17
  | .imm _ d a i => d * 2 ^ 23 + a * 2 ^ 20 + i
  | .acc a d sh sub => ofBool a * 2 ^ 25 + d * 2 ^ 22 + sh * 2 ^ 16 + sub * 2 ^ 12
  | .mem _ d y ar u ab ad => d * 2 ^ 23 + ofBool y * 2 ^ 22 + ar * 2 ^ 20 + ofBool u * 2 ^ 19 + ofBool ab * 2 ^ 18 + ad
  | .movs sp d t => sp * 2 ^ 20 + d * 2 ^ 17 + ofBool t * 2 ^ 16
  | .lds sp i => sp * 2 ^ 20 + i
  | .branch c t => c * 2 ^ 22 + t
  | .call t => t
  | .ret => 0
  | .rep r d c e => ofBool r * 2 ^ 25 + d * 2 ^ 22 + c * 2 ^ 12 + e
  | .wait k e c => k * 2 ^ 24 + e * 2 ^ 22 + c
  | .pop f => ofBool f * 2 ^ 25
  | .flag f m a => f * 2 ^ 20 + m * 2 ^ 18 + (if m = 2 then a * 2 ^ 14 else if m = 3 then a * 2 ^ 11 else 0)
  | .flagg g m v => g * 2 ^ 24 + m * 2 ^ 21 + v * 2 ^ 18
  | .sendf r fl m v dt dd =>
    r * 2 ^ 22 + ofBool fl * 2 ^ 21 + m * 2 ^ 18 + v * 2 ^ 15 + ofBool dt * 2 ^ 14 + dd * 2 ^ 11
  | .evout e => e * 2 ^ 24

/-- The 32 bits of an instruction. -/
def CoreWord.enc (w : CoreWord) : Nat := w.opc * 2 ^ 26 + w.low

/-- A special register exists (R172). -/
def specOk (n : Nat) : Bool := decide (n ≤ 0x35)

/-- The fields are in range (R169 to R174, R189); an REP's END must lie after it, which needs its address. -/
def CoreWord.ok : CoreWord → Bool
  | .plain o => o == 0 || o == 0x3C || o == 0x3F
  | .mac o a p q m =>
    decide (1 ≤ o) && decide (o ≤ 4) && decide (p < 8) && decide (q < 8) && (o != 1 || (!a && p == 0 && q == 0)) &&
      decide (m.xd < 8) && decide (m.xi < 4) && decide (m.yd < 8) && decide (m.yi < 4)
  | .alu o d a b =>
    decide (8 ≤ o) && decide (o ≤ 0x13) && decide (d < 8) && decide (a < 8) && decide (b < 8) && (o != 0x11 || b == 0)
  | .imm o d a i =>
    decide (0x14 ≤ o) && decide (o ≤ 0x1C) && decide (d < 8) && decide (a < 8) && decide (i < 65536) &&
      (o != 0x14 || a == 0) && (decide (o < 0x1B) || decide (i < 16))
  | .acc _ d sh sub => decide (d < 8) && decide (sh < 64) && decide (sub ≤ 10)
  | .mem _ d _ ar _ ab ad => decide (d < 8) && decide (ar < 4) && decide (ad < 8192) && (ab || ad == 0)
  | .movs sp d _ => specOk sp && decide (d < 8)
  | .lds sp i => specOk sp && decide (i < 65536)
  | .branch c t => decide (c < 15) && decide (t < 4096)
  | .call t => decide (t < 4096)
  | .ret => true
  | .rep r d c e => decide (d < 8) && decide (c < 1024) && decide (e < 4096) && (!r || c == 0)
  | .wait k e c => decide (k < 4) && decide (e < 4) && decide (c < 65536)
  | .pop _ => true
  | .flag f m a =>
    decide (f < 64) && decide (m < 4) && (if m = 2 then decide (a < 15) else if m = 3 then decide (a < 128) else a == 0)
  | .flagg g m v => decide (g < 4) && decide (m < 8) && decide (v < 8)
  | .sendf r _ m v _ dd => decide (r < 16) && decide (m < 8) && decide (v < 8) && decide (dd < 8)
  | .evout e => decide (e < 4)

/-- The moves that a word spells. -/
def movesOf (w : Nat) : Moves :=
  { xd := bits w 16 3, xi := bits w 14 2, xen := bitOf w 13, yd := bits w 10 3, yi := bits w 8 2, yen := bitOf w 7,
    xupd := bitOf w 6, yupd := bitOf w 5 }

/-- The instruction whose OPC and fields stand in a word, before reserved fields and ranges are looked at. -/
def coreFields (w : Nat) : Option CoreWord :=
  let o := bits w 26 6
  if o = 0 ∨ o = 0x3C ∨ o = 0x3F then some (.plain o)
  else if o ≤ 4 then some (.mac o (bitOf w 25) (bits w 22 3) (bits w 19 3) (movesOf w))
  else if 8 ≤ o ∧ o ≤ 0x13 then some (.alu o (bits w 23 3) (bits w 20 3) (bits w 17 3))
  else if 0x14 ≤ o ∧ o ≤ 0x1C then some (.imm o (bits w 23 3) (bits w 20 3) (bits w 0 16))
  else if o = 0x20 then some (.acc (bitOf w 25) (bits w 22 3) (bits w 16 6) (bits w 12 4))
  else if o = 0x21 ∨ o = 0x22 then
    some (.mem (o == 0x22) (bits w 23 3) (bitOf w 22) (bits w 20 2) (bitOf w 19) (bitOf w 18) (bits w 0 13))
  else if o = 0x24 then some (.movs (bits w 20 6) (bits w 17 3) (bitOf w 16))
  else if o = 0x25 then some (.lds (bits w 20 6) (bits w 0 16))
  else if o = 0x28 then some (.branch (bits w 22 4) (bits w 0 12))
  else if o = 0x29 then some (.call (bits w 0 12))
  else if o = 0x2A then some .ret
  else if o = 0x2C then some (.rep (bitOf w 25) (bits w 22 3) (bits w 12 10) (bits w 0 12))
  else if o = 0x2E then some (.wait (bits w 24 2) (bits w 22 2) (bits w 0 16))
  else if o = 0x2F then some (.pop (bitOf w 25))
  else if o = 0x30 then
    let m := bits w 18 2
    some (.flag (bits w 20 6) m (if m = 2 then bits w 14 4 else if m = 3 then bits w 11 7 else 0))
  else if o = 0x31 then some (.flagg (bits w 24 2) (bits w 21 3) (bits w 18 3))
  else if o = 0x32 then
    some (.sendf (bits w 22 4) (bitOf w 21) (bits w 18 3) (bits w 15 3) (bitOf w 14) (bits w 11 3))
  else if o = 0x33 then some (.evout (bits w 24 2))
  else none

/-- The instruction that 32 bits spell, or none for a reserved OPC, a nonzero reserved field or a value out of range
(R189): a word is read only if it is the encoding of what is read. -/
def decodeCore (w : Nat) : Option CoreWord :=
  match coreFields w with
  | none => none
  | some x => if x.ok && x.enc == w then some x else none

/-- FB_LOAD accepts a word at an address (R174, R189): an REP's END lies after it. -/
def coreLoadOk (w addr : Nat) : Bool :=
  match decodeCore w with
  | none => false
  | some (.rep _ _ _ e) => decide (addr < e)
  | some _ => true

end Sys2Proof.Machine
end

