-- ==== Sys2Proof/Machine/Flags.lean ====
section
/-! DEFINITION. The feedback cores' arithmetic and flags (05, R164, R166, R167, R170, R171, R173): walks, the ALU, the
accumulators and the conditions. -/
namespace Sys2Proof.Machine

/-! ### Walks (R166) -/

/-- EXTENT as it is taken: 0, 1 and values above 8,192 mean the whole memory. -/
def Walk.e (w : Walk) : Nat := if 2 ≤ w.extent.toNat ∧ w.extent.toNat ≤ 8192 then w.extent.toNat else 8192

/-- The exponent of the largest power of two not above E. -/
def Walk.k (w : Walk) : Nat := Nat.log2 w.e

/-- The low `k` bits of a number in reverse order. -/
def revBits : Nat → Nat → Nat
  | 0, _ => 0
  | k + 1, n => n % 2 * 2 ^ k + revBits k (n / 2)

/-- The effective address of cursor value `c`. -/
def Walk.ea (w : Walk) (c : BitVec 13) : Nat :=
  if w.order = 1 then (w.origin.toNat + c.toNat % w.e) % 8192
  else if w.order = 2 then (w.origin.toNat + revBits w.k (c.toNat % 2 ^ w.k)) % 8192
  else (w.origin.toNat + c.toNat) % 8192

/-- The cursor after an access that updates it. -/
def Walk.moved (w : Walk) (c : BitVec 13) : BitVec 13 :=
  let m : Int := if w.order = 1 then (w.e : Int) else if w.order = 2 then ((2 ^ w.k : Nat) : Int) else 8192
  BitVec.ofInt 13 (((c.toNat : Int) + w.stride.toInt) % m)

/-! ### The ALU (R164, R170) -/

/-- Z and N from a 16-bit result. -/
def CSr.zn (s : CSr) (r : BitVec 16) : CSr := { s with z := r == 0, n := r.msb }

/-- Z and N from a result, C and V cleared. -/
def CSr.logic (s : CSr) (r : BitVec 16) : CSr := { s.zn r with c := false, v := false }

/-- The flags of an addition: carry out and signed overflow. -/
def CSr.add (s : CSr) (a b : BitVec 16) : CSr :=
  let r := a + b
  { s.zn r with c := decide (2 ^ 16 ≤ a.toNat + b.toNat), v := decide (r.toInt ≠ a.toInt + b.toInt) }

/-- The flags of a subtraction: borrow and signed overflow. -/
def CSr.sub (s : CSr) (a b : BitVec 16) : CSr :=
  let r := a - b
  { s.zn r with c := decide (a.toNat < b.toNat), v := decide (r.toInt ≠ a.toInt - b.toInt) }

/-- An ALU operation: its result, where it writes one, and the flags (R170). -/
def aluOp (opc : Nat) (s : CSr) (a b : BitVec 16) : Option (BitVec 16) × CSr :=
  let wr := fun (r : BitVec 16) => (some r, s.logic r)
  match opc with
  | 0x08 | 0x15 => (some (a + b), s.add a b)
  | 0x09 => (some (a - b), s.sub a b)
  | 0x0A | 0x16 => wr (a &&& b)
  | 0x0B | 0x17 => wr (a ||| b)
  | 0x0C | 0x18 => wr (a ^^^ b)
  | 0x0D | 0x1B => wr (a <<< (b.toNat % 16))
  | 0x0E | 0x1C => wr (a.sshiftRight (b.toNat % 16))
  | 0x0F => wr (a >>> (b.toNat % 16))
  | 0x10 | 0x19 => (none, s.sub a b)
  | 0x11 => wr a
  | 0x12 => wr (if a.toInt ≤ b.toInt then a else b)
  | 0x13 => wr (if a.toInt ≤ b.toInt then b else a)
  | 0x14 => wr b
  | _ => (none, s.logic (a &&& b))

/-! ### Registers -/

/-- Data register `n`, and a core with it written. -/
def FbCore.dr (c : FbCore) (n : Nat) : BitVec 16 := lget 0 c.d (n % 8)
def FbCore.setD (c : FbCore) (n : Nat) (v : BitVec 16) : FbCore := { c with d := lput c.d (n % 8) v }

/-- An accumulator, and a core with it written. -/
def FbCore.a (c : FbCore) (one : Bool) : BitVec 40 := if one then c.a1 else c.a0
def FbCore.setA (c : FbCore) (one : Bool) (v : BitVec 40) : FbCore := if one then { c with a1 := v } else { c with a0 := v }

/-- An accumulator written with an exact value: it wraps at 40 bits and sets OV on a wrap (R167). -/
def FbCore.accum (c : FbCore) (one : Bool) (v : Int) : FbCore :=
  let w := BitVec.ofInt 40 v
  (if w.toInt = v then c else { c with sr := { c.sr with ov := true } }).setA one w

/-- The word of SR (R164). -/
def FbCore.srWord (c : FbCore) : Nat :=
  ofBool c.sr.z + 2 * ofBool c.sr.n + 4 * ofBool c.sr.c + 8 * ofBool c.sr.v + 16 * ofBool c.sr.t + 32 * ofBool c.sr.e +
    64 * ofBool c.sr.s + 128 * ofBool c.sr.ov + 256 * c.reps.length + 2048 * c.calls.length

/-- SR bits [7:0] from a word (R164). -/
def srOf (v : Nat) : CSr :=
  { z := bitOf v 0, n := bitOf v 1, c := bitOf v 2, v := bitOf v 3, t := bitOf v 4, e := bitOf v 5, s := bitOf v 6,
    ov := bitOf v 7 }

/-- A condition (R173); `emp` says that the result FIFO is empty in the issuing cycle. -/
def CSr.cond (s : CSr) (emp : Bool) (code : Nat) : Bool :=
  match code with
  | 0 => true
  | 1 => s.z
  | 2 => !s.z
  | 3 => s.n != s.v
  | 4 => s.n == s.v
  | 5 => s.c
  | 6 => !s.c
  | 7 => s.n
  | 8 => !s.n
  | 9 => s.v
  | 10 => !s.v
  | 11 => s.t
  | 12 => !s.t
  | 13 => emp
  | _ => !emp

/-! ### Memories and walks of a core -/

/-- The cursor of a memory and its walk. -/
def FbCore.cursor (c : FbCore) (y : Bool) (i : Nat) : BitVec 13 := lget 0 (if y then c.y else c.x) i
def FbCore.walk (c : FbCore) (y : Bool) (i : Nat) : Walk := lget .reset (if y then c.wy else c.wx) i

/-- A core with a cursor, or a walk, written. -/
def FbCore.setCursor (c : FbCore) (y : Bool) (i : Nat) (v : BitVec 13) : FbCore :=
  if y then { c with y := lput c.y i v } else { c with x := lput c.x i v }
def FbCore.setWalk (c : FbCore) (y : Bool) (i : Nat) (w : Walk) : FbCore :=
  if y then { c with wy := lput c.wy i w } else { c with wx := lput c.wx i w }

/-- A word of X or Y memory, and a core with it written. -/
def FbCore.memAt (c : FbCore) (y : Bool) (a : Nat) : BitVec 16 := tget 0 (if y then c.ymem else c.xmem) a
def FbCore.setMem (c : FbCore) (y : Bool) (a : Nat) (v : BitVec 16) : FbCore :=
  if y then { c with ymem := tput 0 c.ymem a v } else { c with xmem := tput 0 c.xmem a v }

/-- The effective address through a cursor, and the core with the cursor moved where `upd` says so (R166). -/
def FbCore.access (c : FbCore) (y : Bool) (i : Nat) (upd : Bool) : Nat × FbCore :=
  let w := c.walk y i
  let v := c.cursor y i
  (w.ea v, if upd then c.setCursor y i (w.moved v) else c)

/-- The parallel loads of format M: the Y load stands where both name one register (R170). -/
def FbCore.moves (c : FbCore) (m : Moves) : FbCore :=
  let c1 := if m.xen then
      let (a, x) := c.access false m.xi m.xupd
      x.setD m.xd (c.memAt false a)
    else c
  if m.yen then
    let (a, x) := c1.access true m.yi m.yupd
    x.setD m.yd (c.memAt true a)
  else c1

/-- The operations of format C (R171). -/
def FbCore.accOp (c : FbCore) (one : Bool) (d sh sub : Nat) : FbCore :=
  let a := c.a one
  match sub with
  | 0 => c.setA one 0
  | 1 => c.setA one (((c.dr d).signExtend 40) <<< 16)
  | 2 =>
    let r := a.extractLsb' 16 16
    { c.setD d r with sr := c.sr.zn r }
  | 3 =>
    let r := a.extractLsb' 0 16
    { c.setD d r with sr := c.sr.zn r }
  | 4 =>
    let n := toSigned 6 sh
    if 0 ≤ n then c.accum one (a.toInt * (2 ^ n.toNat : Nat)) else c.setA one (a.sshiftRight (-n).toNat)
  | 5 =>
    let x := c.accum one (a.toInt + 0x8000)
    x.setA one ((x.a one >>> 16) <<< 16)
  | 6 =>
    let v := clampI (-(2 ^ 31)) (2 ^ 31 - 1) a.toInt
    (if v = a.toInt then c else { c with sr := { c.sr with s := true } }).setA one (BitVec.ofInt 40 v)
  | 7 => c.accum one (a.toInt + (c.a (!one)).toInt)
  | 8 => c.accum one (a.toInt - (c.a (!one)).toInt)
  | 9 => { c with sr := { c.sr with z := a == 0, n := a.msb } }
  | _ => c.setA one ((c.dr d).signExtend 40)

end Sys2Proof.Machine
end

