-- ==== Sys2Proof/Machine/Cores.lean ====
section
/-! DEFINITION. The feedback cores (05): one meaning for each instruction, the ends of waits, and the arrival of frames and
events. A row for an instruction issues that instruction of the core named if it is the core's next one; otherwise it
leaves the state as it is. -/
namespace Sys2Proof.Machine

/-! ### Stopping (R176) -/

/-- The core stops with a cause; its registers and memories stay. -/
def FbCore.stop (c : FbCore) (st : CState) (cause : Nat) : FbCore :=
  { c with st := st, cause := cause, wait := none, stopSafe := false }

/-- The core faults: EV_ALARM fires (R176, R179). -/
def State.coreFault (s : State) (q k cause : Nat) : State :=
  (s.onCore q k fun c => c.stop .fault cause).fireObj (s.core q k).cfg.alarm (coreId q k)

/-- Causes 3 and 4: every running core of the Quire halts, the FIFOs and the 64 flags are cleared (R176). -/
def State.haltCores (s : State) (q cause : Nat) : State :=
  s.onFb q fun b =>
    let one := fun (e : Nat × FbCore) =>
      let x := if e.2.st == .running || e.2.st == .waiting then e.2.stop .halted cause else e.2
      (e.1, { x with rfifo := [], ififo := [] })
    { b with cores := b.cores.map one }.writeFlags s.now (BitVec.allOnes 64) 0

/-! ### Going on -/

/-- The address after the instruction at `a` has finished: levels that end there iterate or end, innermost first
(R174). -/
def repAfter (a : Nat) : List CRep → Nat × List CRep
  | [] => (a + 1, [])
  | r :: rs =>
    if r.fin = a then
      if r.left = 0 then repAfter a rs else (r.start, { r with left := r.left - 1 } :: rs)
    else (a + 1, r :: rs)

/-- The core goes on after the instruction at its PC, which took `n` cycles. -/
def FbCore.after (c : FbCore) (n : Nat) : FbCore :=
  let r := repAfter c.pc c.reps
  { c with pc := r.1, reps := r.2, next := c.next + n }

/-- The core goes on at `t` after `n` cycles, whatever levels end here. -/
def FbCore.goto (c : FbCore) (t n : Nat) : FbCore := { c with pc := t, next := c.next + n }

/-- A running core's execution past address 4,095 is a fault (R176, cause 5). A core that waits or has halted there executes nothing past it
yet. -/
def State.corePast (s : State) (q k : Nat) : State :=
  if (s.core q k).st = .running ∧ 4096 ≤ (s.core q k).pc then s.coreFault q k 5 else s

/-- The program word at an address of the active bank. -/
def FbCore.word (c : FbCore) (a : Nat) : Nat := (tget 0 (if c.active then c.bank1 else c.bank0) a).toNat

/-- Issues the core's next instruction through `k`, which knows the instructions of its row: device time stands at the
start of its cycle. -/
def State.coreRow (s : State) (q k : Nat) (opc : Nat) (run : CoreWord → State → Option State) : State :=
  let c := s.core q k
  if c.st != .running || s.pers q != .control then s
  else
    match decodeCore (c.word c.pc) with
    | none => s
    | some w =>
      if w.opc ≠ opc then s
      else
        let s1 := (s.advanceTo (c.next * uCycle)).onCore q k fun c =>
          { c with issued := (c.issued + 1) % 2 ^ 64, safeSt := if opc = 0x2E ∧ c.safeSt = 1 then 2 else 0 }
        match run w s1 with
        | none => s
        | some s2 => s2.corePast q k

/-- An instruction that changes the core alone and takes one cycle. -/
def State.coreDo (s : State) (q k opc : Nat) (f : CoreWord → FbCore → Option FbCore) : State :=
  s.coreRow q k opc fun w s1 => (f w (s1.core q k)).map fun c => s1.onCore q k fun _ => c.after 1

/-! ### FIFOs as they stand in a cycle -/

def FbCore.results (c : FbCore) : List CRes := c.rfifo.filter fun e => decide (e.cycle ≤ c.next)
def FbCore.frames (c : FbCore) : List CFrame := c.ififo.filter fun e => decide (e.cycle ≤ c.next)
def FbCore.latched (c : FbCore) (i : Nat) : Bool :=
  match lget none c.eilat i with | some t => decide (t ≤ c.next) | none => false

/-! ### Special registers (R172) -/

/-- The flags 16 g to 16 g + 15 as they stand in a cycle. -/
def FbQuire.flagWord (b : FbQuire) (g cycle : Nat) : Nat :=
  (List.range 16).foldl (fun n i => n + (b.flag (16 * g + i)).before (cycle * uCycle + 1) * 2 ^ i) 0

/-- A walk word (R166). -/
def Walk.word (w : Walk) (i : Nat) : Nat :=
  if i = 0 then w.origin.toNat else if i = 1 then w.extent.toNat + w.order.toNat * 2 ^ 14 else w.stride.toNat

/-- A walk with a word written (R166): reserved bits store 0, and so does ORDER 3. -/
def Walk.setWord (w : Walk) (i v : Nat) : Walk :=
  if i = 0 then { w with origin := BitVec.ofNat 13 v }
  else if i = 1 then
    { w with extent := BitVec.ofNat 14 v, order := if bits v 14 2 = 3 then 0 else BitVec.ofNat 2 (bits v 14 2) }
  else { w with stride := BitVec.ofNat 16 v }

/-- The value of a special register and the core after the read: reading TSL latches TSH. -/
def FbCore.spec (c : FbCore) (b : FbQuire) (q k n : Nat) : Nat × FbCore :=
  let g := c
  if n < 4 then ((c.cursor false n).toNat, g)
  else if n < 8 then ((c.cursor true (n - 4)).toNat, g)
  else if n < 0x14 then ((c.walk false ((n - 8) / 3)).word ((n - 8) % 3), g)
  else if n < 0x20 then ((c.walk true ((n - 0x14) / 3)).word ((n - 0x14) % 3), g)
  else if n = 0x20 then (c.srWord, g)
  else if n < 0x25 then (bits c.rl.toNat (16 * (n - 0x21)) 16, g)
  else if n = 0x25 then (bits c.rl.toNat 30 16, g)
  else if n = 0x26 then (c.results.length, g)
  else if n < 0x2A then ((lget 0 c.ifd (n - 0x27)).toNat, g)
  else if n = 0x2A then (c.ifsrc.toNat, g)
  else if n = 0x2B then (c.frames.length, g)
  else if n = 0x2C then ((List.range 4).foldl (fun a i => a + ofBool (c.latched i) * 2 ^ i) 0, g)
  else if n = 0x2D then (bits (2 * c.next) 0 16, { c with tsh := BitVec.ofNat 16 (bits (2 * c.next) 16 16) })
  else if n = 0x2E then (c.tsh.toNat, g)
  else if n = 0x2F then (bits c.a0.toNat 32 8, g)
  else if n = 0x30 then (bits c.a1.toNat 32 8, g)
  else if n = 0x31 then (q + 16 * k, g)
  else (b.flagWord (n - 0x32) c.next, g)

/-- A core with a special register written; a write to a read-only one is ignored. -/
def FbCore.setSpec (c : FbCore) (n v : Nat) : FbCore :=
  if n < 4 then c.setCursor false n (BitVec.ofNat 13 v)
  else if n < 8 then c.setCursor true (n - 4) (BitVec.ofNat 13 v)
  else if n < 0x14 then c.setWalk false ((n - 8) / 3) ((c.walk false ((n - 8) / 3)).setWord ((n - 8) % 3) v)
  else if n < 0x20 then c.setWalk true ((n - 0x14) / 3) ((c.walk true ((n - 0x14) / 3)).setWord ((n - 0x14) % 3) v)
  else if n = 0x20 then { c with sr := srOf v }
  else if n = 0x2C then
    { c with eilat := (List.range 4).map fun i => if bitOf v i && c.latched i then none else lget none c.eilat i }
  else if n = 0x2F then { c with a0 := BitVec.ofNat 8 v ++ c.a0.extractLsb' 0 32 }
  else if n = 0x30 then { c with a1 := BitVec.ofNat 8 v ++ c.a1.extractLsb' 0 32 }
  else c

/-! ### Instructions -/

/-- MPY, MAC, MSU and PAR (R167, R170): the multiply reads P and Q before the loads. -/
def FbCore.macOp (opc : Nat) : CoreWord → FbCore → Option FbCore
  | .mac _ a p q m, c =>
    let x := (c.dr p).toInt * (c.dr q).toInt
    let c1 := match opc with
      | 2 => c.setA a (BitVec.ofInt 40 x)
      | 3 => c.accum a ((c.a a).toInt + x)
      | 4 => c.accum a ((c.a a).toInt - x)
      | _ => c
    some (c1.moves m)
  | _, _ => none

/-- A register or immediate ALU instruction. -/
def FbCore.aluDo : CoreWord → FbCore → Option FbCore
  | .alu o d a b, c =>
    let r := aluOp o c.sr (c.dr a) (c.dr b)
    some (match r.1 with | some v => { c.setD d v with sr := r.2 } | none => { c with sr := r.2 })
  | .imm o d a i, c =>
    let r := aluOp o c.sr (c.dr a) (BitVec.ofNat 16 i)
    some (match r.1 with | some v => { c.setD d v with sr := r.2 } | none => { c with sr := r.2 })
  | _, _ => none

/-- An ACC instruction with a given SUB. -/
def FbCore.accDo (sub : Nat) : CoreWord → FbCore → Option FbCore
  | .acc a d sh sb, c => if sb = sub then some (c.accOp a d sh sb) else none
  | _, _ => none

/-- LD and ST (R170); the last store is kept with its cycle and what the word held (R165). -/
def FbCore.memDo : CoreWord → FbCore → Option FbCore
  | .mem st d y ar u ab ad, c =>
    let (a, c1) := if ab then (ad, c) else c.access y ar u
    some (if st then { c1.setMem y a (c.dr d) with lastSt := some (c.next, y, a, c.memAt y a) } else c1.setD d (c.memAt y a))
  | _, _ => none

/-- B (R173): a taken branch closes levels, innermost first, until one contains its target. -/
def FbCore.branch (c : FbCore) (cond t : Nat) : FbCore :=
  if c.sr.cond c.results.isEmpty cond then
    { c with reps := c.reps.dropWhile fun r => !(decide (r.start ≤ t) && decide (t ≤ r.fin)) }.goto t 2
  else c.after 1

/-- WAIT (R175). -/
def FbCore.waitOp (c : FbCore) (kind ei count : Nat) : FbCore :=
  let ready := match kind with
    | 0 => !c.results.isEmpty
    | 1 => c.latched ei
    | 2 => !c.frames.isEmpty
    | _ => false
  if ready then
    { c with sr := { c.sr with t := false }, eilat := if kind = 1 then lput c.eilat ei none else c.eilat }.after 1
  else if kind = 3 then
    let x := { c with sr := { c.sr with t := false } }.after (count + 1)
    { x with st := .waiting, wait := some { kind := 3, ei := ei, since := c.next, count := count } }
  else
    let x := c.after 0
    { x with st := .waiting, wait := some { kind := kind, ei := ei, since := c.next, count := count } }

/-- POP (R178). -/
def FbCore.popOp (c : FbCore) (frame : Bool) : FbCore :=
  if frame then
    match c.frames with
    | [] => { c with ifd := [0, 0, 0], ifsrc := 0, sr := { c.sr with e := true } }
    | x :: _ => { c with ifd := [x.d0, x.d1, x.d2], ifsrc := x.src, ififo := c.ififo.drop 1, sr := { c.sr with e := false } }
  else
    match c.results with
    | [] => { c.setD 7 3 with rl := 3, sr := { c.sr with e := true } }
    | x :: _ => { c.setD 7 (x.word.extractLsb' 0 16) with rl := x.word, rfifo := c.rfifo.drop 1, sr := { c.sr with e := false } }

/-- Condition flags written by a core in its issue cycle: those it owns change at the start of cycle F + 3; a denied one
counts once (R180, R181). -/
def State.coreFlags (s : State) (q k : Nat) (mask value : BitVec 64) : State :=
  let own := (List.range 64).foldl (fun (m : BitVec 64) i =>
    if lget 0xFF (s.fbq q).owners i = k then m ||| (1#64 <<< i) else m) 0
  let s1 := if mask &&& ~~~own ≠ 0 then s.onCore q k fun c => { c with flagDenied := inc32 c.flagDenied } else s
  if mask &&& own = 0 then s1 else s1.delay (((s.core q k).next + 3) * uCycle) (.flags q (mask &&& own) value)

/-- FLAG's value (R181). -/
def FbCore.flagValue (c : FbCore) (mode arg : Nat) : Bool :=
  match mode with
  | 0 => false
  | 1 => true
  | 2 => c.sr.cond c.results.isEmpty arg
  | _ => (c.dr (arg / 16)).getLsbD (arg % 16)

/-- The frames of a send queue still in it at a cycle: one is launched at the start of cycle S + 3, or two cycles after the
one before (R184). -/
def sendWaiting (cycle : Nat) : Option Nat → List FbSend → Nat
  | _, [] => 0
  | last, x :: t =>
    let l := max (x.issue + 3) (match last with | some n => n + 2 | none => 0)
    (if cycle < l then 1 else 0) + sendWaiting cycle (some l) t

/-- The payload of a feedback frame (R185). -/
def fbPayload (r : FbRoute) (q k : Nat) (fl dt : Bool) (m v d0 d1 d2 : BitVec 16) : List Byte :=
  leBytes 1 r.dq ++ leBytes 1 (r.dcore + 4 * ofBool fl + 8 * ofBool dt) ++ leBytes 1 (q + 16 * k) ++
    leBytes 1 (r.fseq % 256) ++ leBytes 1 r.group ++ [0] ++ leBytes 2 (if fl then m.toNat else 0) ++
    leBytes 2 (if fl then v.toNat else 0) ++
    (if dt then leBytes 2 d0.toNat ++ leBytes 2 d1.toNat ++ leBytes 2 d2.toNat else zeros 6)

/-- A frame behind one that joins the queue before it has the next number of their route. -/
def FbSend.bump (x : FbSend) : FbSend :=
  { x with payload := x.payload.take 3 ++ leBytes 1 ((u x.payload 3 1 + 1) % 256) ++ x.payload.drop 4 }

/-- A core's frame that found the queue full (R184). -/
def State.sendDropped (s : State) (q k : Nat) : State :=
  (s.onCore q k fun c => { c with sendDrop := inc32 c.sendDrop }).fireObj (s.core q k).cfg.alarm (coreId q k)

/-- SENDF (R183, R184). The frames of one cycle join in ascending core order, whatever the order of their rows: the last place goes to the lower core,
and the frame that had it is the one that finds the queue full. -/
def State.sendf (s : State) (q k n : Nat) (fl : Bool) (dm dv : Nat) (dt : Bool) (dd : Nat) : State :=
  let b := s.fbq q
  let c := s.core q k
  let r := b.route n
  let full := decide (8 ≤ sendWaiting c.next b.lastLaunch b.sendq)
  let behind := fun (x : FbSend) => x.issue == c.next && decide (k < x.core)
  let out := if full then b.sendq.getLast?.filter behind else none
  if r.port = 0xFF then
    s.onFb q fun b => { b with routes := tmod .reset b.routes n fun r => { r with lost := inc32 r.lost, fseq := (r.fseq + 1) % 256 } }
  else if full && out.isNone then s.sendDropped q k
  else
    let kept := if full then b.sendq.dropLast else b.sendq
    let mine := (kept.filter fun x => behind x && x.route == n).length + (match out with | some x => ofBool (x.route == n) | none => 0)
    let f : FbSend :=
      { issue := c.next, core := k, route := n, port := r.port, addr := r.addr,
        payload := fbPayload { r with fseq := (r.fseq + 256 - mine) % 256 } q k fl dt (c.dr dm) (c.dr dv) (c.dr dd) (c.dr (dd + 1)) (c.dr (dd + 2)) }
    let before := fun (x : FbSend) => decide (x.issue < f.issue) || (x.issue == f.issue && decide (x.core ≤ f.core))
    let count := fun (a : List (Nat × FbRoute)) (m d : Nat) => tmod .reset a m fun (r : FbRoute) => { r with fseq := (r.fseq + d) % 256 }
    let s1 := match out with | some x => s.sendDropped q x.core | none => s
    s1.onFb q fun b =>
      { b with routes := (match out with | some x => count (count b.routes n 1) x.route 255 | none => count b.routes n 1),
               sendq := kept.takeWhile before ++ [f] ++ (kept.dropWhile before).map fun x => if x.route = n then x.bump else x }

/-- SAFE (R190, R199): with no level or call open, a swap armed in an earlier cycle is performed and an FB_STOP with MODE 0 halts the
core. -/
def State.safe (s : State) (q k : Nat) : State :=
  let c := s.core q k
  let clear := c.reps.isEmpty && c.calls.isEmpty
  match (if clear then c.swap.filter (fun x => decide (x.2.2 < c.next)) else none) with
  | some (entry, keep, _) =>
    let x := if keep then c else
      { c with d := FbCore.reset.d, a0 := 0, a1 := 0, x := FbCore.reset.x, y := FbCore.reset.y, wx := FbCore.reset.wx,
               wy := FbCore.reset.wy }
    let y := { x with active := !c.active, swap := none, safeSt := 1 }.goto entry 3
    let y := if c.stopSafe then y.stop .halted 2 else y
    (s.onCore q k fun _ => y).resolve (wait .fbSwap (coreId q k) 0) []
  | none =>
    let y := { c.after 1 with safeSt := ofBool clear }
    s.onCore q k fun _ => if clear && c.stopSafe then y.stop .halted 2 else y

/-! ### The meanings of the instruction rows -/

def execCoreNop (q : Fin 16) (k : Fin 4) (s : State) : Host.Outcome State Fault Refusal :=
  .next (s.coreDo q k 0x00 fun _ c => some c)
def execCorePar (q : Fin 16) (k : Fin 4) (s : State) : Host.Outcome State Fault Refusal :=
  .next (s.coreDo q k 0x01 (FbCore.macOp 1))
def execCoreMpy (q : Fin 16) (k : Fin 4) (s : State) : Host.Outcome State Fault Refusal :=
  .next (s.coreDo q k 0x02 (FbCore.macOp 2))
def execCoreMac (q : Fin 16) (k : Fin 4) (s : State) : Host.Outcome State Fault Refusal :=
  .next (s.coreDo q k 0x03 (FbCore.macOp 3))
def execCoreMsu (q : Fin 16) (k : Fin 4) (s : State) : Host.Outcome State Fault Refusal :=
  .next (s.coreDo q k 0x04 (FbCore.macOp 4))
def execCoreAdd (q : Fin 16) (k : Fin 4) (s : State) : Host.Outcome State Fault Refusal :=
  .next (s.coreDo q k 0x08 FbCore.aluDo)
def execCoreSub (q : Fin 16) (k : Fin 4) (s : State) : Host.Outcome State Fault Refusal :=
  .next (s.coreDo q k 0x09 FbCore.aluDo)
def execCoreAnd (q : Fin 16) (k : Fin 4) (s : State) : Host.Outcome State Fault Refusal :=
  .next (s.coreDo q k 0x0A FbCore.aluDo)
def execCoreOr (q : Fin 16) (k : Fin 4) (s : State) : Host.Outcome State Fault Refusal :=
  .next (s.coreDo q k 0x0B FbCore.aluDo)
def execCoreXor (q : Fin 16) (k : Fin 4) (s : State) : Host.Outcome State Fault Refusal :=
  .next (s.coreDo q k 0x0C FbCore.aluDo)
def execCoreShl (q : Fin 16) (k : Fin 4) (s : State) : Host.Outcome State Fault Refusal :=
  .next (s.coreDo q k 0x0D FbCore.aluDo)
def execCoreAsr (q : Fin 16) (k : Fin 4) (s : State) : Host.Outcome State Fault Refusal :=
  .next (s.coreDo q k 0x0E FbCore.aluDo)
def execCoreLsr (q : Fin 16) (k : Fin 4) (s : State) : Host.Outcome State Fault Refusal :=
  .next (s.coreDo q k 0x0F FbCore.aluDo)
def execCoreCmp (q : Fin 16) (k : Fin 4) (s : State) : Host.Outcome State Fault Refusal :=
  .next (s.coreDo q k 0x10 FbCore.aluDo)
def execCoreMov (q : Fin 16) (k : Fin 4) (s : State) : Host.Outcome State Fault Refusal :=
  .next (s.coreDo q k 0x11 FbCore.aluDo)
def execCoreMin (q : Fin 16) (k : Fin 4) (s : State) : Host.Outcome State Fault Refusal :=
  .next (s.coreDo q k 0x12 FbCore.aluDo)
def execCoreMax (q : Fin 16) (k : Fin 4) (s : State) : Host.Outcome State Fault Refusal :=
  .next (s.coreDo q k 0x13 FbCore.aluDo)
def execCoreLdi (q : Fin 16) (k : Fin 4) (s : State) : Host.Outcome State Fault Refusal :=
  .next (s.coreDo q k 0x14 FbCore.aluDo)
def execCoreAddi (q : Fin 16) (k : Fin 4) (s : State) : Host.Outcome State Fault Refusal :=
  .next (s.coreDo q k 0x15 FbCore.aluDo)
def execCoreAndi (q : Fin 16) (k : Fin 4) (s : State) : Host.Outcome State Fault Refusal :=
  .next (s.coreDo q k 0x16 FbCore.aluDo)
def execCoreOri (q : Fin 16) (k : Fin 4) (s : State) : Host.Outcome State Fault Refusal :=
  .next (s.coreDo q k 0x17 FbCore.aluDo)
def execCoreXori (q : Fin 16) (k : Fin 4) (s : State) : Host.Outcome State Fault Refusal :=
  .next (s.coreDo q k 0x18 FbCore.aluDo)
def execCoreCmpi (q : Fin 16) (k : Fin 4) (s : State) : Host.Outcome State Fault Refusal :=
  .next (s.coreDo q k 0x19 FbCore.aluDo)
def execCoreTsti (q : Fin 16) (k : Fin 4) (s : State) : Host.Outcome State Fault Refusal :=
  .next (s.coreDo q k 0x1A FbCore.aluDo)
def execCoreShli (q : Fin 16) (k : Fin 4) (s : State) : Host.Outcome State Fault Refusal :=
  .next (s.coreDo q k 0x1B FbCore.aluDo)
def execCoreAsri (q : Fin 16) (k : Fin 4) (s : State) : Host.Outcome State Fault Refusal :=
  .next (s.coreDo q k 0x1C FbCore.aluDo)
def execCoreClra (q : Fin 16) (k : Fin 4) (s : State) : Host.Outcome State Fault Refusal :=
  .next (s.coreDo q k 0x20 (FbCore.accDo 0))
def execCoreMvda (q : Fin 16) (k : Fin 4) (s : State) : Host.Outcome State Fault Refusal :=
  .next (s.coreDo q k 0x20 (FbCore.accDo 1))
def execCoreMvah (q : Fin 16) (k : Fin 4) (s : State) : Host.Outcome State Fault Refusal :=
  .next (s.coreDo q k 0x20 (FbCore.accDo 2))
def execCoreMval (q : Fin 16) (k : Fin 4) (s : State) : Host.Outcome State Fault Refusal :=
  .next (s.coreDo q k 0x20 (FbCore.accDo 3))
def execCoreSha (q : Fin 16) (k : Fin 4) (s : State) : Host.Outcome State Fault Refusal :=
  .next (s.coreDo q k 0x20 (FbCore.accDo 4))
def execCoreRnda (q : Fin 16) (k : Fin 4) (s : State) : Host.Outcome State Fault Refusal :=
  .next (s.coreDo q k 0x20 (FbCore.accDo 5))
def execCoreSata (q : Fin 16) (k : Fin 4) (s : State) : Host.Outcome State Fault Refusal :=
  .next (s.coreDo q k 0x20 (FbCore.accDo 6))
def execCoreAdda (q : Fin 16) (k : Fin 4) (s : State) : Host.Outcome State Fault Refusal :=
  .next (s.coreDo q k 0x20 (FbCore.accDo 7))
def execCoreSuba (q : Fin 16) (k : Fin 4) (s : State) : Host.Outcome State Fault Refusal :=
  .next (s.coreDo q k 0x20 (FbCore.accDo 8))
def execCoreTsta (q : Fin 16) (k : Fin 4) (s : State) : Host.Outcome State Fault Refusal :=
  .next (s.coreDo q k 0x20 (FbCore.accDo 9))
def execCoreMvdl (q : Fin 16) (k : Fin 4) (s : State) : Host.Outcome State Fault Refusal :=
  .next (s.coreDo q k 0x20 (FbCore.accDo 10))
def execCoreLd (q : Fin 16) (k : Fin 4) (s : State) : Host.Outcome State Fault Refusal :=
  .next (s.coreDo q k 0x21 FbCore.memDo)
def execCoreSt (q : Fin 16) (k : Fin 4) (s : State) : Host.Outcome State Fault Refusal :=
  .next (s.coreDo q k 0x22 FbCore.memDo)

/-- MOVS (R172): between D and a special register. -/
def execCoreMovs (q : Fin 16) (k : Fin 4) (s : State) : Host.Outcome State Fault Refusal :=
  .next (s.coreRow q k 0x24 fun w s1 =>
    match w with
    | .movs n d toD =>
      let c := s1.core q k
      let r := c.spec (s1.fbq q) q k n
      let x := if toD then r.2.setD d (BitVec.ofNat 16 r.1) else c.setSpec n (c.dr d).toNat
      some (s1.onCore q k fun _ => x.after 1)
    | _ => none)
/-- LDS (R172). -/
def execCoreLds (q : Fin 16) (k : Fin 4) (s : State) : Host.Outcome State Fault Refusal :=
  .next (s.coreDo q k 0x25 fun w c => match w with | .lds n v => some (c.setSpec n v) | _ => none)

/-- B (R173). -/
def execCoreB (q : Fin 16) (k : Fin 4) (s : State) : Host.Outcome State Fault Refusal :=
  .next (s.coreRow q k 0x28 fun w s1 =>
    match w with | .branch c t => some (s1.onCore q k fun x => x.branch c t) | _ => none)
/-- CALL (R173): a fifth entry faults. -/
def execCoreCall (q : Fin 16) (k : Fin 4) (s : State) : Host.Outcome State Fault Refusal :=
  .next (s.coreRow q k 0x29 fun w s1 =>
    match w with
    | .call t =>
      if 4 ≤ (s1.core q k).calls.length then some (s1.coreFault q k 7)
      else some (s1.onCore q k fun c => { c with calls := (c.pc + 1) :: c.calls }.goto t 2)
    | _ => none)
/-- RET (R173): an empty call stack faults. -/
def execCoreRet (q : Fin 16) (k : Fin 4) (s : State) : Host.Outcome State Fault Refusal :=
  .next (s.coreRow q k 0x2A fun w s1 =>
    match w with
    | .ret =>
      match (s1.core q k).calls with
      | [] => some (s1.coreFault q k 7)
      | t :: ts => some (s1.onCore q k fun c => { c with calls := ts }.goto t 2)
    | _ => none)
/-- REP (R174). -/
def execCoreRep (q : Fin 16) (k : Fin 4) (s : State) : Host.Outcome State Fault Refusal :=
  .next (s.coreRow q k 0x2C fun w s1 =>
    match w with
    | .rep fromReg d cnt e =>
      let c := s1.core q k
      let n := if fromReg then (c.dr d).toNat else cnt + 1
      if c.reps.any fun r => r.fin == c.pc then some (s1.coreFault q k 6)
      else if n = 0 then
        let r := repAfter e c.reps
        some (s1.onCore q k fun c => { c with reps := r.2 }.goto r.1 2)
      else if 4 ≤ c.reps.length then some (s1.coreFault q k 6)
      else some (s1.onCore q k fun c =>
        { c with reps := { start := c.pc + 1, fin := e, left := n - 1 } :: c.reps }.goto (c.pc + 1) 1)
    | _ => none)
/-- WAIT (R175). -/
def execCoreWait (q : Fin 16) (k : Fin 4) (s : State) : Host.Outcome State Fault Refusal :=
  .next (s.coreRow q k 0x2E fun w s1 =>
    match w with | .wait kd ei n => some (s1.onCore q k fun c => c.waitOp kd ei n) | _ => none)
/-- POP (R178). -/
def execCorePop (q : Fin 16) (k : Fin 4) (s : State) : Host.Outcome State Fault Refusal :=
  .next (s.coreDo q k 0x2F fun w c => match w with | .pop f => some (c.popOp f) | _ => none)
/-- FLAG (R181). -/
def execCoreFlag (q : Fin 16) (k : Fin 4) (s : State) : Host.Outcome State Fault Refusal :=
  .next (s.coreRow q k 0x30 fun w s1 =>
    match w with
    | .flag f m a =>
      let v := (s1.core q k).flagValue m a
      some ((s1.coreFlags q k (1#64 <<< f) (if v then 1#64 <<< f else 0)).onCore q k fun c => c.after 1)
    | _ => none)
/-- FLAGG (R170, R181). -/
def execCoreFlagg (q : Fin 16) (k : Fin 4) (s : State) : Host.Outcome State Fault Refusal :=
  .next (s.coreRow q k 0x31 fun w s1 =>
    match w with
    | .flagg g dm dv =>
      let c := s1.core q k
      some ((s1.coreFlags q k ((c.dr dm).setWidth 64 <<< (16 * g)) ((c.dr dv).setWidth 64 <<< (16 * g))).onCore q k
        fun c => c.after 1)
    | _ => none)
/-- SENDF (R184). -/
def execCoreSendf (q : Fin 16) (k : Fin 4) (s : State) : Host.Outcome State Fault Refusal :=
  .next (s.coreRow q k 0x32 fun w s1 =>
    match w with
    | .sendf r fl dm dv dt dd => some ((s1.sendf q k r fl dm dv dt dd).onCore q k fun c => c.after 1)
    | _ => none)
/-- EVOUT (R179): its channel fires in the cycle after issue. -/
def execCoreEvout (q : Fin 16) (k : Fin 4) (s : State) : Host.Outcome State Fault Refusal :=
  .next (s.coreRow q k 0x33 fun w s1 =>
    match w with
    | .evout eo =>
      let c := s1.core q k
      let ch := lget 0xFFFF c.cfg.evo eo
      let s2 := if ch < 256 then s1.delay ((c.next + 1) * uCycle) (.evout q k ch) else s1
      some (s2.onCore q k fun c => c.after 1)
    | _ => none)
/-- SAFE (R190). -/
def execCoreSafe (q : Fin 16) (k : Fin 4) (s : State) : Host.Outcome State Fault Refusal :=
  .next (s.coreRow q k 0x3C fun _ s1 => some (s1.safe q k))
/-- HALT (R176, cause 1). -/
def execCoreHalt (q : Fin 16) (k : Fin 4) (s : State) : Host.Outcome State Fault Refusal :=
  .next (s.coreRow q k 0x3F fun _ s1 => some (s1.onCore q k fun c => (c.after 1).stop .halted 1))

/-! ### The ends of waits (R175) -/

/-- The first cycle in which what a WAIT waits for holds. -/
def FbCore.holdsAt (c : FbCore) (w : CWait) : Option Nat :=
  match w.kind with
  | 0 => (c.rfifo.head?).map fun e => max e.cycle w.since
  | 1 => (lget none c.eilat w.ei).map fun t => max t w.since
  | 2 => (c.ififo.head?).map fun e => max e.cycle w.since
  | _ => none

/-- A waited condition holds in cycle E: the next instruction issues in cycle E + 2. A wait of KIND 3 ends with its
count. -/
def execCoreWaitRelease (q : Fin 16) (k : Fin 4) (s : State) : Host.Outcome State Fault Refusal :=
  let c := s.core q k
  match c.wait with
  | none => .next s
  | some w =>
    if w.kind = 3 then
      .next (((s.advanceTo (c.next * uCycle)).onCore q k fun c => { c with st := .running, wait := none }).corePast q k)
    else
      match c.holdsAt w with
      | none => .next s
      | some e =>
        if w.count ≠ 0 ∧ w.since + w.count < e then .next s
        else
          .next (((s.advanceTo (e * uCycle)).onCore q k fun c =>
            { c with st := .running, wait := none, next := e + 2, sr := { c.sr with t := false },
                     eilat := if w.kind = 1 then lput c.eilat w.ei none else c.eilat }).corePast q k)

/-- A WAIT's COUNT expires: T is set and the next instruction issues in the cycle after. -/
def execCoreWaitTimeout (q : Fin 16) (k : Fin 4) (s : State) : Host.Outcome State Fault Refusal :=
  let c := s.core q k
  match c.wait with
  | none => .next s
  | some w =>
    let early := match c.holdsAt w with | some e => decide (e ≤ w.since + w.count) | none => false
    if w.kind = 3 ∨ w.count = 0 ∨ early = true then .next s
    else
      .next (((s.advanceTo ((w.since + w.count) * uCycle)).onCore q k fun c =>
        { c with st := .running, wait := none, next := w.since + w.count + 1, sr := { c.sr with t := true } }).corePast q k)

/-! ### Arrivals -/

/-- An event reaches a core (R179): it sets the latch of each input bound to the channel, or counts in EI_OVR. -/
def State.coreArrive (s : State) (q k : Nat) (fields : List Nat) : State :=
  (List.range 4).foldl (fun a i =>
    a.onCore q k fun c =>
      if !fields.contains i then c
      else if (lget none c.eilat i).isSome then { c with eiOvr := inc32 c.eiOvr }
      else { c with eilat := lput c.eilat i (some (cycleAt s.now)) }) s

/-- A frame put among those on the way, in the order of R182. -/
def insFlight (x : FbFlight) : List FbFlight → List FbFlight
  | [] => [x]
  | y :: t =>
    if y.arrive < x.arrive || (y.arrive == x.arrive && decide (y.order ≤ x.order)) then y :: insFlight x t
    else x :: y :: t

/-- SEND_QUEUE_LAUNCH: the next frame of a send queue is launched (R184). It reaches its Quire, or LGA, 14 cycles later.
FRAMES_SENT, which R201 does not define, counts it here, even if LGA then loses it. DESIGN CHOICE. -/
def execSendQueueLaunch (q : Fin 16) (s : State) : Host.Outcome State Fault Refusal :=
  let b := s.fbq q
  match b.sendq with
  | [] => .next s
  | x :: rest =>
    let l := max (x.issue + 3) (match b.lastLaunch with | some n => n + 2 | none => 0)
    let s1 := ((s.advanceTo (l * uCycle)).onFb q fun b => { b with sendq := rest, lastLaunch := some l }).onCore q x.core fun c =>
      { c with framesSent := inc32 c.framesSent }
    if x.port = 0 then
      let s2 := s1.onFb q fun b => { b with routes := tmod .reset b.routes x.route fun r => { r with sent := inc32 r.sent } }
      .next (s2.onFb (u x.payload 0 1 % 16) fun b =>
        { b with inbound := insFlight { arrive := l + 14, order := q, remote := false, payload := x.payload } b.inbound })
    else .next (s1.delay ((l + 14) * uCycle) (.fbOut q x.core x.route x.port x.addr x.payload))

/-- A frame's flag writes reach their Quire (R180, R182): those owned by REMOTE change; a denied flag and a flag that
another frame wrote in the same cycle are counted. -/
def State.frameFlags (s : State) (q cycle group : Nat) (mask value : BitVec 16) : State :=
  let m : BitVec 64 := (mask.setWidth 64) <<< (16 * group)
  let v : BitVec 64 := (value.setWidth 64) <<< (16 * group)
  let b := s.fbq q
  let own := (List.range 64).foldl (fun (x : BitVec 64) i => if lget 0xFF b.owners i = 4 then x ||| (1#64 <<< i) else x) 0
  let w := m &&& own
  let (seen, hit) := if b.written.1 = cycle then b.written.2 else (0#64, 0#64)
  let again := w &&& seen &&& ~~~hit
  let n := ((List.range 64).filter fun i => again.getLsbD i).length
  s.onFb q fun b =>
    { b.writeFlags s.now w v with
      remoteDenied := if m &&& ~~~own ≠ 0 then inc32 b.remoteDenied else b.remoteDenied,
      flagCollide := satAdd 32 b.flagCollide n, written := (cycle, seen ||| w, hit ||| again) }

/-- A frame's data words enter the inbound FIFO of their core; a full FIFO drops them (R186). -/
def State.frameData (s : State) (q k cycle : Nat) (remote : Bool) (p : List Byte) : State :=
  let c := s.core q k
  if 8 ≤ c.ififo.length then
    (s.onCore q k fun c => { c with ifDrop := inc32 c.ifDrop }).fireObj c.cfg.alarm (coreId q k)
  else
    let src := bits (u p 2 1) 0 6 + 64 * ofBool remote + 256 * u p 3 1
    s.onCore q k fun c =>
      { c with ififo := c.ififo ++ [{ cycle := cycle, d0 := BitVec.ofNat 16 (u p 10 2), d1 := BitVec.ofNat 16 (u p 12 2),
                                      d2 := BitVec.ofNat 16 (u p 14 2), src := BitVec.ofNat 16 src }] }

/-- FEEDBACK_FRAME_RECEIVE: the next frame on its way to a Quire arrives (R186). FRAMES_RECV of core DCORE, which R201 does not define, counts every
one, with flags alone too, and a GROUP above 3 counts modulo 4, of which R185 says nothing. DESIGN CHOICE. -/
def execFeedbackFrameReceive (q : Fin 16) (s : State) : Host.Outcome State Fault Refusal :=
  match (s.fbq q).inbound with
  | [] => .next s
  | x :: rest =>
    let s1 := (s.advanceTo (x.arrive * uCycle)).onFb q fun b => { b with inbound := rest }
    if s1.pers q != .control then .next (s1.onFb q fun b => { b with remoteDenied := inc32 b.remoteDenied })
    else
      let ctrl := u x.payload 1 1
      let k := ctrl % 4
      let s2 := s1.onCore q k fun c => { c with framesRecv := inc32 c.framesRecv }
      let s3 := if bitOf ctrl 2 then
          s2.frameFlags q x.arrive (u x.payload 4 1 % 4) (BitVec.ofNat 16 (u x.payload 6 2)) (BitVec.ofNat 16 (u x.payload 8 2))
        else s2
      .next (if bitOf ctrl 3 then s3.frameData q k x.arrive x.remote x.payload else s3)

end Sys2Proof.Machine
end

