-- ==== Sys2Proof/Machine/Thread.lean ====
section
/-! DEFINITION. Thread (10): selection of a grandmaster, the roles of the device and its ports, announcements and the offset
estimate (R346 to R359). -/
namespace Sys2Proof.Machine

def State.onTmu (s : State) (g : Tmu → Tmu) : State := s.onLink fun l => { l with tmu := g l.tmu }
def State.tmu (s : State) : Tmu := s.link.tmu

/-- A time in 2^-16 ns, and the time that such a stamp stands for. -/
def stampOf (t : Nat) : Nat := t / 25
def ofStamp (x : Nat) : Nat := x * 25

/-! ### Vectors (R353) -/

/-- Field by field, the lower value wins. -/
def TVec.beats (a b : TVec) : Bool :=
  decide (a.prio < b.prio) || (a.prio == b.prio && (decide (a.cls < b.cls) || (a.cls == b.cls && (decide (a.gm < b.gm) ||
    (a.gm == b.gm && decide (a.steps < b.steps))))))

/-- Own CLASS (R353). A selected REC has no row of its own; it takes that of REC-HOLD. DEDUCED. -/
def State.ownClass (s : State) : Nat :=
  if s.clk.sel = srcEref then (if s.tmu.timeSet then 0x10 else 0x20) else if s.clk.sel = srcInt then 0xF0 else 0x80

/-- The device's own vector, which PRIORITY 255 forbids. -/
def State.ownVec (s : State) : Option TVec :=
  if s.tmu.cfg.prio < 255 then some { prio := s.tmu.cfg.prio, cls := s.ownClass, gm := s.dev.addr, steps := 0 } else none

/-- Thread runs on a port (R348). -/
def State.threadOn (s : State) (p : Nat) : Bool :=
  bitOf s.tmu.cfg.ports p && bitOf (s.port p).rights 1 && s.dev.st != .endpaper && s.dev.st != .off

/-- The partner's announcement on a port, unexpired (R350). -/
def State.heardVec (s : State) (p : Nat) : Option TVec :=
  if s.threadOn p && s.portUp p && decide (s.now < (s.port p).vecAt + 3 * uMs) then (s.port p).vec else none

/-- A port's vector: one step further than announced; not one that names a grandmaster being ignored (R353, R355). -/
def State.portVec (s : State) (p : Nat) : Option TVec :=
  match s.heardVec p with
  | some v => if (s.port p).ignore.any fun e => v.gm == e.1 && decide (s.now < e.2) then none else some { v with steps := v.steps + 1 }
  | none => none

/-- The best vector and the port it came from; on equal vectors the lower port wins. -/
def State.bestVec (s : State) : Option (Option Nat × TVec) :=
  [0, 1, 2, 3].foldl (fun b p => match s.portVec p, b with
    | some v, some (o, w) => if v.beats w then some (some p, v) else some (o, w)
    | some v, none => some (some p, v)
    | none, b => b) (s.ownVec.map fun v => (none, v))

/-- The vector that the device announces: its grandmaster's with its own STEPS, which may not exceed 1,022, or its own (R353, R355). -/
def State.announced (s : State) : Option TVec :=
  match s.tmu.up with
  | some _ => if s.tmu.sel.steps ≤ 1022 then some s.tmu.sel else none
  | none => s.ownVec

/-- PROLE (R354, R377): 0 DISABLED, 1 UPSTREAM, 2 DOWNSTREAM, 3 PASSIVE. -/
def State.portRole (s : State) (p : Nat) : Nat :=
  if !s.threadOn p then 0 else if s.tmu.up = some p then 1
  else match s.heardVec p, s.announced with
    | none, _ => 2
    | some v, some a => if a.beats v then 2 else 3
    | some _, none => 3

/-! ### Sending TIME frames (R349, R363) -/

/-- A TIME frame on a port; the instant at which its K28.1 crosses the land where Endpaper gets the transmit stamp: a full queue
drops it, and the exchange that the message belongs to is lost with it (R363). Endpaper takes Thread's entries at once, so the queue holds those of launch
slots only. -/
def State.sendTime (s : State) (p : Nat) (payload : List Byte) : State × Option Nat :=
  match s.sendPre p 1 (s.partnerAddr p) s.dev.addr 0 payload with
  | none => (s, none)
  | some (s1, t, _) =>
    if 16 ≤ (s1.port p).txts.length then
      ((s1.onPort p fun x => { x with txtsOvf := true, exch := none }).onTmu fun t =>
        { t with exchLost := if u payload 0 1 = 1 then t.exchLost else inc32 t.exchLost }, none)
    else (s1, some (t + charTime (s.laneCfg (4 + p)).rate))

/-- An ANNOUNCE on a port (R349, R350). -/
def State.announce (s : State) (p : Nat) : State :=
  if !(s.threadOn p && s.portUp p) then s
  else match s.announced with
    | none => s
    | some v =>
      (s.sendTime p (leBytes 1 1 ++ leBytes 1 (s.port p).mseq ++ zeros 2 ++ leBytes 3 v.gm ++ leBytes 1 v.prio ++ leBytes 1 v.cls ++ zeros 1 ++
        leBytes 2 v.steps ++ zeros 4)).1

def State.announceAll (s : State) : State := [0, 1, 2, 3].foldl (fun a p => a.announce p) s

/-- The payload of the other messages. -/
def timeMsg (mtype mseq : Nat) (t : List Byte) : List Byte := leBytes 1 mtype ++ leBytes 1 mseq ++ zeros 2 ++ fit 12 t

/-! ### Roles (R346, R347) -/

def TRole.code : TRole → Nat
  | .freerun => 0 | .grandmaster => 1 | .follower => 2 | .holdover => 3

/-- What a follower has slewed out by an instant is gone from the correction that remains: SLEW_PPB parts in 10^9 of the time passed (R357). In another role
none is applied (R346). -/
def Tmu.slewTo (t : Tmu) (now : Nat) : Tmu :=
  let a : Int := if t.role = .follower then ((now - t.slewAt) * t.cfg.slewPpb * 4 / 25000000000 : Nat) else 0
  let less := fun (x : Int) => if 0 ≤ x then max 0 (x - a) else min 0 (x + a)
  { t with slew := less t.slew, rest := less t.rest, slewAt := now }

/-- Another role; each change fires EV_STATE. Corrections are for a follower only. -/
def State.setRole (s : State) (r : TRole) : State :=
  if s.tmu.role = r then s
  else (s.onTmu fun t => { t.slewTo s.now with role := r, slew := if r = .follower then t.slew else 0, everFollower := t.everFollower || r == .follower }).fireObj s.tmu.cfg.evState deviceId

/-- The vector of FREERUN: none (R374). -/
def TVec.none : TVec := { prio := 0xFF, cls := 0xFF, gm := 0xFFFFFFFF, steps := 0 }

/-- The device chooses again (R347, R353, R355), withdrawing where it must. -/
def State.timeSelect (s : State) : State :=
  let t := s.tmu
  if s.dev.st == .endpaper || s.dev.st == .off then s
  else if !([0, 1, 2, 3].any s.threadOn) then
    ((s.onTmu fun x => { x with up := none, sel := .none, pending := none, step := none }).setRole .freerun).reselect.recohere
  else
    let gone := match t.up with
      | some p => (match s.heardVec p with | some v => v.gm != t.sel.gm | none => true)
      | none => false
    let s1 := if gone then [0, 1, 2, 3].foldl (fun a p => a.onPort p fun x => { x with ignore := x.ignore ++ [(t.sel.gm, s.now + 4 * uMs)] }) s else s
    let s2 := match s1.bestVec with
      | some (some p, v) =>
        let fresh := t.up != some p || t.sel.gm != v.gm
        let a := s1.onTmu fun x => { x with up := some p, sel := v }
        if fresh then (a.clearSet p).setRole (if t.role = TRole.follower then TRole.holdover else t.role) else a
      | some (none, v) =>
        let a := (s1.onTmu fun x => { x with up := none, sel := v }).setRole (if t.role = TRole.follower then TRole.holdover else t.role)
        if a.tmu.role = TRole.holdover ∧ a.tmu.pending.isSome then a else a.setRole .grandmaster
      | none =>
        let a := s1.onTmu fun x => { x with up := none }
        if t.role = TRole.follower then a.setRole .holdover
        else if t.role = TRole.grandmaster then (a.onTmu fun x => { x with sel := .none }).setRole .freerun else a
    (if gone then s2.announceAll else s2).reselect.recohere

/-! ### The estimate (R352, R357 to R359). `thetas` are in 2^-17 ns, `est`, `slew` and `pending` in 2^-18 ns, so that nothing is
rounded before it is reported. -/

/-- A list of integers in rising order. -/
def insInt (x : Int) : List Int → List Int
  | [] => [x]
  | y :: t => if x ≤ y then x :: y :: t else y :: insInt x t
def sortInt (l : List Int) : List Int := l.foldr insInt []

/-- Twice the median of eight values. -/
def median2 (l : List Int) : Int := let m := sortInt l; lget 0 m 3 + lget 0 m 4

/-- A pulse schedule has pulses to come. -/
def Trig.scheduled (t : Trig) : Bool := t.mode == 1 && (t.count == 0 || decide (t.next < t.count))

/-- Nothing depends on the time yet (R359). -/
def State.timeFree (s : State) : Bool :=
  !s.tmu.everFollower && (List.range 16).all (fun q => !s.folioBusy q) && !s.plans.corr.run.active && !s.plans.beam.run.active &&
    s.dev.timed.isEmpty && s.link.trigs.all (fun t => !t.scheduled) && s.link.ports.all fun p => p.slots.all fun x => x.st != .armed

/-- The first 16 ns boundary at least 10 µs ahead (R360). -/
def State.stepAt (s : State) : Nat := roundUp (s.now + 10 * uUs) (16 * uNs)

/-- A new estimate on the upstream port: slewed out within STEP_THR, refused beyond it, or stepped to under R359. What is left of the remainder of a step is
exempt from STEP_THR (R360): an estimate that it accounts for is within (DEDUCED), and so is one that a new bin table of the port's line can have moved so far
(R445). -/
def State.timeJudge (s : State) (p : Nat) : State :=
  let th := (s.port p).thetas
  if th.length < 8 ∨ s.tmu.up ≠ some p then s
  else
    let e := median2 (th.take 8)
    let g := s.tmu.grace
    let s1 := s.onTmu fun t => { t.slewTo s.now with est := e, upDelay := (s.port p).delay, grace := (g.1, g.2 - 1) }
    let within := fun (x : Int) (by' : Nat) => decide (x.natAbs * 1000 ≤ s.tmu.cfg.stepThr * 2 ^ 18 + by' * 1000)
    let s2 :=
      if within e g.1 || (s1.tmu.rest != 0 && within (e - s1.tmu.rest) g.1) then
        ((s1.setRole .follower).onTmu fun t => { t with pending := none, slew := e, slewAt := s.now, grace := if g.2 ≤ 1 && within e 0 then (0, 0) else t.grace, step := match t.step with | some { maxAbs := none, .. } => none | x => x })
      else if s.tmu.step.isSome then s1.onTmu fun t => { t with pending := some e }
      else if s.tmu.cfg.autoFirst && s.timeFree then
        s1.onTmu fun t => { t with pending := some e, step := some { time := s.stepAt, maxAbs := none } }
      else
        let a := (s1.onTmu fun t =>
          { t with pending := some e, refused := inc32 t.refused, stepId := if t.pending.isNone then (t.stepId + 1) % 65536 else t.stepId }).setRole .holdover
        if s.tmu.pending.isNone then a.fireObj s.tmu.cfg.evStep deviceId else a
    s2.reselect.recohere

/-- An exchange is complete on the upstream port (R352); the stamps are in 2^-16 ns. -/
def State.exchDone (s : State) (p t1 t2 t3 t4 : Nat) : State :=
  let a : Int := (t2 : Int) - t1
  let b : Int := (t4 : Int) - t3
  (s.onPort p fun x =>
    { x with exch := none, done := x.done + 1, delay := (a + b).toNat, thetas := (a - b - 2 * x.asym) :: x.thetas.take 7 }).timeJudge p

/-- The exchange in progress on a port is discarded (R350). -/
def State.exchDrop (s : State) (p : Nat) : State :=
  (s.onPort p fun x => { x with exch := none }).onTmu fun t => { t with exchLost := inc32 t.exchLost }

/-- Thread stops on entry to ENDPAPER: HOLDOVER where the device had a master, FREERUN otherwise (10). -/
def State.timeStop (s : State) : State :=
  let had := s.tmu.role == .follower || s.tmu.role == .holdover
  let s1 := [0, 1, 2, 3].foldl (fun a p => a.onPort p fun x => { x with vec := none, exch := none, thetas := [], done := 0 }) s
  let s2 := s1.setRole (if had then .holdover else .freerun)
  (s2.onTmu fun t => { t with up := none, sel := if had then t.sel else .none, pending := none, step := none }).reselect.recohere

end Sys2Proof.Machine
end

