-- ==== Sys2Proof/Machine/Lanes.lean ====
section
/-! DEFINITION. The serial lanes (09, R300 to R310) and the bonding of array lanes into ports (R324, R325). -/
namespace Sys2Proof.Machine

/-! ### Equalisation (R305) -/

/-- A table entry is in force: VALID, and every field in its range. -/
def eqOk (e : Nat) : Bool :=
  bitOf e 63 && decide (16 ≤ bits e 4 6) && decide (bits e 0 4 + bits e 4 6 + bits e 10 5 ≤ 63) &&
    [20, 26, 32, 38, 44].all fun k => bits e k 6 != 32

/-- The entry for a lane at its rate: the one that LANE_EQ_SET gave, else that of IMAGE 0x082 (R333), whose newest copy is given. -/
def State.eqEntry (s : State) (table : Option ImgCopy) (n : Nat) : Nat :=
  let r := s.laneRate n
  match tget 0 (s.lane n).eq r with
  | 0 => (match table with | some c => c.u (128 + (3 * n + r) * 8) 8 | none => 0)
  | e => e

/-- A lane's settings are loaded: an entry that is not in force is replaced. -/
def State.loadEq (s : State) (table : Option ImgCopy) (n : Nat) : State :=
  let e := s.eqEntry table n
  s.onLane n fun l => { l with eqSet := if eqOk e then e else eqFallback, eqDefault := !eqOk e }

/-! ### States (R306, R307) -/

/-- The transmitter is on (R301). -/
def LaneSt.transmits (l : LaneSt) : Bool := l.st != .disabled && l.st != .faulty

/-- It sends ordered sets and IDENT, and not the PRBS31 of a far-end test (R303, R304, R334). -/
def LaneSt.sendsSets (l : LaneSt) : Bool := l.transmits && !(match l.cmdTest with | some (_, far) => far | none => false)

/-- The line bits sent up to an instant (R301). -/
def LaneSt.accrue (l : LaneSt) (rate now : Nat) : LaneSt :=
  if l.transmits then
    let k := (now - l.txFrom) / charTime rate
    { l with txBits := (l.txBits + 10 * k) % 2 ^ 64, txFrom := l.txFrom + k * charTime rate }
  else { l with txFrom := now }

/-- A lane enters a state. One that leaves UP must pass a self-test before it may be ABSENT without one (R307). -/
def State.laneTo (s : State) (n : Nat) (st : LState) : State :=
  s.onLane n fun l =>
    let a := l.accrue (s.laneRate n) s.now
    let on := st != .disabled && st != .faulty
    let b := if !l.transmits then { a with rdAt := max a.rdAt s.now } else if on then a else a.cutAt (s.charOf n) s.now
    { b with st := st, since := s.now, errs := [], passed := if l.st = .disabled ∨ (l.st = .up ∧ st ≠ .up) then false else a.passed,
             fromUp := if st = .test then l.st == .up else a.fromUp, cmdTest := none, identTx := if l.transmits then a.identTx else s.now,
             skipAt := if l.transmits then a.skipAt else s.now }

/-- A lane enters TRAINING: its equalisation is loaded (R305). -/
def State.train (s : State) (n : Nat) : State := (s.laneTo n .training).loadEq (s.newest 0x082) n

/-- A change of rate ends the frame in progress on a lane with K28.6; those that wait behind it are lost with it. The running disparity goes on (R301). -/
def State.abortTx (s : State) (n : Nat) : State :=
  let l := s.lane n
  let ct := s.charOf n
  let busy := (l.frames.any fun f => f.kind == .frame && decide (f.start < s.now) && decide (s.now < l.stopOf ct f)) ||
    l.pres.any fun p => !p.skip && decide (p.start < s.now) && decide (s.now < p.stop)
  if !l.transmits then s
  else
    let s1 := s.onLane n fun l => l.cutAt ct s.now
    if busy then (s1.onLane n fun l => { l with rd := runDisp l.rd [ctl 28 6] }).emit (.line n [ctl 28 6]) else s1

/-! ### Bonding (R324) -/

/-- The link level in force (R325). -/
def State.linkLevel (s : State) (p : Nat) : Nat := match s.partner p with | some i => min s.link.topo.levelCap i.level | none => s.link.topo.levelCap

/-- A lane of a port fulfils the conditions of a usable one. -/
def State.laneOk (s : State) (p n : Nat) : Bool :=
  let l := s.lane n
  l.st == .up && decide (s.now < l.identAt + 100 * uUs) &&
    match l.ident, s.partner p with
    | some i, some j => i.addr == j.addr && i.kind == j.kind && i.addr != s.dev.addr && (s.linkLevel p == 1 || bitOf i.flags 0)
    | _, _ => false

/-- A lane stops being usable; a usable SPARE takes the place of an ACTIVE one. -/
def State.laneLeaves (s : State) (p n : Nat) : State :=
  let was := (s.lane n).active
  let s1 := s.onLane n fun l => { l with usable := false }
  match was, (portLanes p).find? fun m => (s1.lane m).usable && !(s1.lane m).active && s1.laneOk p m with
  | true, some m => (s1.onLane n fun l => { l with left := some (s.now, true) }).onLane m fun l => { l with active := true }
  | true, none => s1.onLane n fun l => { l with left := some (s.now, false) }
  | false, _ => s1

/-- A lane becomes usable: SPARE where four lanes are ACTIVE, else ACTIVE. Those of one LGA cycle are handled in the order of their numbers, whichever was
reported first. -/
def State.laneJoins (s : State) (p n : Nat) : State :=
  let cyc := ceilDiv s.now uLga
  let s1 := s.onLane n fun l => { l with usable := true, active := false, joinAt := cyc }
  let new := (portLanes p).filter fun m => (s1.lane m).usable && (s1.lane m).joinAt == cyc
  let old := ((s1.active p).filter fun m => !new.contains m).length
  new.foldl (fun a m => a.onLane m fun l => { l with active := decide (old + new.idxOf m < 4) }) s1

/-- The outgoing session of a port is opened (R327): SESSION_OPEN with the port's next SEQ, TAG 0 and no ACK_REQ. DESIGN CHOICE. -/
def sessionOpenPacket (seq : Nat) : List Byte :=
  let b : List Byte := [1, 0] ++ leBytes 2 0x0003 ++ leBytes 2 0 ++ leBytes 2 4 ++ leBytes 4 deviceId ++ leBytes 4 seq ++ [1, 0, 0, 0]
  withCrc b
def State.partnerKey (s : State) (p : Nat) : Option Nat := (s.partner p).map fun i => i.addr * 8 + i.kind
def State.openSession (s : State) (p : Nat) : State :=
  ((s.sendFrame p 3 (s.partnerAddr p) s.dev.addr 0 (sessionOpenPacket (s.port p).peerSeq)).1).onPort p fun x => { x with peerSeq := (x.peerSeq + 1) % 2 ^ 32, peerTo := s.partnerKey p }

/-- An export path of the correlation plan, 0 for PCIe and 1 to 4 for the ports, goes DOWN or loses lanes while an export runs on it (R256). -/
def State.corrPathLost (s : State) (i : Nat) : State :=
  match s.plans.corr.cfg with
  | some p =>
    if s.plans.corr.finished.any fun x => match x.exp with | some e => bitOf e.paths i | none => false then
      ({ s with plans := { s.plans with corr := { s.plans.corr with run :=
          { s.plans.corr.run with pathLost := inc32 s.plans.corr.run.pathLost } } } }).fireObj p.evAlarm deviceId
    else s
  | none => s

/-- Usability and roles of a port's lanes, after anything they hang on has changed, and what follows for Thread, the session and an export. -/
def State.relane (s : State) (p : Nat) : State :=
  let ls := portLanes p
  let s1 := ls.foldl (fun a n => if (a.lane n).usable && !a.laneOk p n then a.laneLeaves p n else a) s
  let s2 := ls.foldl (fun a n => if !(a.lane n).usable && a.laneOk p n then a.laneJoins p n else a) s1
  let s3 := s2.timingMoved s p
  let s4 :=
    if !s3.portUp p then s3.onPort p fun x => { x with vec := none, pseqRx := if s.portUp p then none else x.pseqRx }
    else if !s.portUp p || (s3.port p).peerTo != s3.partnerKey p then s3.openSession p else s3
  let s5 := if (s4.active p).length < (s.active p).length then s4.corrPathLost (p + 1) else s4
  let s6 := s5.beamsFit.timeSelect
  if !s.portUp p && s6.portUp p then s6.announce p else s6

/-- A lane's state has changed: an array lane's port is bonded anew. -/
def State.laneDone (s : State) (n : Nat) : State := if 72 ≤ n then s.relane (lanePort n) else s

/-- A lane is disabled, unless it is FAULTY (R307). -/
def State.laneDisable (s : State) (n : Nat) : State :=
  if (s.lane n).st = .faulty then s else (s.laneTo n .disabled).laneDone n

/-- The lane is enabled by its group's or port's ENMASK (R331). -/
def State.laneEnabled (s : State) (n : Nat) : Bool :=
  bitOf (s.laneCfg (laneGroup n)).enmask (if n < 72 then n % 18 else (n - 72) % 5)

/-- Lanes may be enabled: a reference is qualified, every supply is good, and the device is not in ENDPAPER (R310, R403). -/
def State.lanesOn (s : State) : Bool :=
  s.dev.st != .off && s.dev.st != .endpaper && s.clk.sAt.isSome && (s.clk.qualE || s.clk.qualR || s.runs)

/-- The DISABLED lanes that are enabled start bring-up (R307, R403). -/
def State.enableLanes (s : State) : State :=
  if s.lanesOn then
    (List.range 92).foldl (fun a n => if (a.lane n).st = .disabled ∧ a.laneEnabled n then (a.train n).laneDone n else a) s
  else s

/-! ### Errors and tests (R308, R309, R527, R528) -/

/-- The object of a lane: INTAKE sub-kind 1, or ARRAYPORT sub-kind 1 (R300). -/
def laneId (n : Nat) : Nat := if n < 72 then 9 * 2 ^ 26 + 2 ^ 11 + n else 10 * 2 ^ 26 + 2 ^ 11 + (n - 72)

/-- The unit of a lane. -/
def laneUnit (n : Nat) : FUnit := unitC 4 n

/-- A lane is lasting-faulty (R309): an array lane has its port's spare; a second one, and an intake lane, cost capacity. -/
def State.laneFaulty (s : State) (n outcome flags detail : Nat) : State :=
  let s1 := (s.laneTo n .faulty).laneDone n
  let spared := decide (72 ≤ n) && !((portLanes (lanePort n)).any fun m => m != n && (s.lane m).st == .faulty)
  let s2 := s1.onSvc fun v => { v with retiredUnits := if v.retiredUnits.contains (laneUnit n) then v.retiredUnits else laneUnit n :: v.retiredUnits }
  (if spared then s2 else s2.toReduced).logFault (laneUnit n) (if outcome = 5 then 5 else if spared then 2 else 3) flags (laneId n) detail

/-- A lane has an error (R308, R527): it is logged and tested, or, where it recurs too often, lasting-faulty at once (R530). DETAIL is
1 for silence, 2 for code errors, 3 for a lane that never came up: DESIGN CHOICE. -/
def State.laneFails (s : State) (n detail : Nat) : State :=
  let s1 := s.logFault (laneUnit n) 0 0 (laneId n) detail
  if s.recurring (laneUnit n) then s1.laneFaulty n 5 0 detail else (s1.laneTo n .test).laneDone n

/-- LANE_UP: 64 valid ordered sets in a row (R307). -/
def execLaneUp (n : Fin 92) (s : State) : Host.Outcome State Fault Refusal :=
  if (s.lane n).st = .training then
    .next (((s.laneTo n .up).onLane n fun l => { l with upCount := inc32 l.upCount }).laneDone n)
  else .next s

/-- TRAINING_TIMEOUT: 2 ms in TRAINING (R307). -/
def execTrainingTimeout (n : Fin 92) (s : State) : Host.Outcome State Fault Refusal :=
  if (s.lane n).st = .training then
    let s1 := s.advanceTo ((s.lane n).since + 2 * uMs)
    .next (if (s1.lane n).passed then (s1.laneTo n .absent).laneDone n else s1.laneFails n 3)
  else .next s

/-- The errors of a lane in the last 256 slots (R308). -/
def State.laneErrs (s : State) (n : Nat) : List (Nat × Nat) := (s.lane n).errs.filter fun e => decide (s.now < e.1 + 1024 * charTime (s.laneRate n))

/-- LANE_ERROR: code and disparity errors of a slot, or silence; each error is counted, and eight of them within 256 slots, or silence, are a
lane error (R308). -/
def execLaneError (n : Fin 92) (code disp : Nat) (silent : Bool) (s : State) : Host.Outcome State Fault Refusal :=
  if (s.lane n).st = .up then
    let errs := s.laneErrs n ++ [(s.now, code + disp)]
    let s1 := s.onLane n fun l => { l with codeErr := satAdd 32 l.codeErr code, dispErr := satAdd 32 l.dispErr disp, errs := errs }
    if silent || decide (8 ≤ (errs.map (·.2)).sum) then
      .next ((s1.onLane n fun l => { l with laneErr := inc32 l.laneErr }).laneFails n (if silent then 1 else 2))
    else .next s1
  else .next s

/-- LANE_SELFTEST_DONE: the 10 ms of PRBS31 have passed with so many errors (R309). -/
def execLaneSelftestDone (n : Fin 92) (errors : Nat) (s : State) : Host.Outcome State Fault Refusal :=
  let l := s.lane n
  if l.st = .test ∧ l.cmdTest.isNone then
    let s1 := s.advanceTo (l.since + 10 * uMs)
    if errors = 0 then
      let s2 := s1.transientPass (laneUnit n) (laneId n) 0
      let s3 := if l.fromUp then s2.train n else s2.laneTo n .absent
      .next ((s3.onLane n fun x => { x with passed := true }).laneDone n)
    else .next (s1.laneFaulty n 3 0 errors)
  else .next s

/-- LANE_RETRY: RETRY_MS in ABSENT have passed (R307). -/
def execLaneRetry (n : Fin 92) (s : State) : Host.Outcome State Fault Refusal :=
  if (s.lane n).st = .absent then
    .next (((s.advanceTo ((s.lane n).since + (s.laneCfg (laneGroup n)).retryMs * uMs)).train n).laneDone n)
  else .next s

/-- LANE_TEST_END: a commanded test ends with so many errors; it changes no fault state (R334). -/
def execLaneTestEnd (n : Fin 92) (errors : Nat) (s : State) : Host.Outcome State Fault Refusal :=
  match (s.lane n).cmdTest with
  | some (t, _) =>
    let l := s.lane n
    let nbits := (t - l.since) * 10 / charTime (s.laneRate n)
    let s1 := s.advanceTo t
    .next (((s1.train n).laneDone n).resolve { kind := .laneTest, a := n.val, b := 0 } (leBytes 8 nbits ++ leBytes 8 errors))
  | none => .next s

/-! ### SKIP and IDENT (R303, R304) -/

/-- The time of a slot. -/
def slotTime (rate : Nat) : Nat := 4 * charTime rate

/-- A SKIP set goes out: on an array lane inside a bracket of its own where it interrupts a frame, or right after an open bracket has closed; anywhere
else as it is, after an IDENT, or on an intake lane between frames (R203, R303, R315). -/
def State.skipOut (s : State) (n : Nat) : State :=
  let l := s.lane n
  let ct := s.charOf n
  let now := l.charAt ct s.now
  let open' := l.pres.find? fun p => decide (p.start ≤ s.now) && decide (s.now < p.stop)
  let inside := l.frames.any fun f => f.kind == .frame && decide (f.start < s.now) && decide (s.now < l.stopOf ct f)
  if 72 ≤ n ∧ (open'.isSome ∨ inside) then
    let at' := match open' with | some p => p.stop | none => now
    (s.onTx n fun l => l.openBracket ct at' (inBracket skipSet) true none).emitLine n (l.pres.filter fun p => decide (at' ≤ p.start)).length (inBracket skipSet)
  else
    let at' := s.frameEdge n
    (s.onTx n fun l => l.frame ct .set at' skipSet).emitLine n (l.frames.filter fun f => decide (at' ≤ f.start)).length skipSet

/-- SKIP_SEND: the next SKIP of a lane is due; `adjusted` is how many SKIP sets its elastic buffer has meanwhile deleted or
repeated. -/
def execSkipSend (n : Fin 92) (adjusted : Nat) (s : State) : Host.Outcome State Fault Refusal :=
  if (s.lane n).sendsSets then
    let t := (s.lane n).skipAt + 1024 * slotTime (s.laneRate n)
    .next (((s.advanceTo t).onLane n fun l => { l with skipAt := t, skipAdj := satAdd 32 l.skipAdj adjusted }).skipOut n)
  else .next s

/-- The 15 bytes of a lane's IDENT. -/
def State.identBytes (s : State) (n : Nat) : List Byte :=
  let l := s.lane n
  let arr := decide (72 ≤ n)
  let p := lanePort n
  let fl := (if arr && s.linkLevel p == 1 then 0 else ofBool (l.st == .up)) + 2 * ofBool (arr && l.usable && l.active) +
    4 * ofBool (arr && s.timingLane p == some n)
  let b := [1] ++ leBytes 3 s.dev.addr ++ leBytes 1 (if arr then p else 4) ++ leBytes 1 (if arr then (n - 72) % 5 else n % 18) ++
    leBytes 1 s.link.topo.levelCap ++ leBytes 1 fl ++ leBytes 1 (s.laneRate n) ++ zeros 2
  withCrc b

/-- An IDENT goes out now, before the frames that wait. -/
def State.identOut (s : State) (n : Nat) : State :=
  let cs := identChars (s.identBytes n)
  let at' := (s.lane n).charAt (s.charOf n) s.now
  let later := ((s.lane n).frames.filter fun f => decide (at' ≤ f.start)).length + ((s.lane n).pres.filter fun p => decide (at' ≤ p.start)).length
  ((s.onTx n fun l => l.frame (s.charOf n) .ident at' cs).onLane n fun l => { l with identTx := at' }).emitLine n later cs

/-- The first character boundary outside a frame and a bracket at which an IDENT does not run into a launch (R304, R315, R368). -/
def State.identStart (s : State) (n : Nat) : Nat :=
  let at' := s.guarded (lanePort n) n 16 (s.frameEdge n)
  let l := s.lane n
  l.charAt (s.charOf n) (l.pres.foldl (fun (x : Nat) p => if p.start < x + 16 * s.charOf n ∧ x < p.stop then p.stop else x) at')

/-- IDENT_SEND: a lane sends its IDENT once 4,096 slots have passed and no frame or bracket is under way. -/
def execIdentSend (n : Fin 92) (s : State) : Host.Outcome State Fault Refusal :=
  if (s.lane n).sendsSets then
    let s1 := s.advanceTo ((s.lane n).identTx + 4096 * slotTime (s.laneRate n))
    .next ((s1.advanceTo (s1.identStart n)).identOut n)
  else .next s

/-- The report that 15 bytes spell. -/
def identOf (b : List Byte) : Ident :=
  { addr := u b 1 3, kind := u b 4 1, lane := u b 5 1, level := u b 6 1, flags := u b 7 1, rate := u b 8 1 }

/-- IDENT_RECEIVE: 15 bytes after K28.3 on an UP lane; intake receivers ignore them. One with a bad CRC is discarded and counted,
and so is one with IVER 0. -/
def execIdentReceive (n : Fin 92) (bytes : List Byte) (s : State) : Host.Outcome State Fault Refusal :=
  if n.val < 72 ∨ (s.lane n).st ≠ .up ∨ s.dev.st = .off then .next s
  else if bytes.length = 15 ∧ (crc32c (bytes.take 11)).toNat = u bytes 11 4 ∧ u bytes 0 1 ≠ 0 then
    .next ((s.onLane n fun l => { l with ident := some (identOf bytes), identAt := s.now }).laneDone n)
  else .next (s.onLane n fun l => { l with identBad := inc32 l.identBad })

/-- IDENT_STALE: 100 µs without an IDENT on an array lane (R324). -/
def execIdentStale (n : Fin 20) (s : State) : Host.Outcome State Fault Refusal :=
  let l := s.lane (72 + n)
  if l.ident.isSome then .next ((s.advanceTo (l.identAt + 100 * uUs)).laneDone (72 + n)) else .next s

end Sys2Proof.Machine
end

