-- ==== Sys2Proof/Machine/Readout.lean ====
section
/-! DEFINITION. Read-out (04): windows, the kernel integrator, weave, the discriminator, the delivery of results and the
covariance run. The codes of the ADC lines come with the commands; their DDC and decimated samples are formed in Converters. -/
namespace Sys2Proof.Machine

/-! ### Windows (R137 to R140) -/

/-- A window is still open at a label. -/
def Win.openAt (w : Win) (n : Nat) : Bool := decide (w.start ≤ n) && decide (n < w.endAt)

/-- The line that a source slot of the Quire holds. -/
def RoQuire.slot (r : RoQuire) (n : Nat) : Option Nat :=
  let l := if n = 0 then r.slot0 else r.slot1
  if l < 16 then some l else none

/-- The weave values that a window of Folio `f` integrates, if it integrates the weave output (R148, R525). -/
def State.weaveFor (s : State) (q f : Nat) (set : RSet) : Option Weave :=
  let w := (s.roq q).weave
  if set.weave && w.enable && bitOf w.members f && s.pers q == .control && s.clk.pinned.contains q && !bitOf (s.qb q).clost 5 then some w else none

/-- The members of a mask as they stand: the line of the slot that each one's set names, and the set (R147, R151). -/
def State.membersNow (s : State) (q mask : Nat) (msets : List Nat) : List Member :=
  ((List.range 32).filter fun j => bitOf mask j).map fun j =>
    let x := tget RSet.reset (s.demod q j).sets (lget 0 msets j)
    { folio := j, line := (s.roq q).slot x.src, set := x }

/-- A pending window opens (R138, R139); a window with WEAVE on that does not integrate the weave output because the
crossing is not pinned fires the LATE channel (R148). -/
def State.openWindow (s : State) (q f : Nat) (p : PendWin) : State :=
  let d := s.demod q f
  let set := tget RSet.reset d.sets p.rset
  let w := s.weaveFor q f set
  let r := (s.roq q).weave
  let unpinned := set.weave && r.enable && bitOf r.members f && w.isNone && !bitOf (s.qb q).clost 5
  let win : Win :=
    { set := set, rset := p.rset, start := p.start, endAt := p.start + 8 * set.len, acq := p.acq,
      line := (s.roq q).slot set.src, weave := w, mems := match w with | some k => s.membersNow q k.members k.msets | none => [], trunc := false, wcount := d.wcount, bad := false }
  let s1 := (s.onDemod q f fun d =>
    { d with wins := d.wins ++ [win], wcount := (d.wcount + 1) % 4096, winCount := inc32 d.winCount }).capOpen q f p.rset p.start
  if unpinned then s1.fireObj (s.folio q f).cfg.evLate (folioId q f) else s1

/-- WINDOW_OPEN: the oldest pending window reaches its first label (R138); a window still open decides by its OVERLAP
field (R139). -/
def execWindowOpen (q : Fin 16) (f : Fin 32) (s : State) : Host.Outcome State Fault Refusal :=
  match (s.demod q f).pend with
  | [] => .next s
  | p :: rest =>
    let s1 := (s.advanceTo (outTime p.start)).onDemod q f fun d => { d with pend := rest }
    match (s1.demod q f).wins.find? fun w => w.openAt p.start with
    | none => .next (s1.openWindow q f p)
    | some w =>
      if w.set.cut then
        let s2 := s1.onDemod q f fun d =>
          { d with ovlCut := inc32 d.ovlCut,
                   wins := d.wins.map fun x => if x = w then { x with endAt := p.start, trunc := true } else x }
        .next (s2.openWindow q f p)
      else .next (s1.onDemod q f fun d => { d with ovlDrop := inc32 d.ovlDrop })

/-! ### Arithmetic (R141, R142, R147) -/

/-- 58.32 ns, 68.56 ns, 48 ns and 32 taps of 5.12 ns in units of device time (R132, R141, R149, R152). -/
def uIntegrator : Nat := 95551488
def uResult : Nat := 112328704
def uWeave : Nat := 78643200
def uTaps : Nat := 268435456

/-- A kernel tap as the integrator fetched it: 32 taps ahead of its use (R141). -/
def RoQuire.tap (r : RoQuire) (a used : Nat) : Iq :=
  let t := used - uTaps
  match (r.kernOld.filter fun e => e.addr == a && decide (t ≤ e.time)).getLast? with
  | some e => libIq e.old
  | none => libIq (tget 0 r.kern a)

/-- One weave sample y_i of member `i` from the members' decimated samples (R147), and whether it saturated. A missing sample counts as zero. -/
def weaveSample (w : Weave) (i : Nat) (xs : List (Nat × RoSample)) : Iq × Bool :=
  let part := fun (e : Nat × RoSample) =>
    let xi := if e.2.missing then 0 else clampI (-2048) 2047 (roundDiv e.2.i 16)
    let xq := if e.2.missing then 0 else clampI (-2048) 2047 (roundDiv e.2.q 16)
    let k := tget 0 w.w (32 * i + e.1)
    let ki := toSigned 8 k
    let kq := toSigned 8 (k / 256)
    (ki * xi - kq * xq, ki * xq + kq * xi)
  let si := xs.foldl (fun a e => a + (part e).1) 0
  let sq := xs.foldl (fun a e => a + (part e).2) 0
  let yi := satQ 16 (roundDiv (si * 16) (2 ^ w.shift))
  let yq := satQ 16 (roundDiv (sq * 16) (2 ^ w.shift))
  (⟨yi.1, yq.1⟩, yi.2 || yq.2)

/-- A sample that a window integrates: its value, whether it carries an overrange flag, whether it saturated on its way (R134, R147), and whether it is
missing (R131). -/
structure Tapped where
  val : Iq
  ovr : Bool
  sat : Bool
  missing : Bool
  deriving DecidableEq, Repr

/-- The sample of a window at decimated sample `k` (R133, R147, R148): its own stream's, or the weave output, which follows the members' sets. -/
def State.tapped (s : State) (xs : List AdcIn) (f : Nat) (w : Win) (k : Nat) : Tapped :=
  match w.weave with
  | none =>
    let y := s.demodSample xs w.line w.set k
    { val := if y.1.missing then ⟨0, 0⟩ else ⟨y.1.i, y.1.q⟩, ovr := y.1.ovr, sat := y.2, missing := y.1.missing }
  | some wv =>
    let each := w.mems.map fun m => (m.folio, s.demodSample xs m.line m.set k)
    let y := weaveSample wv f (each.map fun e => (e.1, e.2.1))
    match each.find? fun e => e.1 == f with
    | some e =>
      { val := y.1, ovr := e.2.1.ovr, sat := e.2.2 || y.2, missing := e.2.1.missing }
    | none => { val := y.1, ovr := false, sat := y.2, missing := true }

/-- The samples of a window, in the order of its taps (R138). -/
def State.tappedAll (s : State) (xs : List AdcIn) (f : Nat) (w : Win) : List Tapped :=
  (List.range ((w.endAt - w.start) / 8)).map fun t => s.tapped xs f w (w.start / 8 + t)

/-- The delay from the land to the integrator (R132). -/
def Win.toIntegrator (w : Win) : Nat := uIntegrator + if w.weave.isSome then uWeave else 0

/-- The sums over a window: I, Q, SAT and SRCERR (R141). -/
def Win.integrate (r : RoQuire) (w : Win) (ys : List Tapped) : Int × Int × Bool × Bool :=
  (List.range ys.length).foldl (fun (a : Int × Int × Bool × Bool) t =>
    let y := lget { val := ⟨0, 0⟩, ovr := false, sat := false, missing := true } ys t
    let k := r.tap (w.set.kbase + t) (outTime (w.start + 8 * t) + w.toIntegrator)
    (a.1 + k.i * y.val.i - k.q * y.val.q, a.2.1 + k.i * y.val.q + k.q * y.val.i, a.2.2.1 || y.ovr || y.sat, a.2.2.2 || y.missing))
    (0, 0, false, false)

/-- The scores of the states (R142). -/
def Disc.scores (d : Disc) (u v : Int) : List Int :=
  let s0 := d.a0 * u + d.b0 * v + d.c0
  let s1 := d.a1 * u + d.b1 * v + d.c1
  let s2 := d.a2 * u + d.b2 * v + d.c2
  if d.nstates = 2 then [s0, s1] else [s0, s1, s2]

/-- The state with the highest score, the lower one on equal scores, and whether the second-highest lies within MARGIN
(R142). -/
def Disc.decide (d : Disc) (u v : Int) : Nat × Bool :=
  let sc := d.scores u v
  let best := (List.range sc.length).foldl (fun b i => if lget 0 sc b < lget 0 sc i then i else b) 0
  let top := lget 0 sc best
  let rest := (List.range sc.length).filter fun i => i != best
  let second := rest.foldl (fun m i => max m (lget 0 sc i)) (lget 0 sc (rest.headD 0))
  (best, Decidable.decide (top - second < (d.margin : Int)))

/-- A result word from its fields (R143). -/
def resultWord (st : Nat) (unc sat weaved trunc nc srcerr : Bool) (f rset wcount u v : Nat) : Nat :=
  st + 4 * ofBool unc + 8 * ofBool sat + 16 * ofBool weaved + 32 * ofBool trunc + 64 * ofBool nc + 128 * ofBool srcerr +
    f * 2 ^ 8 + rset * 2 ^ 13 + wcount * 2 ^ 16 + u * 2 ^ 28 + v * 2 ^ 46

/-- Bits [23:6] of a 24-bit value (R143). -/
def topBits (u : Int) : Nat := ofSigned 24 u / 64

/-! ### Delivery (R144 to R146) -/

/-- A record put into the queue after those of earlier cycles and of lower Folios of its cycle (R140). -/
def insRecord (x : RoRecord) : List RoRecord → List RoRecord
  | [] => [x]
  | y :: t =>
    if y.cycle < x.cycle || (y.cycle == x.cycle && decide (bits y.word 8 5 ≤ bits x.word 8 5)) then y :: insRecord x t else x :: y :: t

/-- A record for the host result stream; without a channel, or with 4,096 records waiting, it is dropped and counted. It leaves with the next cycle, so
that the records of one cycle are in ascending Folio order (R140, R146). -/
def State.roRecord (s : State) (q cycle word wstart : Nat) (ai aq : Int) : State :=
  let r := s.roq q
  if r.channel.isNone || decide (4096 ≤ r.queue.length) then s.onRo q fun r => { r with drops := r.drops + 1 }
  else
    (s.onRo q fun r =>
      { r with queue := insRecord { cycle := cycle, word := word, wstart := wstart % 2 ^ 48, ai := ai, aq := aq, drops := r.drops } r.queue,
               drops := 0 }).delay ((cycle + 1) * uCycle) (.roDrain q)

/-- A result put into a FIFO after those of earlier cycles and of lower Folios of its cycle (R140, R177). -/
def insResult (x : CRes) : List CRes → List CRes
  | [] => [x]
  | y :: t =>
    if y.cycle < x.cycle || (y.cycle == x.cycle && decide (bits y.word.toNat 8 5 ≤ bits x.word.toNat 8 5)) then
      y :: insResult x t
    else x :: y :: t

/-- A result enters the result FIFO of a core whose FMASK has the Folio's bit; of a full FIFO the newest
result is dropped, of those of one cycle that of the highest Folio (R177). -/
def State.coreResult (s : State) (q k f cycle : Nat) (word : BitVec 64) : State :=
  let c := s.core q k
  if !c.cfg.fmask.getLsbD f then s
  else if 32 ≤ c.rfifo.length then
    (s.onCore q k fun c => { c with rfifo := (insResult { cycle := cycle, word := word } c.rfifo).take 32, rfDrop := inc32 c.rfDrop }).fireObj
      c.cfg.alarm (coreId q k)
  else s.onCore q k fun c => { c with rfifo := insResult { cycle := cycle, word := word } c.rfifo }

/-- A result is delivered at an instant to the condition units, the feedback cores, the host stream and the event
channels (R144 to R146). -/
def State.deliverResult (s : State) (q f at' : Nat) (w : Win) (word : Nat) (ai aq : Int) : State :=
  let bw := BitVec.ofNat 64 word
  let s1 := s.onDemod q f fun d =>
    { d with results := ({ word := word, acq := w.acq, time := at' } :: d.results).take 8, last := word,
             satCount := if bitOf word 3 then inc32 d.satCount else d.satCount,
             srcErr := if bitOf word 7 then inc32 d.srcErr else d.srcErr }
  let s2 := if bitOf w.set.dest 0 then
      [0, 1, 2, 3].foldl (fun a k => a.coreResult q k f (cycleAt at') bw) s1
    else s1
  let s3 := if bitOf w.set.dest 1 then s2.roRecord q (cycleAt at') word w.start ai aq else s2
  let s4 := s3.onRo q fun r => { r with readouts := (r.readouts + 1) % 2 ^ 64 }
  let s5 := s4.fireObj w.set.evDone (demodId q f)
  let st := word % 4
  if st != 3 && (bitOf w.set.matchMask st || (bitOf w.set.matchMask 3 && bitOf word 2)) then
    s5.fireObj w.set.evMatch (demodId q f)
  else s5

/-- When the result of a window is delivered (R149, R152). -/
def Win.due (w : Win) : Nat := outTime w.endAt + uResult + (if w.weave.isSome then uWeave else 0)

/-- The overrange flags of the DDC samples that a window took from the lines that it reads (R299). -/
def State.countWin (s : State) (xs : List AdcIn) (w : Win) : State :=
  let lines : List Nat := match w.weave with | none => w.line.toList | some _ => w.mems.filterMap fun m => m.line
  lines.foldl (fun a n => a.countOver xs n w.start (w.endAt - w.start)) s

/-- WINDOW_END: the oldest window's result is formed from the codes of the ADC lines and delivered (R133, R134, R141 to R146). -/
def execWindowEnd (q : Fin 16) (f : Fin 32) (x : List AdcIn) (s : State) : Host.Outcome State Fault Refusal :=
  match (s.demod q f).wins with
  | [] => .next s
  | w :: rest =>
    let s1 := (s.advanceTo w.due).onDemod q f fun d => { d with wins := rest }
    let ys := s1.tappedAll x f w
    let a := w.integrate (s1.roq q) ys
    let u := satQ 24 (roundDiv a.1 (2 ^ w.set.dshift))
    let v := satQ 24 (roundDiv a.2.1 (2 ^ w.set.dshift))
    let st := w.set.disc.decide u.1 v.1
    let word := resultWord st.1 st.2 (a.2.2.1 || u.2 || v.2) w.weave.isSome w.trunc
      (s1.clk.incoherentIn (outTime w.start) (outTime w.endAt)) (a.2.2.2 || w.bad) f w.rset w.wcount (topBits u.1) (topBits v.1)
    let rec' := ys.map fun y => ({ i := y.val.i, q := y.val.q, ovr := y.ovr, missing := y.missing } : RoSample)
    .next (((s1.countWin x w).deliverResult q f w.due w word a.1 a.2.1).captureWindow q f w.rset w.start 0 rec')

/-- Some sample of a window up to an instant was missing (R131). -/
def State.windowMissing (s : State) (f : Nat) (w : Win) (t : Nat) : Bool :=
  let line := match w.weave with | none => w.line | some _ => (w.mems.find? fun m => m.folio == f).bind (·.line)
  match line with
  | some n => s.adcSilentIn n (outTime w.start) t
  | none => true

/-- A window that is cancelled (R140): a result with STATE 3. UNC, SAT, U, V and the accumulator are not stated: free values. -/
def State.cancelWin (s : State) (q f flags : Nat) (w : Win) : State :=
  let (a, s1) := s.fresh
  let (b, s2) := s1.fresh
  let (c, s3) := s2.fresh
  let word := resultWord 3 (bitOf a 0) (bitOf a 1) w.weave.isSome false
    (s.clk.incoherentIn (outTime w.start) s.now) (w.bad || s.windowMissing f w s.now) f w.rset w.wcount (bits a 3 18) (bits a 21 18)
  let (xs, s4) := s3.freshSamples ((min (sampleOf s.now + 1) w.endAt - w.start) / 8)
  ((s4.onDemod q f fun d => { d with cancel := inc32 d.cancel }).deliverResult q f s.now w word (toSigned 48 b)
    (toSigned 48 c)).captureWindow q f w.rset w.start (256 + flags) xs

/-- The windows of a Quire that are open are cancelled, those that are pending are withdrawn (R140); `flags` are those that the cause gives a capture's segment
(R430). -/
def State.cancelWindows (s : State) (q flags : Nat) : State :=
  (List.range 32).foldl (fun a f =>
    let d := a.demod q f
    let n := sampleOf a.now
    let gone := d.wins.filter fun w => decide (n < w.endAt)
    let a1 := a.onDemod q f fun d => { d with pend := [], wins := d.wins.filter fun w => !decide (n < w.endAt) }
    gone.foldl (fun b w => b.cancelWin q f flags w) a1) s

/-! ### The covariance run (R151) -/

/-- A decimated sample rounded to 8+8 bits. -/
def round8 (x : Iq) : Iq := ⟨clampI (-128) 127 (roundDiv x.i 256), clampI (-128) 127 (roundDiv x.q 256)⟩

/-- One 64-bit sum after another term. -/
def wrap64 (i : Int) : Int := toSigned 64 (ofSigned 64 i)

/-- The covariance sums over the members' samples, keyed 32 i + j; each row holds the members' samples in ascending order. -/
def covarSums (ms : List Nat) (xs : List (List Iq)) : List (Nat × (Int × Int)) :=
  ms.flatMap fun i => ms.map fun j =>
    (32 * i + j, xs.foldl (fun (a : Int × Int) row =>
      let x := round8 (lget ⟨0, 0⟩ row (ms.idxOf i))
      let y := round8 (lget ⟨0, 0⟩ row (ms.idxOf j))
      (wrap64 (a.1 + x.i * y.i + x.q * y.q), wrap64 (a.2 + x.q * y.i - x.i * y.q))) (0, 0))

/-- The members' decimated streams over a covariance run, each under its set (R147, R151); a missing sample is zero. -/
def State.covarRows (s : State) (xs : List AdcIn) (c : Covar) : List (List Iq) :=
  (List.range c.nsamp).map fun k => c.mems.map fun m =>
    let y := (s.demodSample xs m.line m.set (c.start / 8 + k)).1
    if y.missing then ⟨0, 0⟩ else ⟨y.i, y.q⟩

/-- COVAR_DONE: the last sample is accumulated (R151). -/
def execCovarDone (q : Fin 16) (x : List AdcIn) (s : State) : Host.Outcome State Fault Refusal :=
  match (s.roq q).covar with
  | none => .next s
  | some c =>
    let s1 := s.advanceTo (outTime (c.start + 8 * c.nsamp))
    let sums := (covarSums (c.mems.map (·.folio)) (s1.covarRows x c)).foldl (fun t e => tput (0, 0) t e.1 e.2) []
    let s2 := (c.mems.filterMap fun m => m.line).foldl (fun a n => a.countOver x n c.start (8 * c.nsamp)) s1
    .next ((s2.onRo q fun r => { r with covar := none, cov := sums }).resolve (wait .covar (quireId q) 0) [])

/-- A covariance run is lost to a forced release or a time step (R151). -/
def State.covarLost (s : State) (q : Nat) : State :=
  if (s.roq q).covar.isSome then
    (s.onRo q fun r => { r with covar := none }).timeoutWait (wait .covar (quireId q) 0)
  else s

end Sys2Proof.Machine
end

