-- ==== Sys2Proof/Machine/Lifecycle.lean ====
section
/-! DEFINITION. The device as a whole: the ENDPAPER subset, how a waiting command is rolled back, and entering and leaving ENDPAPER
(R29 to R31, R402, R538, R539, R592). -/
namespace Sys2Proof.Machine

/-! ### The ENDPAPER subset (R29) -/

/-- The opcodes whose chapters mark them EP, but for the image opcodes, which are EP on the firmware slots only (R74). -/
def epCodes : List Nat :=
  [0x0000, 0x0001, 0x0002, 0x0003, 0x0004, 0x0007, 0x0009, 0x000A, 0x000B, 0x0100, 0x0702, 0x0704, 0x0709, 0x0801, 0x0806, 0x0808, 0x0900,
   0x0902, 0x0903, 0x0904, 0x0906, 0x0907, 0x0A00, 0x0A01, 0x0A02, 0x0A03, 0x0A06, 0x0A08, 0x0A09, 0x0B07, 0x0C09, 0x0D00, 0x0D01, 0x0D05,
   0x0D06, 0x0E01, 0x0E03, 0x0E04, 0x0E05, 0x0E07, 0x0E08, 0x0E09, 0x0F01, 0x0F05, 0x0F06, 0x1000, 0x1001, 0x1002, 0x1007, 0x1008]

/-- A packet's opcode is in the ENDPAPER subset. -/
def Pkt.isEp (p : Pkt) : Bool :=
  epCodes.contains p.code || p.code / 256 == 0x11 || (decide (0x0101 ≤ p.code) && decide (p.code ≤ 0x0103) && decide (p.req.object.toNat ≤ imageId 1) && decide (imageId 0 ≤ p.req.object.toNat))

/-! ### Rolling back (R54, R55, R72) -/

/-- The fields of an object ID. -/
def idQ (id : Nat) : Nat := bits id 20 6
def idF (id : Nat) : Nat := bits id 14 6
def idX (id : Nat) : Nat := bits id 0 11

/-- What a command that ends before its conditions have come about had prepared is withdrawn. An IMAGE_COMMIT that ends so, by CMD_ABORT too, leaves its
slot erased, invalid and closed, as R76 has it of every failure, where R72 by itself would have an aborted command change nothing. DESIGN CHOICE. -/
def State.rollback (s : State) (w : Wait) : State :=
  match w.kind with
  | .persChange => s.onQb w.a fun b => { b with pendPers := none, pendSlot := none, pendLost := false }
  | .imageBegin | .imageCommit => s.onImg w.a ImgSlot.failed
  | .configApply => s.onQb w.a fun b => { b with pendConfig := none }
  | .seqRing => s.onFolio (idQ w.a) (idF w.a) fun fo => { fo with ringPend := none }
  | .roRoute => s.onRo (idQ w.a) fun r => { r with pendRoute := none }
  | .weave => s.onRo (idQ w.a) fun r => { r with weavePend := none }
  | .covar => s.onRo (idQ w.a) fun r => { r with covar := none }
  | .fbSwap => s.onCore (idQ w.a) (idX w.a) fun c => { c with swap := none }
  | .ct => s.onCt fun t => { t with pend := none }
  | .corrStart => s.onCorrRun fun r => { r with st := .idle }
  | .corrStop => (s.onCorr fun c => { c with stop := none }).onCorrRun fun r => { r with st := if r.st = .stopping then .running else r.st }
  | .corrExport => s.onCorr fun c => { c with expPend := none }
  | .beamStart => s.onBeamRun fun r => { r with st := .idle }
  | .beamStop => (s.onBeam fun c => { c with stop := false }).onBeamRun fun r => { r with st := if r.st = .stopping then .running else r.st }
  | .beamExport => s.onBeam fun c => { c with expPend := none }
  | .beamCommit => s.onBeam fun c => { c with bankPend := none }
  | .adcLine => s.onAdc w.a fun a => { a with pend := none }
  | .unmute => { s with delayed := s.delayed.filter fun d => match d.eff with | .unmute _ | .unmuteEnd _ => false | _ => true }
  | .laneSwap => { s with delayed := s.delayed.filter fun d => d.eff != .laneSwap w.a }
  | .laneTest => if (s.lane w.a).cmdTest.isSome then (s.train w.a).laneDone w.a else s
  | .peerCmd => s.onPort w.a fun p => { p with peers := p.peers.filter fun x => x.id != w.b }
  | .timeStep => s.onTmu fun t => { t with step := none }
  | .freqMeter => s.onClk fun c => { c with meter := none }
  | .capArm => s.onCapU (idX w.a) fun x => { x with nsegPend := none, nsegOld := none, cfg := x.cfg.map fun c => { c with nseg := x.nsegOld.getD c.nseg } }
  | .capTrig => s.onCapU (idX w.a) fun x => { x with trigPend := none }
  | .tinCal => s.onCap fun c => { c with lines := c.lines.map fun e => if (e.2.calBy.map (·.1)) = some w.a then (e.1, { e.2 with calBy := none }) else e }
  | .biasRange => s.onBch (idX w.a) fun c => { c with sw := match c.sw with
    | some w => match w.step with | .wait _ | .zero => none | _ => some w
    | none => none }
  | .biasCal => (s.onBch w.a fun c => { c with cal := false }).onBsc fun b =>
      { b with calRuns := b.calRuns.filter fun r => r.n != w.a, injs := b.injs.filter fun i => i.who != .bias w.a }
  | .monInject => s.onBsc fun b => { b with injs := b.injs.filter fun i => !(i.who == .cmd && i.ch == w.a) }
  | .monSyscal => s.onBsc fun b => { b with injs := b.injs.filter fun i => !(i.ch == w.a && match i.who with | .syscal .. => true | _ => false) }
  | .monSeq => s.onBsc fun b => { b with seq := { b.seq with swap := false } }
  | .selftest | .readmit => s.onSvc fun v => { v with tests := v.tests.filter fun t => !(t.unit.kind == w.a && t.unit.phys == w.b && (t.why == .selftest || t.why == .readmit)) }
  | .migrate => match s.svc.migration with
    | some m => if m.why = .command then (s.onSvc fun v => { v with migration := none }).onQb w.a fun b => { b with busy := false } else s
    | none => s
  | .retire =>
    let s1 := s.onSvc fun v => { v with moves := v.moves.filter fun m => !(m.unit == { kind := w.a, phys := w.b } && m.verdict.isSome) }
    match s.svc.migration with
    | some m => if m.why = .retire then (s1.onSvc fun v => { v with migration := none }).onQb m.q fun b => { b with busy := false } else s1
    | none => s1
  | .memAlloc => s.onSvc fun v => { v with regions := terase v.regions w.a }
  | .fwActivate => s.onSvc fun v => { v with handover := .idle }
  | _ => s

/-- A command one of whose conditions turns out to be impossible ends, and everything that it had prepared is withdrawn. -/
def State.failWhole (s : State) (w : Wait) (e : Err) : State :=
  match s.heldOn w with
  | none => s.rollback w
  | some h => (h.waits.foldl (fun a w => a.rollback w) s).finish h e.status (e.named h.pkt.wild w.object).result

/-- A waiting command ends without its effect; that of a wildcard names the first object that still waits (R49). -/
def State.withdraw (s : State) (h : Held) (e : Err) : State :=
  (h.waits.foldl (fun a w => a.rollback w) s).finish h e.status (e.named h.pkt.wild ((h.waits.head?.map Wait.object).getD 0)).result

/-- The packets of a TIMED entry end: those that `hit` names with their own status, the others with CHAIN_ABORTED (R31, R47). -/
def State.endTimed (s : State) (t : Timed) (hit : Pkt → Bool) (e : Err) : State :=
  t.pkts.foldl (fun a p => a.replyErr p false (a.naming p (if hit p then e else err Status.chainAborted 0))) s

/-! ### Leaving a personality -/

/-- The capture units whose source is a demodulator of a Quire. -/
def State.demodUnits (s : State) (q : Nat) : List Nat :=
  (List.range 16).filter fun n => match (s.capU n).cfg with | some c => c.skind == 2 && c.quire == q | none => false

/-- A Quire leaves CONTROL (R27, R106, R140, R176, R430): its windows are cancelled, its Folios, whatever they do, halt with cause 7, its cores with cause 3,
and the capture units on its demodulators stop with `capCause`. -/
def State.leaveControl (s : State) (q capCause : Nat) : State :=
  let s1 := s.cancelWindows q 0
  let s2 := (List.range 32).foldl (fun a f => a.haltNow q f 7) s1
  ((s2.haltCores q 3).capStopAll (s.demodUnits q) capCause).onClk fun c => { c with pinned := c.pinned.filter fun x => x != q }

/-! ### ENDPAPER (R31, R538) -/

/-- Every command in flight outside the subset ends with E_STATE (R31). -/
def State.endNonEp (s : State) : State :=
  let s1 := (s.dev.held.filter fun h => !h.pkt.isEp).foldl (fun a h => a.withdraw h (eState a)) s
  let out := s1.dev.timed.filter fun t => t.pkts.any fun p => !p.isEp
  (out.foldl (fun a t => a.endTimed t (fun p => !p.isEp) (eState a)) s1).onDev fun d =>
    { d with timed := d.timed.filter fun t => !(t.pkts.any fun p => !p.isEp) }

/-- A plan stops at once, and its integrations are discarded. -/
def State.corrOff (s : State) : State :=
  s.onCorr fun c => { c with run := { c.run with st := .idle }, cur := [], finished := [], expPend := none, stop := none }
def State.beamOff (s : State) : State :=
  s.onBeam fun b => { b with run := { b.run with st := .idle }, expPend := none, bankPend := none, stop := false, last := none }

/-- Every plan is stopped. -/
def State.plansOff (s : State) : State := s.corrOff.beamOff.onCt fun t => { t with recs := [], pend := none }

/-- Every DMA channel that is at work ends with code 6, and its stream is unbound (R66). -/
def State.dmaOff (s : State) : State :=
  let s1 := (List.range 16).foldl (fun a n => if (a.dmaCh n).busy then (a.dmaFail n 6).onDma n fun d => { d with stream := none } else a) s
  let s2 := { s1 with ro := s1.ro.map fun (e : Nat × RoQuire) => (e.1, { e.2 with channel := none, queue := [] }) }
  (s2.onCorr fun c => { c with exp := c.exp.filter fun e => e.dma == 0xFF }).onLink fun l =>
    { l with binds := l.binds.map fun (b : BulkBind) => if b.kind = 2 then { b with kind := 0, dma := 0xFF } else b }

/-- The Folios of the Quires that are not in CONTROL halt, too (R113); one that nothing has touched since its reset stays as it is, which no command can
tell from HALTED before the Quire enters CONTROL, and CONTROL begins with IDLE (R27). -/
def State.foliosOff (s : State) : State :=
  let c := sampleAt s.now + lOut
  let off := fun (e : Nat × SynQuire) => if s.pers e.1 == .control then e else (e.1, { e.2 with folios := e.2.folios.map fun x => (x.1, x.2.haltIssue c 7) })
  { s with syn := { s.syn with quires := s.syn.quires.map off } }

/-- Every Quire goes OFF and keeps its binding (R31); a migration and any rebinding are abandoned (R529, R543). -/
def State.quiresOff (s : State) : State :=
  let s1 := (List.range 16).foldl (fun a q => if a.pers q = .control then a.leaveControl q 5 else a) s.foliosOff
  let s2 := (List.range 16).foldl (fun a q => a.onQb q fun b =>
    { b with pers := .off, busy := false, ctrl := none, pendPers := none, pendSlot := none, pendConfig := none, stopped := false, capOnce := false, pendLost := false }) s1
  (s2.onSvc fun v => { v with migration := none, tests := [], moves := [] }).onClk fun c => { c with pinned := [] }

/-- The device enters ENDPAPER for a cause (R30, R31, R538, R592). Of several causes in one Endpaper cycle the one with the lowest KIND is
recorded. -/
def State.toEndpaper (s : State) (kind detail reason : Nat) : State :=
  if s.dev.st == .off then s
  else
    let c : Cause := { kind := kind, detail := detail, reason := reason }
    let rec' := fun (a : State) => a.onDev fun d => { d with cause := c, causeAt := a.now }
    if s.dev.st == .endpaper then
      if s.sameCycle s.dev.causeAt s.now ∧ (kind < s.dev.cause.kind ∨ (kind = 1 ∧ s.dev.cause.kind = 1 ∧ detail < s.dev.cause.detail)) then rec' s else s
    else
      let s1 := ((((rec' s).setDevSt .endpaper).setCauses allDacs mEndpaper false).noncoh).onRf fun r => r.fall 32 s.now
      let s2 := s1.onBsc fun b => { b with chs := (List.range 64).foldl (fun t n => tmod .reset t n fun x =>
        if x.st = .clamped ∨ x.st = .nosafe ∨ x.st = .retired then x else x.enterEp b n) b.chs }
      let s3 := ((List.range 16).foldl (fun a q => if a.hifUp then a.roPush q 4096 else a) (s2.endNonEp.quiresOff.plansOff.capStopAll (List.range 16) 5)).dmaOff
      let s4 := (s3.onCap fun c => { c with engs := c.engs.map fun e => (e.1, { e.2 with running := false, open' := none }) }).onEv fun e =>
        { e with flights := [], outq := [], acted := [] }
      let s5 := { s4 with ro := s4.ro.map fun (e : Nat × RoQuire) => (e.1, { e.2 with weave := .reset, weavePend := none, weaveBank := .reset, covar := none }) }
      let s6 := (List.range 92).foldl (fun a n => a.laneDisable n) s5
      let s7 := (s6.onLink fun l => { l with trigs := l.trigs.map fun (t : Trig) => if t.mode = 1 then { t with mode := 2 } else t }).timeStop
      (s7.onRf fun r => { r with dacs := allDacs.foldl (fun t n => tmod .reset t n fun d => { d with opened := true, zero := true }) r.dacs }).raisePoints

/-! ### BOOT -/

/-- The voltage window and the other live fields of every channel are loaded from the safe-code image again (R465, R466). -/
def State.reloadSafety (s : State) : State :=
  s.onBsc fun b => { b with bclrFilter := s.safeFilter, chs := (List.range 64).foldl (fun t n => tmod .reset t n fun x =>
    match s.safeEntry n with | some e => if x.st = .clamped ∨ x.st = .nosafe then x else { x with live := e } | none => x) b.chs }

/-- Every entry to BOOT: the event tables, the configuration record and the debug flags start anew (R496, R570, R571); the bias outputs
leave the ENDPAPER policy and keep what they put out (R402, R468), and clamped ones may ramp up (R466). -/
def State.toBoot (s : State) : State :=
  let s1 := ((s.setDevSt .boot).clearCauses allDacs mEndpaper).noncoh.onTrust fun t =>
    { t with record := zeros 48, applyLog := [], applyOvf := false, dbg1 := decide (1 ≤ t.dbg), dbg2 := decide (2 ≤ t.dbg) }
  let s2 := ((s1.onRf fun r => r.rise 32 s.now).onBsc fun b => { b with mayRamp := true, chs := b.chs.map fun e => (e.1, e.2.leaveEp b e.1) }).onEv fun _ => .reset
  let table := s2.newest 0x082
  ((List.range 92).foldl (fun a n => a.loadEq table n) s2).reloadSafety.enableLanes.raisePoints

/-- SYS_RST_N resets every island but EPI, TMU and BSC (R402), and the mute causes that last set in again (R280): the ports and transports, synthesis, read-out, feedback, intake and plans, the
lanes and ports, the converter lines, capture and the service functions. RWS fields, device time, Thread's settings, the TRIG pins that are inputs and the interval
meter (TMU's), the bias outputs, the flash, ownership and the fault log are kept. -/
def State.resetIslands (s : State) : State :=
  let d := s.dev
  let d' := { Dev.reset with st := d.st, cause := d.cause, causeAt := d.causeAt, addr := d.addr, priv := d.priv, faultOut := d.faultOut, perst := d.perst, rst := d.rst, bootAt := s.now,
                             images := d.images.map fun e => (e.1, { e.2 with opened := none, begun := false }), imgAge := d.imgAge,
                             fwActive := d.fwActive, fwRunning := d.fwRunning, smbus := { Smbus.reset with addr := d.smbus.addr } }
  let l := s.link
  let stay := fun (e : Nat × LaneSt) => if e.2.st = .faulty then LState.faulty else (LaneSt.reset e.1).st
  let keep := fun (e : Nat × LaneSt) => (e.1, { LaneSt.reset e.1 with txBits := (e.2.accrue (s.laneRate e.1) s.now).txBits, txBase := (e.2.accrue (s.laneRate e.1) s.now).txBits, txFrom := s.now, rd := e.2.dispAt (s.charOf e.1) s.now, rdAt := s.now, since := s.now, st := stay e })
  let l' := { Link.reset with lanes := l.lanes.map keep, tmu := l.tmu, trigs := l.trigs.map fun t => if t.mode = 0 then t else .reset, ports := l.ports.map fun p => { LinkPort.reset with asym := p.asym, mseq := p.mseq } }
  let v := s.svc
  let spare := (List.range 17).find? fun p => decide (16 ≤ p) && !v.retired.contains p
  let v' := { v with spq := spare, spare2 := [], tests := [], moves := [], migration := none, handover := .idle, regions := [], dram := [] }
  let s1 : State := { s with
    dev := d', svc := v', syn := { Syn.reset with formed := max s.syn.formed (s.now / uSample) }, ro := [], fb := [], plans := .reset, link := l',
    rf := { s.rf with dacs := [], adcs := [] }, cap := { s.cap with units := [] },
    delayed := s.delayed.filter fun d => match d.eff with | .mutePin _ => true | _ => false,
    clk := { s.clk with pinned := [], modes := [], meter := none },
    trust := { s.trust with dbg := 0, nonces := [] } }
  let s2 := s.rf.hot.foldl (fun (a : State) c => a.setCauses (chipDacs c) mTherm true) s1
  let s3 := s.rf.out.foldl (fun (a : State) c => a.setCauses (chipDacs c) mLink true) s2
  (if s.rf.pin then s3.setCauses allDacs mPin s.rf.latch else s3).toBoot.timeSelect

/-- The reset, and vector 24 where it has changed DEVSTAT (R57). -/
def State.sysReset (s : State) : State := s.noting State.resetIslands

/-- The host interface is reset: its rings, window, DMA channels, MSI-X table and mailbox, the streams of HOST, and the FAST commands it keeps.
What HOST commands are running goes on. -/
def State.hifReset (s : State) : State :=
  let s1 := (List.range 16).foldl (fun (a : State) n => a.dmaUnbind n) (s.corrPathLost 0)
  let s2 := { s1 with ro := s1.ro.map fun (e : Nat × RoQuire) => (e.1, { e.2 with channel := none, queue := [] }) }
  let s3 := ((s2.onCorr Corr.noHost).onBeam Beam.noHost).onLink fun l =>
    { l with binds := l.binds.map fun (b : BulkBind) => if b.kind = 2 then { b with kind := 0, dma := 0xFF } else b }
  s3.onDev fun d =>
    { d with rings := Dev.reset.rings, winRegion := 0, winEn := false, winErr := false, winBase := 0, dma := [], msix := [], msixPend := [], mbox := .reset,
             streams := d.streams.map fun e => if e.1 < 16 then (e.1, { e.2 with expect := 0, last := none, stored := none, chain := [] }) else e,
             timed := d.timed.filter fun t => !(t.fast && t.pkts.any fun p => bits p.req.object.toNat 26 6 == 0),
             paused := d.paused.filter fun p => p.1.req.src.port != 0 }

/-- Every safety cause has cleared (R30, R589). -/
def State.safetyClear (s : State) : Bool :=
  s.clk.good == 2047 && !s.clk.vbias && s.clk.temps.all (fun t => decide (t ≤ 100000)) && !s.clk.bscFault &&
    !(s.clk.cfg.stop && s.clk.everCoh && !s.clk.coherent && !(s.clk.cfg.erefEn && s.clk.qualE)) &&
    !(s.bsc.mons.any fun e => e.2.action == 3 && (e.2.isLo || e.2.isHi)) && ((s.newest 0).isSome || (s.newest 1).isSome)

end Sys2Proof.Machine
end

