-- ==== Sys2Proof/Machine/SvcBase.lean ====
section
/-! DEFINITION. Units and spares (16, R20, R528, R532 to R534): the identity of a unit, the maps of Folios and columns, the binding of a
logical Quire, and what stops with a Quire that has lost its unit. -/
namespace Sys2Proof.Machine

/-! ### The identity of a unit (R528) -/

def FUnit.pq (x : FUnit) : Nat := bits x.phys 0 5
def FUnit.a (x : FUnit) : Nat := bits x.phys 5 6
def FUnit.b (x : FUnit) : Nat := bits x.phys 11 6
def FUnit.c (x : FUnit) : Nat := bits x.phys 17 7

/-- A PHYS from its fields. -/
def physOf (pq a b c : Nat) : Nat := pq + a * 2 ^ 5 + b * 2 ^ 11 + c * 2 ^ 17

/-- PHYS is laid out as the kind has it (R528): every field is in its range, and the fields that the kind does not use are 0. -/
def FUnit.ok (x : FUnit) : Bool :=
  let quire := decide (x.pq ≤ 16)
  let none' := x.pq == 31
  let only := fun (a b c : Bool) => (a || x.a == 0) && (b || x.b == 0) && (c || x.c == 0)
  decide (x.phys < 2 ^ 24) &&
  (match x.kind with
  | 1 => quire && only true false false
  | 2 => none' && decide (x.a ≤ 2) && only true true false
  | 3 => none' && decide (x.a ≤ 1) && decide (x.b ≤ 31) && only true true false
  | 4 => none' && decide (x.c ≤ 91) && only false false true
  | 5 => quire && decide (x.a ≤ 5) && decide (x.b ≤ 32) && only true true false
  | 6 => quire && decide (x.a ≤ 32) && only true false false
  | 7 => quire && decide (x.a ≤ 3) && only true false false
  | 8 => (if quire then x.a == 16 || x.a == 17 else none' && decide (x.a ≤ 15)) && only true false false
  | 9 => quire && only false false false
  | 10 => none' && decide (x.c ≤ 39) && only false false true
  | 11 => none' && decide (x.c ≤ 15) && only false false true
  | 12 => none' && decide (x.c ≤ 63) && only false false true
  | 13 => none' && decide (x.a ≤ 3) && only true false false
  | _ => false)

/-- The unit lies in a physical Quire. -/
def FUnit.inQuire (x : FUnit) : Bool := x.pq != 31

/-- How long the targeted self-test of a unit takes (R290, R309, R393, R528); 16 injected read-backs of a bias channel take as long as the
monitor needs for them, which its own rows tell. -/
def FUnit.testTime (x : FUnit) : Nat :=
  match x.kind with
  | 1 | 2 | 7 => uMs
  | 3 | 13 => 2 * uMs
  | 4 => 10 * uMs
  | 5 => 500 * uUs
  | 6 => 200 * uUs
  | 8 => 1024 * uTick
  | 9 => 200 * uMs
  | 10 => 100 * uUs
  | 11 => 24 * uUs
  | _ => 0

/-! ### Shift maps (R20, R532, R533) -/

/-- The unit left out of a map after its lasting-faulty units have become `mask`: the one left out before where it is one of them, else
the lowest; 32 where there is none. -/
def holeOf (cur mask : Nat) : Nat :=
  if bitOf mask cur then cur else ((List.range 33).find? fun n => bitOf mask n).getD 32

/-- The logical unit that a physical one holds under a map, if it holds one. -/
def logicalOf (hole p : Nat) : Option Nat := if p < hole then some p else if p = hole then none else some (p - 1)

/-- The logical units without a unit in service. -/
def lostOf (hole mask : Nat) : List Nat :=
  (List.range 33).filterMap fun p => if bitOf mask p then logicalOf hole p else none

/-- The spare of a map is free. -/
def spareFree (hole mask : Nat) : Bool := hole == 32 && !bitOf mask 32

/-- The state with a physical Quire's spares changed. -/
def State.onPhys (s : State) (p : Nat) (g : PhysQuire → PhysQuire) : State :=
  s.onSvc fun v => { v with phys := tmod .reset v.phys p g }

/-- The binding of a logical Quire to a physical one, with the maps and the losses that this brings (R18, R20). -/
def QBind.to' (b : QBind) (p : Nat) (x : PhysQuire) : QBind :=
  let h := holeOf 32 x.fbad
  { b with pq := p, fhole := h, lostFolios := lostOf h x.fbad, flost := !(lostOf h x.fbad).isEmpty,
           cspared := (List.range 6).foldl (fun m a => if lget 32 x.xcol a = 32 then m else m + 2 ^ a) 0, clost := x.alost, busy := false,
           stopped := false }

/-- Both plans deal their units anew at the next block boundary (R265). -/
def State.redeal (s : State) : State := (s.onCorr fun c => { c with redo := true }).onBeam fun b => { b with redo := true }

/-- An array of a plan has faulted: the integration in progress carries FAULT (R256, R265). -/
def State.planFault (s : State) : State :=
  s.onCorr fun c => { c with cur := c.cur.map fun x => if x.first < s.ct.nextB ∧ s.ct.nextB ≤ x.last then { x with flags := x.flags ||| 8 } else x }

/-- An array of a Quire has faulted: that touches the integration only where the Quire is a member of the correlation plan. -/
def State.planFaultOf (s : State) (q : Nat) : State :=
  if s.plans.corr.run.active && s.plans.corr.run.members.contains q then s.planFault else s

/-- The Quire is a member of the correlation plan. -/
def State.inCorr (s : State) (p : Nat) : Bool :=
  match s.boundTo p with
  | some q => s.plans.corr.run.active && s.plans.corr.run.members.contains q
  | none => false

/-- Capacity of a Quire is lost: a personality change that is pending has to ask whether it still carries its load (R28). -/
def State.notePend (s : State) (q : Nat) : State := s.onQb q fun b => { b with pendLost := b.pendLost || b.pendPers.isSome }

/-- What is left of a Quire cannot carry the load that is configured for a personality (R28): in CONTROL a logical Folio has no unit, or array 5 is lost
with weave enabled; in CORRELATE and BEAMFORM no array is left. DESIGN CHOICE. -/
def State.cannotCarry (s : State) (q : Nat) (x : Pers) : Bool :=
  let b := s.qb q
  match x with
  | .control => !b.lostFolios.isEmpty || (s.weaves q && bitOf b.clost 5)
  | .correlate | .beamform => b.clost == 63
  | _ => false

/-- The capacity of a logical Quire has changed: plans are redealt, and the next command of a Quire that lost some in CONTROL with weave, or
whose personality has no unit left, gets E_CAPACITY (R265, R523, R525). -/
def State.capacityLost (s : State) (q : Nat) : State :=
  if s.pers q = .control then s.onQb q fun b => { b with capOnce := true } else (s.planFaultOf q).redeal

/-- The map of Folios after FBAD has changed. -/
def State.syncFolios (s : State) (p : Nat) : State :=
  match s.boundTo p with
  | none => s
  | some q =>
    let m := (s.physQ p).fbad
    s.onQb q fun b =>
      let h := holeOf b.fhole m
      { b with fhole := h, lostFolios := lostOf h m, flost := !(lostOf h m).isEmpty }

/-- The maps of columns after the lasting-faulty columns of array `a` have changed: the excluded one, CSPARED and CLOST. -/
def State.syncArray (s : State) (p a : Nat) : State :=
  let x := s.physQ p
  let m := lget 0 x.cbad a
  let h := holeOf (lget 32 x.xcol a) m
  let lost := !(lostOf h m).isEmpty
  let s1 := s.onPhys p fun x => { x with xcol := lput x.xcol a h, alost := setBit x.alost a lost }
  match s1.boundTo p with
  | none => s1
  | some q => s1.onQb q fun b => { b with cspared := setBit b.cspared a (h != 32), clost := setBit b.clost a lost }

/-! ### A Quire without a unit (R21, R532) -/

/-- Endpaper itself has changed a Quire: it ranks before every port, so that commands for it in the same cycle get E_BUSY (R52). -/
def State.selfClaim (s : State) (q : Nat) : State :=
  s.onDev fun d => { d with claimsAt := s.now, claims := (quireId q, 0xFF) :: if s.sameCycle d.claimsAt s.now then d.claims else [] }

/-- A logical Quire's work stops (R532): what runs in CONTROL halts as on leaving it, a plan loses the member's arrays, and every command to
the Quire gets E_CAPACITY until a unit is readmitted. -/
def State.stopQuire (s : State) (q : Nat) : State :=
  let s1 := if s.pers q = .control then s.leaveControl q 6 else if s.inPlan q then (s.planFaultOf q).redeal else s
  (s1.selfClaim q).onQb q fun b => { b with stopped := true }

/-- The physical Quires that can become the spare: SPARE2 becomes SPARE where there is none (R535). DEDUCED. -/
def State.fillSpare (s : State) : State :=
  match s.svc.spq, s.svc.spare2 with
  | none, p :: rest => s.onSvc fun v => { v with spq := some p, spare2 := rest }
  | _, _ => s

/-- A physical Quire that is good and bound to none: it serves the lowest logical Quire that has none, else it becomes SPARE, or SPARE2
where there is one (R532, R535). -/
def State.giveQuire (s : State) (p : Nat) : State :=
  match (List.range 16).find? fun q => s.pq q == 31 with
  | some q => (((s.selfClaim q).onQb q fun b => b.to' p (s.physQ p)).redeal).raisePoints
  | none =>
    if s.svc.spq.isNone then s.onSvc fun v => { v with spq := some p } else s.onSvc fun v => { v with spare2 := v.spare2 ++ [p] }

/-- A bound physical Quire goes out of service: its logical Quire becomes unbound, or is bound to a spare. -/
def State.unbind (s : State) (q : Nat) : State := (s.selfClaim q).onQb q fun b => { b with pq := 31, busy := false, stopped := true }

/-- A physical Quire is retired (QSTAT). -/
def State.retireQuire (s : State) (p : Nat) : State :=
  s.onSvc fun v => { v with retired := if v.retired.contains p then v.retired else p :: v.retired,
                            spare2 := v.spare2.filter fun x => x != p, spq := if v.spq = some p then none else v.spq }

/-! ### Full capacity (R30, R535) -/

/-- A retired unit has been spared: an array lane, where it is its port's only one (R324). -/
def State.laneSpared (s : State) (x : FUnit) : Bool :=
  x.kind == 4 && decide (72 ≤ x.c) &&
    (s.svc.retiredUnits.filter fun y => y.kind == 4 && decide (72 ≤ y.c) && (y.c - 72) / 5 == (x.c - 72) / 5).length == 1

/-- No capacity is lost (R30, R534): every logical Quire is bound with its Folios and columns, and no line, lane, chiplet, bank or page is retired. -/
def State.fullCapacity (s : State) : Bool :=
  (s.svc.retiredUnits.all fun x => s.laneSpared x) && decide (s.svc.dramRetired = 0) && s.rf.out.isEmpty && (s.bsc.chs.all fun e => e.2.st != .nosafe) &&
    (List.range 16).all fun q => let b := s.qb q; b.pq != 31 && !b.flost && b.clost == 0 && !b.stopped

/-- No retired unit remains and every logical Quire is bound with full capacity. -/
def State.whole (s : State) : Bool := s.svc.retired.isEmpty && s.fullCapacity

/-- A device in REDUCED with its full capacity returns to RUN (R30). -/
def State.backToRun (s : State) : State := if s.dev.st = .reduced ∧ s.whole then s.setDevSt .run else s

end Sys2Proof.Machine
end

