-- ==== Sys2Proof/Machine/Monitor.lean ====
section
/-! DEFINITION. The monitor converter and the calibration controller (13, R469 to R481, R488 to R495): system and host slots,
injections, the host sequence, limits, corrections and the opcodes 0x0D07 and 0x0E00 to 0x0E09. -/
namespace Sys2Proof.Machine

namespace Status
def monInjFull : Nat := 0x10E0
def monCalDisagree : Nat := 0x10E1
def calSuspended : Nat := 0x10E2
def monNotExternal : Nat := 0x10E3
end Status

def State.mon (s : State) (n : Nat) : MonCh := tget .reset s.bsc.mons n
def State.onMon (s : State) (n : Nat) (g : MonCh → MonCh) : State := s.onBsc fun b => { b with mons := tmod .reset b.mons n g }
def State.onSeq (s : State) (g : MonSeq → MonSeq) : State := s.onBsc fun b => { b with seq := g b.seq }
def State.onCal (s : State) (g : Cal → Cal) : State := s.onBsc fun b => { b with cal := g b.cal }

/-! ### Channels and conversions (R470, R471) -/

/-- Full scale in µV; 0 for a temperature sensor. -/
def monFs (ch range : Nat) : Nat :=
  if ch < 32 then (if range = 0 then 500000 else if range = 1 then 2500000 else 10000000)
  else if ch < 34 then 2500000 else if ch < 56 then 5000000 else if ch < 58 then 20000000 else if ch < 82 then 0 else 10000000

/-- The keys of a channel's OFFSET and GAIN for a range, and their values at power-up: 0 and 1.0. A GAIN moves in 2 ppm, which is
262,144 / 15,625 of its units, so it is kept in units 15,625 times finer. -/
def offKey (ch range : Nat) : Nat := 16 * ch + 2 * range
def gnKey (ch range : Nat) : Nat := 16 * ch + 2 * range + 1
def gainUnit : Nat := calUnit * 15625
def gainOne : Int := ((2 ^ 23 * gainUnit : Nat) : Int)

/-- OFFSET and GAIN in force. -/
def Bsc.monOffset (b : Bsc) (ch range : Nat) : Int := roundDiv (b.corr (offKey ch range) 0).cur calUnit
def Bsc.monGain (b : Bsc) (ch range : Nat) : Int := roundDiv (b.corr (gnKey ch range) gainOne).cur gainUnit

/-- The raw value that 18 bits spell. -/
def rawOf (x : BitVec 18) : Int := toSigned 18 x.toNat

/-- The corrected value of a conversion. -/
def Bsc.corrected (b : Bsc) (ch range : Nat) (x : Int) : Int :=
  satSigned 24 (roundDiv ((x * 64 + b.monOffset ch range) * b.monGain ch range) (2 ^ 23))

/-- A corrected value in the channel's engineering unit: a sensor's in m°C by the table of IMAGE 0x080, of no bytes where there is no valid copy (R471). -/
def State.monUnit (s : State) (ch range : Nat) (y : Int) : Int :=
  if monFs ch range = 0 then Config.sensorTemp (match s.newest 0x080 with | some img => img.body | none => []) ch y else roundDiv (y * (monFs ch range : Int)) (2 ^ 23)

/-! ### Limits (R475) -/

/-- Every result is checked against the window; each crossing counts and takes the ACTION. -/
def State.monLimits (s : State) (ch : Nat) (v : Int) : State :=
  let m := s.mon ch
  let lo := decide (v < m.lo) || (m.isLo && decide (v < m.lo + m.hyst))
  let hi := decide (m.hi < v) || (m.isHi && decide (m.hi - m.hyst < v))
  let n := ofBool (lo && !m.isLo) + ofBool (hi && !m.isHi)
  let s1 := s.noting fun s => s.onMon ch fun m => { m with isLo := lo, isHi := hi }
  if n = 0 then s1
  else
    let s2 := s1.onSeq fun q => { q with limits := satAdd 32 q.limits n }
    let s3 := if m.action = 0 then s2 else s2.fireObj m.ev (monId ch)
    if m.action = 3 then s3.toEndpaper 8 ch 0 else s3

/-- A result of a channel: `keep` puts it into the latest-value register. -/
def State.monResult (s : State) (ch : Nat) (y : Int) (first avg : Nat) (sys keep : Bool) : State :=
  let v := s.monUnit ch (s.mon ch).range y
  let s1 := if keep then s.onMon ch fun m => { m with last := { y := y, value := v, time := first, avg := avg, sys := sys } } else s
  s1.monLimits ch v

/-- The 24 bytes of MON_READ and MON_INJECT (R492). -/
def State.monBytes (s : State) (ch : Nat) (y v : Int) (time avg : Nat) (sys : Bool) : List Byte :=
  let stale := time == 0 || decide (time + uS < s.now) || (ch == 74 && s.svc.spq.isNone)
  leBytes 4 (ofSigned 32 y) ++ leBytes 4 (ofSigned 32 v) ++ dtBytes time ++
    leBytes 2 (ofBool (s.mon ch).isLo + 2 * ofBool (s.mon ch).isHi + 4 * ofBool stale + 8 * ofBool sys) ++ leBytes 1 avg ++ zeros 1

/-! ### The controller (R478, R480) -/

/-- A correction is accepted: it becomes the target. -/
def State.calTarget (s : State) (key : Nat) (d v : Int) : State :=
  s.onCal fun c =>
    let x := { (tget { cur := d, target := d } c.corrs key) with target := v }
    { c with corrs := tput { cur := d, target := d } c.corrs key x, accepted := inc32 c.accepted, lastAccept := s.now }

/-- Two measurements disagree. -/
def State.calDisagrees (s : State) : State := s.onCal fun c => { c with disagree := inc32 c.disagree }

/-- Two measurements agree within a tolerance. -/
def within (a b tol : Rat) : Bool := decide (a - b ≤ tol) && decide (b - a ≤ tol)

/-- The integer nearest to a fraction, a half away from zero. -/
def ratRound (x : Rat) : Int := roundDiv x.num x.den

/-! ### Injections (R474) -/

/-- An injection; Endpaper's go before the others, but not before one that has begun. -/
def State.inject (s : State) (i : Inj) : State :=
  let own := fun (x : Inj) => x.begun || x.who != .cmd
  s.onBsc fun b =>
    { b with injs := if i.who = .cmd then b.injs ++ [i] else b.injs.takeWhile own ++ [i] ++ b.injs.dropWhile own }

/-- An injection of `n` conversions for the controller. -/
def ownInj (ch n : Nat) (who : InjWho) : Inj :=
  { ch := ch, avg := 0, count := n, settle := 0, who := who, begun := false, done := 0, raw := 0, sum := 0, halfRaw := 0, halfSum := 0,
    bad := 0, first := 0 }

/-- The queue has room. -/
def State.injRoom (s : State) : Bool := decide (s.bsc.injs.length < 8)

/-! ### Bias read-backs (R469, R479) -/

/-- A read-back in µV differs from the output by more than 1 mV + 0.1 %. -/
def BiasCh.offTarget (c : BiasCh) (uv : Int) : Bool :=
  decide ((1000 * u15 * 1000 : Int) + c.pos.natAbs < ((uv * u15 - c.pos).natAbs * 1000 : Int))

/-- The unit of a bias channel (R528). -/
def biasUnit (n : Nat) : FUnit := unitC 12 n

/-- A lasting-faulty channel is retired: it slews to its clear value (R469). -/
def State.biasRetire (s : State) (n outcome flags : Nat) : State :=
  let s1 := if (s.bch n).sw.isSome then s.failWait (wait .biasRange (biasId n) 0) (err Status.eDegraded 0) else s
  ((s1.onBch n fun c => { c with st := .retired, gen := none, pend := [], sw := none, ep := none, hold := false }).logFault (biasUnit n) outcome flags (biasId n) 0).retireUnit
    (biasUnit n)

/-- A channel error: the self-test of 16 read-backs starts, unless one runs, or the unit recurs (R527, R530). -/
def State.biasError (s : State) (n : Nat) : State :=
  if s.bsc.injs.any fun i => i.who == .test n then s
  else if s.recurring (biasUnit n) then s.biasRetire n 5 0
  else if s.injRoom then (s.logFault (biasUnit n) 0 0 (biasId n) 0).inject (ownInj (82 + n) 16 (.test n)) else s

/-- The commanded voltage of a steady channel in 2^-15 µV. -/
def BiasCh.commanded (c : BiasCh) : Int := codeVolts c.range (clampI c.live.lo c.live.hi c.target)

/-- The error of a mean corrected value against a voltage, in codes. -/
def errCodes (r : Nat) (y : Rat) (volts : Int) : Rat := (y * 10000000 * (u15 : Rat) / (2 ^ 23 : Nat) - (volts : Rat)) / (biasLsb r : Rat)

/-- The trim that removes an error in codes. -/
def State.trimBy (s : State) (n : Nat) (e : Rat) : State :=
  s.calTarget (trimKey n) 0 (ratRound (((s.bsc.corr (trimKey n) 0).cur : Rat) - e * (calUnit : Rat)))

/-- The background trim takes one more read-back (R479). -/
def State.biasTrim (s : State) (n : Nat) (y : Int) : State :=
  let c := s.bch n
  if !c.live.trim || c.cal || c.hold || s.biasState n != 2 || s.bsc.cal.suspended then s.onBch n fun c => { c with avg := [], avgLast := none }
  else if c.avg.length < 1023 then s.onBch n fun c => { c with avg := y :: c.avg }
  else
    let sum := c.avg.foldl (fun (a : Int) v => a + v) y
    let e := fun (v : Int) => errCodes c.range ((v : Rat) / 1024) c.commanded
    match c.avgLast with
    | none => s.onBch n fun c => { c with avg := [], avgLast := some sum }
    | some l =>
      let s1 := s.onBch n fun c => { c with avg := [], avgLast := none }
      if within (e sum) (e l) 2 then s1.trimBy n ((e sum + e l) / 2) else s1.calDisagrees

/-- A system read-back of a channel. -/
def State.biasReadback (s : State) (n : Nat) (y : Int) : State :=
  let uv := s.monUnit (82 + n) 0 y
  let s1 := s.onBch n fun c => { c with readback := uv }
  let c := s1.bch n
  if c.st ≠ .on || c.overload || c.moving then s1.onBch n fun c => { c with avg := [], avgLast := none }
  else if c.offTarget uv then
    let s2 := s1.onBch n fun c => { c with bad := min 3 (c.bad + 1), rbErr := inc32 c.rbErr }
    (if 3 ≤ (s2.bch n).bad then s2.biasError n else s2).biasTrim n y
  else (s1.onBch n fun c => { c with bad := 0 }).biasTrim n y

/-! ### System slots (R472) -/

/-- What a place in the round converts: a channel, 146 for the internal zero, 32 for band-gap A. -/
def roundCh (k : Nat) : Nat := if k < 24 then 34 + k else if k < 48 then 34 + k else if k < 112 then 34 + k else if k = 112 then 146 else 32

/-- SYSTEM_SLOT: the next µs slot with index ≡ 3 mod 4 converts the next channel of the round; `x` is the raw value. The SPARE
Quire's sensor gives nothing while no Quire is SPARE (R470). -/
def execSystemSlot (x : BitVec 18) (s : State) : Host.Outcome State Fault Refusal :=
  if s.dev.st == .off then .next s
  else
    let base := max (s.bsc.sysSlot + 1) (ceilDiv s.now uUs)
    let slot := base + (3 - base % 4)
    let ch := roundCh s.bsc.round
    let s1 := (s.advanceTo ((slot + 1) * uUs)).onBsc fun b => { b with sysSlot := slot, round := (b.round + 1) % 114 }
    let raw := rawOf x
    let y := s1.bsc.corrected ch 0 raw
    let t := slot * uUs
    .next (if ch = 146 then s1.onCal fun c => { c with zeros := raw :: c.zeros.take 1 }
      else if ch = 32 then (s1.onCal fun c => { c with bgs := raw :: c.bgs.take 1 }).monResult 32 y t 0 true true
      else if ch = 74 ∧ s1.svc.spq.isNone then s1
      else
        let s2 := s1.monResult ch y t 0 true true
        if 82 ≤ ch then s2.biasReadback (ch - 82) y else s2)

/-! ### What an injection ends with -/

/-- A step of MON_SYSCAL (R476). -/
def State.syscalDone (s : State) (i : Inj) (step : Nat) (value : Int) : State :=
  let half : Rat := ((i.count / 2 : Nat) : Rat)
  let m1 : Rat := (i.halfRaw : Rat) / half
  let m2 : Rat := ((i.raw - i.halfRaw : Int) : Rat) / half
  let w := wait .monSyscal i.ch 0
  let r := (s.mon i.ch).range
  let m := (m1 + m2) / 2
  if s.bsc.cal.suspended then s.failWait w (err Status.calSuspended 0)
  else if !within m1 m2 4 then s.calDisagrees.failWait w (err Status.monCalDisagree 0)
  else if step = 0 then (s.onMon i.ch fun x => { x with zero := some m }).resolve w []
  else match (s.mon i.ch).zero with
    | none => s.failWait w (eState s)
    | some z =>
      let span := (m - z) * 64 * (monFs i.ch r : Rat)
      let g : Int := if span = 0 then 0 else ratRound ((value : Rat) * (2 ^ 46 : Nat) / span)
      let g' := clampI 0 0xFFFFFF g
      let o := clampI (-(2 ^ 23)) (2 ^ 23 - 1) (ratRound (-(z * 64)))
      ((s.calTarget (offKey i.ch r) 0 (o * calUnit)).calTarget (gnKey i.ch r) gainOne (g' * gainUnit)).resolve w []

/-- A measurement of BIAS_CAL_RUN: its two halves are the two independent measurements (R478, R488). -/
def State.biasMeasured (s : State) (i : Inj) (n : Nat) : State :=
  let half : Rat := ((i.count / 2 : Nat) : Rat)
  let c := s.bch n
  let e := fun (v : Int) => errCodes c.range ((v : Rat) / half) c.commanded
  s.onBsc fun b => { b with calRuns := b.calRuns.map fun (r : BiasCal) =>
    if r.n = n then { r with errs := r.errs ++ [e i.halfSum, e (i.sum - i.halfSum)] } else r }

/-- An injection ends: its result goes to whoever asked for it. -/
def State.injDone (s : State) (i : Inj) : State :=
  let y := roundDiv i.sum i.count
  match i.who with
  | .cmd =>
    let s1 := s.monResult i.ch y i.first i.avg false true
    s1.resolve (wait .monInject i.ch 0) (s1.monBytes i.ch y (s1.monUnit i.ch (s1.mon i.ch).range y) i.first i.avg false)
  | .syscal step v => (s.monResult i.ch y i.first i.avg false true).syscalDone i step v
  | .bias n => s.biasMeasured i n
  | .test n =>
    let s1 := s.onBch n fun c => { c with bad := 0 }
    if i.bad = 0 then s1.transientPass (biasUnit n) (biasId n) 0 else s1.biasRetire n 3 0

/-- One slot of an injection: a SETTLE slot, or a conversion. -/
def State.injSlot (s : State) (i : Inj) (rest : List Inj) (slot : Nat) (raw : Int) : State :=
  let put := fun (a : State) (j : Inj) => a.onBsc fun b => { b with injs := j :: rest }
  let s0 := if i.begun then s else s.onSeq fun q => { q with injections := inc32 q.injections }
  if 0 < i.settle then put s0 { i with begun := true, settle := i.settle - 1 }
  else
    let y := s.bsc.corrected i.ch (s.mon i.ch).range raw
    let off := match i.who with | .test n => (s.bch n).offTarget (s.monUnit i.ch 0 y) | _ => false
    let atHalf := decide (i.done + 1 = i.count / 2)
    let j := { i with begun := true, done := i.done + 1, raw := i.raw + raw, sum := i.sum + y, bad := i.bad + ofBool off,
                      first := if i.done = 0 then slot * uUs else i.first,
                      halfRaw := if atHalf then i.raw + raw else i.halfRaw, halfSum := if atHalf then i.sum + y else i.halfSum }
    if j.done = j.count then (s0.onBsc fun b => { b with injs := rest }).injDone j else put s0 j

/-! ### The host sequence (R473) -/

/-- The fields of an entry of the sequence table: CH, AVG, SETTLE, DEST and LAST. -/
def MonSeq.ch (e : Nat) : Nat := bits e 0 16
def MonSeq.avgOf (e : Nat) : Nat := bits e 16 8
def MonSeq.settleOf (e : Nat) : Nat := bits e 24 8
def MonSeq.destOf (e : Nat) : Nat := bits e 32 8
def MonSeq.lastOf (e : Nat) : Bool := bits e 40 8 == 1

/-- A record of the result ring; it wraps within the region, and nothing is written in ENDPAPER. -/
def State.monRing (s : State) (ch : Nat) (y : Int) (firstUs : Nat) : State :=
  match s.region s.bsc.seq.region with
  | none => s
  | some r =>
    if s.dev.st == .endpaper || r.size < 16 then s
    else
      let m := s.mon ch
      let b := leBytes 8 firstUs ++ leBytes 2 ch ++ leBytes 2 (ofBool m.isLo + 2 * ofBool m.isHi) ++ leBytes 4 (ofSigned 32 y)
      (s.memWrite s.bsc.seq.region s.bsc.seq.ringPos b).onSeq fun q =>
        { q with ringPos := if r.size < q.ringPos + 32 then 0 else q.ringPos + 16 }

/-- A shadow table that waits becomes active at the start of a pass. -/
def State.seqSwap (s : State) : State :=
  if s.bsc.seq.run && s.bsc.seq.swap then (s.onSeq fun q => { q with active := q.shadow, swap := false }).resolve (wait .monSeq 0 0) [] else s

/-- The end of an entry; after the last one the pass ends, and the next begins in the next host slot. -/
def State.entryEnd (s : State) (e slot : Nat) : State :=
  let q := s.bsc.seq
  let y := roundDiv q.sum (2 ^ MonSeq.avgOf e)
  let s1 := s.monResult (MonSeq.ch e) y (q.first * uUs) (MonSeq.avgOf e) false (MonSeq.destOf e % 2 == 1)
  let s2 := if MonSeq.destOf e / 2 % 2 = 1 then s1.monRing (MonSeq.ch e) y q.first else s1
  let last := MonSeq.lastOf e || q.entry == 127
  let s3 := s2.onSeq fun q => { q with idle := 0, conv := 0, sum := 0, again := 0, delayed := false, entry := if last then 0 else q.entry + 1,
                                       run := q.run && !q.stopping, stopping := false }
  if last then
    ((s3.onSeq fun q =>
      { q with passes := (q.passes + 1) % 2 ^ 64, passUs := slot + 1 - q.passFrom.getD slot, passFrom := none }).fireObj q.evPass deviceId).seqSwap
  else s3

/-- One slot of the entry in progress. -/
def State.seqSlot (s : State) (slot : Nat) (raw : Int) : State :=
  let q := s.bsc.seq
  if !q.run then s
  else
    let e := tget 0 q.active q.entry
    if q.idle < MonSeq.settleOf e then s.onSeq fun q => { q with idle := q.idle + 1 }
    else
      let y := s.bsc.corrected (MonSeq.ch e) (s.mon (MonSeq.ch e)).range raw
      let s1 := s.onSeq fun q => { q with conv := q.conv + 1, sum := q.sum + y, first := if q.conv = 0 then slot else q.first }
      if q.conv + 1 = 2 ^ MonSeq.avgOf e then s1.entryEnd e slot else s1

/-! ### Calibration of a bias channel (R488) -/

/-- The end of BIAS_CAL_RUN: the corrections of the two measurements agree, or both are discarded. -/
def State.biasCalEnd (s : State) (r : BiasCal) : State :=
  let s1 := (s.onBsc fun b => { b with calRuns := b.calRuns.filter fun x => x.n != r.n }).onBch r.n fun c => { c with cal := false }
  let w := wait .biasCal r.n 0
  let bad := fun (a : State) => a.calDisagrees.failWait w (err Status.biasCalDisagree 0)
  let c := s.bch r.n
  if s.bsc.cal.suspended then s1.failWait w (err Status.calSuspended 0)
  else match r.errs with
    | [a, b] => if within a b 2 then (s1.trimBy r.n ((a + b) / 2)).resolve w [] else bad s1
    | [a1, b1, a2, b2] =>
      let lsb : Rat := (biasLsb c.range : Rat)
      let v1 : Rat := (r.v1 : Rat) * (u15 : Rat) / lsb
      let v2 : Rat := (r.v2 : Rat) * (u15 : Rat) / lsb
      let ga := (a2 - a1) / (v2 - v1)
      let gb := (b2 - b1) / (v2 - v1)
      let oa := a1 - ga * v1
      let ob := b1 - gb * v1
      if within ga gb (20 / 1000000) && within oa ob 2 then
        ((s1.trimBy r.n ((oa + ob) / 2)).calTarget (gainKey r.n) 0
          (ratRound (((s.bsc.corr (gainKey r.n) 0).cur : Rat) - (ga + gb) / 2 * 1000000 * (calUnit : Rat)))).resolve w []
      else bad s1
    | _ => bad s1

/-- A running calibration goes on: at rest at its voltage a channel is measured; after the last measurement it goes back. -/
def State.biasCalNext (s : State) (r : BiasCal) : State :=
  let c := s.bch r.n
  let to' := fun (v : Int) => s.onBch r.n fun c => { c with pend := c.pend ++ [(s.now, .target v c.live.slew)] }
  let measure := if s.injRoom then s.inject (ownInj (82 + r.n) 2048 (.bias r.n)) else s
  if c.cleared || c.st != .on then s.biasCalEnd { r with errs := [] }
  else if c.moving || !c.pend.isEmpty || s.biasState r.n == 7 || (s.bsc.injs.any fun i => i.who == .bias r.n) then s
  else match r.full, r.errs.length with
    | false, 0 => measure
    | false, _ => s.biasCalEnd r
    | true, 0 => if c.target = r.v1 then measure else to' r.v1
    | true, 2 => if c.target = r.v2 then measure else to' r.v2
    | true, _ => if c.target = r.back then s.biasCalEnd r else to' r.back

/-- HOST_SLOT: the next slot that is no system slot serves an injection, or the host sequence (R473, R474); `x` is the raw value of
the conversion, if the slot makes one. -/
def execHostSlot (x : BitVec 18) (s : State) : Host.Outcome State Fault Refusal :=
  if s.dev.st == .off then .next s
  else
    let base := max (s.bsc.hostSlot + 1) (ceilDiv s.now uUs)
    let slot := if base % 4 = 3 then base + 1 else base
    let s1 := (s.advanceTo (slot * uUs)).onBsc fun b =>
      { b with hostSlot := slot, seq := { b.seq with passFrom := if b.seq.run && b.seq.passFrom.isNone then some slot else b.seq.passFrom } }
    let s2 := (s1.bsc.calRuns.foldl (fun a r => a.biasCalNext r) s1)
    let raw := rawOf x
    let q := s2.bsc.seq
    let s3 := match s2.bsc.injs with
      | [] => s2.seqSlot slot raw
      | i :: rest =>
        if i.begun || !q.run then s2.injSlot i rest slot raw
        else if 8 ≤ q.again then
          (if q.delayed then s2 else s2.onSeq fun q => { q with delayed := true, injDelayed := inc32 q.injDelayed }).seqSlot slot raw
        else
          let s4 := if q.idle = 0 ∧ q.conv = 0 then s2
            else s2.onSeq fun q => { q with idle := 0, conv := 0, sum := 0, again := q.again + 1, restarts := inc32 q.restarts }
          s4.injSlot i rest slot raw
    .next (s3.advanceTo ((slot + 1) * uUs))

/-! ### The internal references (R477, R481) -/

/-- The converter's own calibration: two agreeing measurements of the internal zero, and two of band-gap A, give OFFSET and GAIN of
the internal channels 32 to 145. -/
def State.internalCal (s : State) : State :=
  match s.bsc.cal.zeros, s.bsc.cal.bgs, s.newest 0x080 with
  | [z1, z2], [f1, f2], some img =>
    let z : Rat := ((z1 + z2 : Int) : Rat) / 2
    let f : Rat := ((f1 + f2 : Int) : Rat) / 2
    let span := (f - z) * 64 * 2500000
    if (z1 - z2).natAbs ≤ 4 ∧ (f1 - f2).natAbs * 1000000 ≤ 20 * (f1 - z1).natAbs ∧ span ≠ 0 then
      let o := clampI (-(2 ^ 23)) (2 ^ 23 - 1) (ratRound (-(z * 64)))
      let g := clampI 0 0xFFFFFF (ratRound ((Config.bgValue img.body : Rat) * (2 ^ 46 : Nat) / span))
      (List.range 114).foldl (fun a k => (a.calTarget (offKey (32 + k) 0) 0 (o * calUnit)).calTarget (gnKey (32 + k) 0) gainOne (g * gainUnit)) s
    else s.calDisagrees
  | _, _, _ => s

/-- BANDGAP_COMPARE: every 10 s band-gap A is compared with band-gap B; `a` and `b` are their raw values. -/
def execBandgapCompare (a b : BitVec 18) (s : State) : Host.Outcome State Fault Refusal :=
  if s.dev.st == .off then .next s
  else
    let s1 := (s.advanceTo (s.bsc.bgAt + 10 * uS)).onBsc fun b => { b with bgAt := s.bsc.bgAt + 10 * uS }
    let va := s1.monUnit 32 0 (s1.bsc.corrected 32 0 (rawOf a))
    let vb := s1.monUnit 33 0 (s1.bsc.corrected 33 0 (rawOf b))
    let d := roundDiv ((va - vb) * 1000000) (max 1 va.natAbs)
    let agrees := decide ((va - vb).natAbs * 1000000 ≤ s1.bsc.cal.tolPpm * max 1 va.natAbs)
    let s2 := s1.onCal fun c => { c with bgA := va, bgB := vb, bgDiff := d, agree := if agrees then min 10 (c.agree + 1) else 0 }
    let s3 := s2.noting fun s =>
      if !agrees then s.onCal fun c => { c with suspended := true, suspends := if c.suspended then c.suspends else inc32 c.suspends }
      else if 10 ≤ s.bsc.cal.agree ∧ (s.newest 0x080).isSome then s.onCal fun c => { c with suspended := false } else s
    .next (if s3.bsc.cal.suspended then s3 else s3.internalCal)

/-- BOOT finds no valid copy of IMAGE 0x080: the controller is SUSPENDED (R481). -/
def State.calBoot (s : State) : State :=
  if (s.newest 0x080).isSome then s
  else s.noting fun s => s.onCal fun c => { c with suspended := true, agree := 0, suspends := if c.suspended then c.suspends else inc32 c.suspends }

/-- An in-force value moves toward its target by at most a step. -/
def CorrVal.move (x : CorrVal) (step : Nat) : CorrVal := { x with cur := clampI (x.cur - step) (x.cur + step) x.target }

/-- The largest step of a correction, by its key, in its own units (R480). -/
def corrStep (key div : Nat) : Nat :=
  if key < 4096 then (if key % 2 = 0 then 64 * calUnit / div else 262144 * calUnit / div) else calUnit / div

/-- The corrections of the monitor converter, or of the bias channels, move. -/
def moveCorrs (l : List (Nat × CorrVal)) (mon : Bool) (div : Nat) : List (Nat × CorrVal) :=
  l.map fun e => if decide (e.1 < 4096) == mon then (e.1, e.2.move (corrStep e.1 div)) else e

/-- The corrections of a line move: gain, offset and timing, each in units of 1/720,720 of its STEP. -/
def LineCal.move (x : LineCal) (div : Nat) : LineCal :=
  { x with inForce := (x.inForce.zip x.target).map fun e => clampI (e.1 - (calUnit / div : Nat)) (e.1 + (calUnit / div : Nat)) e.2 }

/-- CORRECTION_INTERVAL: the next INTERVAL boundary of a class; a SUSPENDED controller moves nothing (R480, R481). -/
def execCorrectionInterval (k : Fin 4) (s : State) : Host.Outcome State Fault Refusal :=
  if s.dev.st == .off then .next s
  else
    let c := lget ⟨1, 10, 0⟩ s.bsc.cal.classes k
    let t := (max c.last s.now / (c.intervalMs * uMs) + 1) * (c.intervalMs * uMs)
    let s1 := (s.advanceTo t).onCal fun x => { x with classes := lput x.classes k { c with last := t } }
    .next (if s1.bsc.cal.suspended then s1
      else if k.val = 2 then s1.onRf fun r => { r with dacs := r.dacs.map fun (e : Nat × DacLine) => (e.1, { e.2 with cal := e.2.cal.move c.div }) }
      else if k.val = 3 then s1.onRf fun r => { r with adcs := r.adcs.map fun (e : Nat × AdcLine) => (e.1, { e.2 with cal := e.2.cal.move c.div }) }
      else s1.onCal fun x => { x with corrs := moveCorrs x.corrs (k.val == 0) c.div })

/-! ### Opcodes -/

/-- CAL_SUSPENDED (R481). -/
def State.calErr (s : State) : Option Err := failIf s.bsc.cal.suspended (err Status.calSuspended 0)

/-- BIAS_CAL_RUN (R488). -/
def opBiasCalRun : OpSpec :=
  { cls := [.bias], len := some 12,
    may := fun c s => s.biasPort c c.i,
    state := fun c s =>
      let x := s.bch c.i
      firstErr [s.biasMay c.i, stateIf s (x.gen.isSome || x.cleared || x.sw.isSome || s.biasState c.i == 7 || x.st == .ramping)],
    fields := fun c s =>
      let l := (s.bch c.i).live
      let pt := fun (off : Nat) (p : List Byte) =>
        if u p 0 1 = 0 then sfld p off 4 == 0 else decide (l.lo ≤ sfld p off 4) && decide (sfld p off 4 ≤ l.hi)
      let fs : Int := (1250000 * 2 ^ (s.bch c.i).range : Nat)
      [fU 0 1 0 1, fR 1 3, fX 4 (pt 4),
       fX 8 fun p => pt 8 p && (u p 0 1 == 0 || decide (fs ≤ 10 * ((sfld p 4 4 - sfld p 8 4).natAbs : Int)))],
    more := fun _ s => s.calErr,
    run := fun c s =>
      ((s.onBch c.i fun x => { x with cal := true }).onBsc fun b =>
        { b with calRuns := b.calRuns ++ [{ n := c.i, full := c.u 0 1 == 1, v1 := c.sg 4 4, v2 := c.sg 8 4, back := (s.bch c.i).target, errs := [] }] },
        .accepted [wait .biasCal c.i 0] true none) }

/-- The registration of a limit event. -/
def monEvents (p : List Byte) : List EvField := [evField 0xE00 true (u p 2 2)]

/-- MON_CH_SET (R475, R480, R490). -/
def opMonChSet : OpSpec :=
  { cls := [.mon], priv := fun c => if c.u 1 1 = 3 then .owner else .operator, len := some 32,
    fields := fun c _ =>
      [fU 0 1 0 (if c.i < 32 then 2 else 0), fU 1 1 0 3, fCh 2, fX 8 (fun p => decide (sfld p 4 4 ≤ sfld p 8 4)), fU 12 4 0 1000000, fU 16 1 0 1,
       fR 17 3, fS 20 4 (-(2 ^ 23)) (2 ^ 23 - 1), fU 24 4 0 0xFFFFFF, fR 28 4],
    more := fun c s => if c.u 16 1 = 1 then s.calErr else none,
    reg := fun c s => s.evFieldsCheck c.port (monId c.i) (monEvents c.p),
    run := fun c s =>
      let s1 := s.evFieldsApply c.port (monId c.i) (monEvents c.p)
      let s2 := s1.noting fun s => s.onMon c.i fun m =>
        { m with range := c.u 0 1, action := c.u 1 1, ev := c.u 2 2, lo := c.sg 4 4, hi := c.sg 8 4, hyst := c.u 12 4,
                 zero := if m.range = c.u 0 1 then m.zero else none }
      (if c.u 16 1 = 1 then
        (s2.calTarget (offKey c.i (c.u 0 1)) 0 (c.sg 20 4 * calUnit)).calTarget (gnKey c.i (c.u 0 1)) gainOne ((c.u 24 4 : Int) * gainUnit)
      else s2, .ok []) }

/-- MON_CH_GET (R490): the bytes in force, with CORR 0; OFFSET and GAIN are those in force. -/
def opMonChGet : OpSpec :=
  { readOp [.mon] 0 (fun c s =>
      let m := s.mon c.i
      leBytes 1 m.range ++ leBytes 1 m.action ++ leBytes 2 m.ev ++ leBytes 4 (ofSigned 32 m.lo) ++ leBytes 4 (ofSigned 32 m.hi) ++ leBytes 4 m.hyst ++
        zeros 4 ++ leBytes 4 (ofSigned 32 (s.bsc.monOffset c.i m.range)) ++ leBytes 4 (ofSigned 32 (s.bsc.monGain c.i m.range)) ++ zeros 4) with
    ep := fun _ => true }

/-- The shadow table after a MON_SEQ_WRITE. -/
def Cmd.monTable (c : Cmd) (s : State) : List (Nat × Nat) :=
  tputs 0 s.bsc.seq.shadow (c.u 0 1) ((List.range (c.u 1 1)).map fun k => c.u (4 + 8 * k) 8)

/-- MON_SEQ_WRITE (R473, R491). -/
def opMonSeqWrite : OpSpec :=
  { cls := [.device], len := none, lenMin := 4, keys := fun _ => [devKey 0xE02],
    lenOk := fun n => decide (12 ≤ n) && decide (n ≤ 1028) && n % 8 == 4,
    fields := fun c s =>
      [fX 0 (fun p => decide (u p 0 1 ≤ 127) && (List.range 128).any fun k => MonSeq.lastOf (tget 0 (c.monTable s) k)),
       fX 1 (fun p => decide (1 ≤ u p 1 1) && decide (u p 0 1 + u p 1 1 ≤ 128) && p.length == 4 + 8 * u p 1 1), fR 2 2] ++
      (List.range (c.u 1 1)).flatMap fun k =>
        let o := 4 + 8 * k
        [fU o 2 0 145, fU (o + 2) 1 0 10, fU (o + 4) 1 0 3, fU (o + 5) 1 0 1, fR (o + 6) 2],
    run := fun c s =>
      let s1 := s.onSeq fun q => { q with shadow := c.monTable s }
      if s.bsc.seq.run then (s1.onSeq fun q => { q with swap := true }, .accepted [wait .monSeq 0 0] false none)
      else (s1.onSeq fun q => { q with active := q.shadow }, .ok []) }

/-- The registration of EV_PASS. -/
def passEvents (p : List Byte) : List EvField := [evField 0xE03 true (u p 4 2)]

/-- MON_SEQ_RUN (R491). A sequence that starts begins a new pass. -/
def opMonSeqRun : OpSpec :=
  { cls := [.device], ep := fun _ => true, len := some 8, keys := fun _ => [devKey 0xE03],
    fields := fun _ _ => [fU 0 1 0 1, fR 1 1, fP 2 2 (fun v => decide (v ≤ 2047) || v == 0xFFFF), fCh 4, fR 6 2],
    more := fun c s => if c.u 2 2 = 0xFFFF then none else s.regionErr c.port (c.u 2 2),
    reg := fun c s => s.evFieldsCheck c.port deviceId (passEvents c.p),
    run := fun c s =>
      let s1 := (s.evFieldsApply c.port deviceId (passEvents c.p)).onSeq fun q =>
        let q1 := { q with region := c.u 2 2, evPass := c.u 4 2, ringPos := if q.region = c.u 2 2 then q.ringPos else 0 }
        if c.u 0 1 = 1 then
          if q.run then { q1 with stopping := false }
          else { q1 with run := true, stopping := false, entry := 0, idle := 0, conv := 0, sum := 0, again := 0, delayed := false, passFrom := none }
        else if q.run ∧ (q.idle ≠ 0 ∨ q.conv ≠ 0) then { q1 with stopping := true } else { q1 with run := false, stopping := false }
      (if c.u 0 1 = 1 ∧ !s.bsc.seq.run then s1.seqSwap else s1, .ok []) }

/-- MON_READ (R492). -/
def opMonRead : OpSpec :=
  { readOp [.mon] 0 (fun c s => let l := (s.mon c.i).last; s.monBytes c.i l.y l.value l.time l.avg l.sys) with ep := fun _ => true }

/-- MON_INJECT (R474, R492). -/
def opMonInject : OpSpec :=
  { cls := [.mon], ep := fun _ => true, len := some 4, fields := fun _ _ => [fU 0 1 0 10, fR 2 2],
    more := fun _ s => failIf (!s.injRoom) (err Status.monInjFull 0),
    run := fun c s =>
      (s.inject { (ownInj c.i (2 ^ c.u 0 1) .cmd) with avg := c.u 0 1, settle := c.u 1 1 }, .accepted [wait .monInject c.i 0] true none) }

/-- MON_SYSCAL (R476, R493). -/
def opMonSyscal : OpSpec :=
  { cls := [.mon], len := some 12,
    state := fun c s => stateIf s (decide (c.i < 32) && c.u 0 1 == 1 && (s.mon c.i).zero.isNone),
    fields := fun c s =>
      let fs : Int := monFs c.i (s.mon c.i).range
      [fU 0 1 0 1, fU 1 1 4 16, fR 2 2,
       fX 4 (fun p => let v : Int := (sfld p 4 4).natAbs
         if u p 0 1 = 0 then v == 0 else decide (32 ≤ c.i) || (decide (fs ≤ 2 * v) && decide (v ≤ fs))), fR 8 4],
    more := fun c s =>
      firstErr [failIf (decide (32 ≤ c.i)) (err Status.monNotExternal 0), s.calErr, failIf (!s.injRoom) (err Status.monInjFull 0)],
    run := fun c s =>
      (s.inject { (ownInj c.i (2 ^ (c.u 1 1 + 1)) (.syscal (c.u 0 1) (c.sg 4 4))) with avg := c.u 1 1 }, .accepted [wait .monSyscal c.i 0] true none) }

/-- The smallest INTERVAL of a class (R480). -/
def classInterval (k : Nat) : Nat := if k = 1 then 1 else 10

/-- CAL_CFG_SET (R480, R494). -/
def opCalCfgSet : OpSpec :=
  { cls := [.device], priv := fun _ => .owner, ep := fun _ => true, len := some 8, keys := fun _ => [devKey 0xE07],
    fields := fun _ _ =>
      [fU 0 1 0 3, fU 1 1 1 16, fX 2 (fun p => decide (classInterval (u p 0 1) ≤ u p 2 2) && decide (u p 2 2 ≤ 10000)), fU 4 2 100 10000, fR 6 2],
    run := fun c s =>
      (s.onCal fun x =>
        { x with tolPpm := c.u 4 2,
                 classes := lput x.classes (c.u 0 1) { (lget ⟨1, 10, 0⟩ x.classes (c.u 0 1)) with div := c.u 1 1, intervalMs := c.u 2 2 } }, .ok []) }

/-- CAL_STATUS (R494). PENDING counts the corrections of the converter, the bias channels and the lines that have not reached their
targets. -/
def opCalStatus : OpSpec :=
  { readOp [.device] 0 (fun _ s =>
      let c := s.bsc.cal
      let open' := fun (l : LineCal) => ((l.inForce.zip l.target).filter fun e => e.1 != e.2).length
      let n := (c.corrs.filter fun e => e.2.cur != e.2.target).length + s.rf.dacs.foldl (fun (a : Nat) e => a + open' e.2.cal) 0 +
        s.rf.adcs.foldl (fun (a : Nat) e => a + open' e.2.cal) 0
      leBytes 1 (ofBool c.suspended) ++ zeros 3 ++ leBytes 4 (ofSigned 32 c.bgA) ++ leBytes 4 (ofSigned 32 c.bgB) ++ leBytes 4 (ofSigned 32 c.bgDiff) ++
        leBytes 4 c.accepted ++ leBytes 4 c.disagree ++ leBytes 4 n ++ leBytes 4 c.suspends ++ dtBytes c.lastAccept ++ zeros 4) with
    ep := fun _ => true }

/-- MON_STATUS (R495). -/
def opMonStatus : OpSpec :=
  { readOp [.device] 0 (fun _ s =>
      let q := s.bsc.seq
      leBytes 1 (ofBool q.run) ++ leBytes 1 q.entry ++ zeros 2 ++ leBytes 4 q.passUs ++ leBytes 8 q.passes ++ leBytes 4 q.injections ++
        leBytes 4 q.restarts ++ leBytes 4 q.injDelayed ++ leBytes 4 q.limits) with
    ep := fun _ => true }

end Sys2Proof.Machine
end

