-- ==== Sys2Proof/Machine/Tin.lean ====
section
/-! DEFINITION. The interval meter (12, R439 to R454): edges, engines, calibration and the opcodes 0x0C00 to 0x0C09. -/
namespace Sys2Proof.Machine

namespace Status
def tinUncal : Nat := 0x10C0
def tinCalDisagree : Nat := 0x10C1
def tinRunning : Nat := 0x10C2
end Status

/-- An input (0 to 7) or a Thread line (16 to 19), and an engine. -/
def State.tinIn (s : State) (n : Nat) : TinIn := tget .reset s.cap.lines n
def State.onTinIn (s : State) (n : Nat) (g : TinIn → TinIn) : State := s.onCap fun c => { c with lines := tmod .reset c.lines n g }
def State.tinEng (s : State) (n : Nat) : TinEng := tget .reset s.cap.engs n
def State.onTinEng (s : State) (n : Nat) (g : TinEng → TinEng) : State := s.onCap fun c => { c with engs := tmod .reset c.engs n g }

/-! ### Times (R440): stamps are in 2^-16 ns -/

/-- The time of an edge that the coarse tick `k` found after `c` taps. -/
def tapTime (table : List Nat) (k c : Nat) : Int :=
  let sum : Nat := (table.take c).foldl (fun a w => a + w) 0
  roundDiv ((k * 2 ^ 29 : Nat) - (10 * sum + 5 * lget 0 table c : Nat)) 2560

/-- The time of an edge on a line; where the line has no accepted table its fine part is a free value below one coarse tick. -/
def State.edgeTime (s : State) (line k c : Nat) : Int × State :=
  match (s.tinIn line).table with
  | some t => (tapTime t k c, s)
  | none =>
    let (v, s1) := s.fresh
    (roundDiv (k * 2 ^ 20 : Nat) 5 - ((v % 209716 : Nat) : Int), s1)

/-- The calibration of a line no longer holds at a temperature (R446). -/
def TinIn.stale (x : TinIn) (milliC : Int) : Bool := decide (5000 < (milliC - x.calTemp).natAbs)

/-! ### Statistics (R443) -/

/-- One more measurement. -/
def TinSums.add (x : TinSums) (t : Int) : TinSums :=
  { n := x.n + 1, sum := x.sum + t, sq := x.sq + t.natAbs * t.natAbs, min := if x.n = 0 then t else Min.min x.min t, max := if x.n = 0 then t else Max.max x.max t }

/-- The standard deviation, rounded. -/
def TinSums.std (x : TinSums) : Nat :=
  if x.n = 0 then 0 else sqrtRound (x.n * x.sq - x.sum.natAbs * x.sum.natAbs) (x.n * x.n)

/-- N of the configuration. -/
def TinCfg.count (c : TinCfg) : Nat := if c.n = 0 then 2 ^ 32 else c.n

/-- A measurement is complete: after N of them the statistics are fixed and EV_DONE fires. -/
def State.tinCount (s : State) (n : Nat) (t : Int) : State :=
  let e := s.tinEng n
  let sums := e.sums.add t
  if sums.n < e.cfg.count then s.onTinEng n fun e => { e with sums := sums }
  else
    (s.onTinEng n fun e =>
      { e with sums := .zero, fixed := some sums, running := e.cfg.rep, open' := if e.cfg.rep then e.open' else none }).fireObj e.cfg.evDone (tinId n)

/-! ### Engines (R442, R444) -/

/-- A slope takes an edge. -/
def slopeTakes (slope : Nat) (rising : Bool) : Bool := if rising then slope % 2 == 1 else decide (2 ≤ slope)

/-- The bytes of a stamp (R453). -/
def TinStamp.bytes (x : TinStamp) : List Byte := dtBytes (x.time * 25) ++ leBytes 1 x.input ++ leBytes 1 x.edge ++ leBytes 2 x.flags

/-- A stamp goes to the queue, or to the ring. -/
def State.tinStamp (s : State) (n : Nat) (x : TinStamp) : State :=
  let e := s.tinEng n
  if e.cfg.dest = 1 then
    match s.region e.cfg.region with
    | some r =>
      if r.size < 16 then s
      else (s.memWrite e.cfg.region e.ringPos x.bytes).onTinEng n fun e => { e with ringPos := if r.size < e.ringPos + 32 then 0 else e.ringPos + 16 }
    | none => s
  else s.onTinEng n fun e => if 64 ≤ e.queue.length then { e with ovf := true } else { e with queue := e.queue ++ [x] }

/-- An accepted edge of a source reaches an engine; `t` is its time. -/
def State.tinUse (s : State) (n src : Nat) (rising : Bool) (t : Int) (flags : Nat) : State :=
  let e := s.tinEng n
  let a := e.cfg.srcA == src && slopeTakes e.cfg.slopeA rising
  let b := e.cfg.srcB == src && slopeTakes e.cfg.slopeB rising
  let starts := decide ((e.start / 25 : Nat) ≤ t)
  if !e.running then s
  else if e.cfg.mode = 1 then
    if a && starts then
      (s.tinStamp n { time := t.toNat, input := src, edge := if rising then 1 else 2, flags := flags }).tinCount n t
    else s
  else if e.cfg.mode = 2 then
    match e.open' with
    | some (t0, _) =>
      if b && decide (t0 ≤ t) then (s.onTinEng n fun e => { e with open' := none }).tinCount n (t - t0)
      else if a then s.onTinEng n fun e => { e with overlap := inc32 e.overlap } else s
    | none => if a && starts then s.onTinEng n fun e => { e with open' := some (t, s.now) } else s
  else if e.cfg.mode = 3 && a then
    let s1 := s.onTinEng n fun e => { e with open' := if starts then some (t, s.now) else none }
    match e.open' with
    | some (t0, _) => s1.tinCount n (t - t0)
    | none => s1
  else s

/-- An engine whose measurement waits for its stop uses a line: a new table waits (R441). -/
def State.tinHolds (s : State) (line : Nat) : Bool :=
  (List.range 8).any fun n =>
    let e := s.tinEng n
    e.running && e.cfg.mode == 2 && e.open'.isSome && (e.cfg.srcA == line || e.cfg.srcB == line || n == line)

/-- A table that waits takes effect, unless a measurement holds the line. -/
def State.tinTable (s : State) (line : Nat) : State :=
  match (s.tinIn line).tablePend with
  | some t => if s.tinHolds line then s else s.onTinIn line fun x => { x with table := some t, tablePend := none }
  | none => s

/-- A line is named by a running engine. -/
def State.tinBusy (s : State) (line : Nat) : Bool :=
  (List.range 8).any fun n => let e := s.tinEng n; e.running && (e.cfg.srcA == line || e.cfg.srcB == line)

/-- The lines of an engine: those of its sources that are inputs, and its own, which times an internal source. -/
def TinEng.lines (e : TinEng) (n : Nat) : List Nat := n :: [e.cfg.srcA, e.cfg.srcB].filter fun l => decide (l < 8)

/-- An edge of a source is a start edge for an engine (R442). -/
def TinEng.starts (e : TinEng) (src : Nat) (rising : Bool) : Bool :=
  e.running && e.cfg.mode != 0 && e.cfg.srcA == src && slopeTakes e.cfg.slopeA rising && (e.cfg.mode != 2 || e.open'.isNone)

/-- The tables that wait for the start edge of an engine, on each of its lines (R441). -/
def State.tinTables (s : State) (src : Nat) (rising : Bool) : State :=
  (List.range 8).foldl (fun a n => if (s.tinEng n).starts src rising then ((s.tinEng n).lines n).foldl State.tinTable a else a) s

/-- The tables of lines that no running engine names any more are in force at once (R441). -/
def State.tinIdle (s : State) : State := (List.range 8).foldl (fun a l => if a.tinBusy l then a else a.tinTable l) s

/-- The engines that name a source. -/
def State.tinUsers (s : State) (src : Nat) : List Nat :=
  (List.range 8).filter fun n => let e := s.tinEng n; e.cfg.mode != 0 && (e.cfg.srcA == src || e.cfg.srcB == src)

/-- TIN_EDGE: an edge of a source has crossed at `taps` taps before coarse tick `tclk`; `held` is how many ns the comparator stayed in
its new state, `milliC` the junction temperature. Inputs filter and drop edges; an internal source presents every 64th rising edge of its clock, which is timed
by the line of the engine that takes it (R439 to R444, R447). -/
def execTinEdge (src : Fin 15) (rising : Bool) (tclk taps held : Nat) (milliC : Int) (s : State) : Host.Outcome State Fault Refusal :=
  if !s.runs then .next s
  else
    let s1 := (s.advanceTo (tclk * uTick)).onCap fun c => { c with temp := milliC }
    let flags := fun (a : State) (line : Nat) => ofBool (!a.clk.coherent) + 2 * ofBool ((a.tinIn line).stale milliC)
    if src.val < 8 then
      let x := s1.tinIn src
      if held < x.filter ∨ x.calBy.isSome then .next s1
      else
        let s2 := s1.tinTables src rising
        let (t, s3) := s2.edgeTime src tclk taps
        let fast := match x.lastEdge with | some l => decide (5 * (t - l) < (2097152 : Int)) | none => false
        if fast then .next (s3.onTinEng src fun e => { e with tooFast := inc32 e.tooFast })
        else
          let s4 := s3.onTinIn src fun x => { x with lastEdge := some t.toNat, edges := (x.edges + 1) % 2 ^ 64 }
          .next ((s4.tinUsers src).foldl (fun a n => a.tinUse n src rising t (flags a src)) s4)
    else
      let k := tget 0 s1.cap.divs src + 1
      if !rising then .next s1
      else if k < 64 then .next (s1.onCap fun c => { c with divs := tput 0 c.divs src k })
      else
        let s2 := (s1.onCap fun c => { c with divs := terase c.divs src }).tinTables src true
        .next ((s2.tinUsers src).foldl (fun a n =>
          let (t, b) := a.edgeTime n tclk taps
          b.tinUse n src true t (flags b n)) s2)

/-- NO_STOP: a start edge has had no stop within TIMEOUT (R442). -/
def execNoStop (n : Fin 8) (s : State) : Host.Outcome State Fault Refusal :=
  let e := s.tinEng n
  match e.open' with
  | some (_, since) =>
    if e.running ∧ e.cfg.mode = 2 then
      .next ((s.advanceTo (since + e.cfg.timeout * uUs)).onTinEng n fun e => { e with open' := none, noStop := inc32 e.noStop })
    else .next s
  | none => .next s

/-- A measurement that spans a forced release or a step of device time is discarded (R447). -/
def State.tinDiscard (s : State) : State :=
  (s.onCap fun c => { c with engs := c.engs.map fun (e : Nat × TinEng) =>
    if e.2.open'.isSome then (e.1, { e.2 with open' := none, discard := inc32 e.2.discard }) else e }).onCap fun c =>
    { c with lines := c.lines.map fun (e : Nat × TinIn) => (e.1, { e.2 with lastEdge := none }) }

/-! ### Calibration (R441, R445) -/

/-- The cumulative sums of a list. -/
def cumul (l : List Nat) : List Nat := (l.foldl (fun (a : Nat × List Nat) h => (a.1 + h, (a.1 + h) :: a.2)) (0, [])).2.reverse

/-- Every bin boundary of the two runs agrees within 1 ps. -/
def tinAgree (h : Nat) (a b : List Nat) : Bool :=
  ((cumul (a.take 1536 ++ zeros' (1536 - a.length))).zip (cumul (b.take 1536 ++ zeros' (1536 - b.length)))).all fun e =>
    decide ((e.1 - e.2) * 3200 ≤ h) && decide ((e.2 - e.1) * 3200 ≤ h)
where
  /-- Zero hits. -/
  zeros' (n : Nat) : List Nat := List.replicate n 0

/-- The table of two runs of `h` hits: the mean widths. -/
def tinWidths (h : Nat) (a b : List Nat) : List Nat :=
  (List.range 1536).map fun k => (roundDiv ((lget 0 a k + lget 0 b k) * 2 ^ 28 : Nat) (10 * h)).toNat

/-- The line that an object calibrates, with LOG2HITS. -/
def State.tinRun (s : State) (n : Nat) : Option (Nat × Nat) :=
  ([0, 1, 2, 3, 4, 5, 6, 7, 16, 17, 18, 19].filterMap fun l => match (s.tinIn l).calBy with
    | some (o, h) => if o = n then some (l, h) else none
    | none => none).head?

/-- TIN_CAL_DONE: both runs of a TIN_CAL_RUN have collected their hits. The table of a line of Thread waits for that port's next exchange (R445). -/
def execTinCalDone (n : Fin 8) (hits1 hits2 : List Nat) (milliC : Int) (s : State) : Host.Outcome State Fault Refusal :=
  match s.tinRun n with
  | none => .next s
  | some (l, lg) =>
    let w := wait .tinCal n 0
    let s1 := (s.onTinIn l fun x => { x with calBy := none }).onCap fun c => { c with temp := milliC }
    if s.bsc.cal.suspended then .next (s1.failWait w (err Status.calSuspended 0))
    else if tinAgree (2 ^ lg) hits1 hits2 then
      let t := tinWidths (2 ^ lg) hits1 hits2
      let s2 := (s1.onTinIn l fun x =>
        { x with table := if s.tinBusy l || 16 ≤ l then x.table else some t, tablePend := if s.tinBusy l || 16 ≤ l then some t else none, calTemp := milliC, calTime := s.now }).onCal
          fun c => { c with accepted := inc32 c.accepted, lastAccept := s.now }
      .next (s2.resolve w [])
    else .next (((s1.onTinIn l fun x => { x with disagree := inc32 x.disagree }).calDisagrees).failWait w (err Status.tinCalDisagree 0))

/-- BOOT calibrates the four delay lines of Thread (R445): the widths that it finds are free values. -/
def State.bootLines (s : State) : State :=
  [16, 17, 18, 19].foldl (fun a l => a.onTinIn l fun x =>
    { x with table := some ((Config.bootBins l).take 1536), tablePend := none, calTemp := s.cap.temp, calTime := s.now }) s

/-! ### Opcodes -/

/-- The line that INPUT names (R450). -/
def tinLine (n input : Nat) : Nat := if input = 0 then n else input
def tinInput (off : Nat) : Field := fP off 1 fun v => v == 0 || (decide (16 ≤ v) && decide (v ≤ 19))

/-- TIN_INPUT_SET (R449). -/
def opTinInputSet : OpSpec :=
  { cls := [.tin], len := some 8, fields := fun _ _ => [fS 0 2 (-1200) 1200, fU 2 1 0 50, fU 4 1 0 1, fR 5 3],
    more := fun c s => failIf (s.tinEng c.i).running (err Status.tinRunning 0),
    run := fun c s => (s.onTinIn c.i fun x => { x with thresh := c.sg 0 2, hyst := c.u 2 1, filter := c.u 3 1, term := c.u 4 1 }, .ok []) }

/-- TIN_INPUT_GET. -/
def opTinInputGet : OpSpec :=
  readOp [.tin] 0 fun c s =>
    let x := s.tinIn c.i
    leBytes 2 (ofSigned 16 x.thresh) ++ leBytes 1 x.hyst ++ leBytes 1 x.filter ++ leBytes 1 x.term ++ zeros 3

/-- TIN_CAL_RUN (R441, R447, R450). -/
def opTinCalRun : OpSpec :=
  { cls := [.tin], len := some 4, keys := fun c => [c.obj.id, devKey (0xC0200 + tinLine c.i (c.u 0 1))], fields := fun _ _ => [tinInput 0, fU 1 1 16 28, fR 2 2],
    more := fun _ s => s.calErr,
    busy := fun c s => if s.tinBusy (tinLine c.i (c.u 0 1)) || (s.tinIn (tinLine c.i (c.u 0 1))).calBy.isSome then some (eBusy hintUnknown) else none,
    run := fun c s => (s.onTinIn (tinLine c.i (c.u 0 1)) fun x => { x with calBy := some (c.i, c.u 1 1) }, .accepted [wait .tinCal c.i 0] true none) }

/-- TIN_CAL_READ (R450): the widths of a line without an accepted table are free values. -/
def opTinCalRead : OpSpec :=
  { cls := [.tin], priv := fun _ => .observer, changes := false, len := some 8, keys := fun _ => [],
    fields := fun _ _ => [tinInput 0, fR 1 1, fU 2 2 0 1535, fX 4 (fun p => decide (1 ≤ u p 4 2) && decide (u p 4 2 ≤ 1015) && decide (u p 2 2 + u p 4 2 ≤ 1536)), fR 6 2],
    run := fun c s =>
      match (s.tinIn (tinLine c.i (c.u 0 1))).table with
      | some t => (s, .ok ((List.range (c.u 4 2)).flatMap fun k => leBytes 4 (lget 0 t (c.u 2 2 + k))))
      | none =>
        let r := (List.range (c.u 4 2)).foldl (fun (a : State × List Byte) _ => let (v, b) := a.1.fresh; (b, a.2 ++ leBytes 4 v)) (s, [])
        (r.1, .ok r.2) }

/-- The registrations of an engine's events. -/
def tinEvents (p : List Byte) : List EvField := [evField 0xC00 true (u p 16 2), evField 0xC01 true (u p 18 2)]

/-- The configuration that TIN_MEAS_SET carries. -/
def tinOf (p : List Byte) : TinCfg :=
  { mode := u p 0 1, srcA := u p 1 1, slopeA := u p 2 1, srcB := u p 3 1, slopeB := u p 4 1, dest := u p 5 1, region := u p 6 2, n := u p 8 4,
    timeout := u p 12 4, evDone := u p 16 2, evAlarm := u p 18 2, rep := u p 20 1 == 1 }

/-- TIN_MEAS_SET (R442, R444, R451). -/
def opTinMeasSet : OpSpec :=
  { cls := [.tin], len := some 24,
    fields := fun _ _ =>
      let m := fun (p : List Byte) => u p 0 1
      [fU 0 1 0 3, fU 1 1 0 14, fU 2 1 1 3, fX 3 (fun p => if m p = 2 then decide (u p 3 1 ≤ 14) else u p 3 1 == 0xFF),
       fX 4 (fun p => if m p = 2 then decide (1 ≤ u p 4 1) && decide (u p 4 1 ≤ 3) else u p 4 1 == 0),
       fX 5 (fun p => decide (u p 5 1 ≤ if m p = 1 then 1 else 0)),
       fX 6 (fun p => if u p 5 1 = 1 then decide (u p 6 2 ≤ 2047) else u p 6 2 == 0xFFFF), fU 12 4 1 10000000, fCh 16, fCh 18, fU 20 1 0 1, fR 21 3],
    more := fun c s =>
      let k := tinOf c.p
      firstErr [failIf (s.tinEng c.i).running (err Status.tinRunning 0),
        failIf ([k.srcA, k.srcB].any fun x => decide (x < 8) && (s.tinIn x).table.isNone) (err Status.tinUncal 0),
        if k.dest = 1 then s.regionErr c.port k.region else none],
    reg := fun c s => s.evFieldsCheck c.port (tinId c.i) (tinEvents c.p),
    run := fun c s => ((s.evFieldsApply c.port (tinId c.i) (tinEvents c.p)).onTinEng c.i fun e => { e with cfg := tinOf c.p }, .ok []) }

/-- TIN_MEAS_START (R443, R452): E_STATE in MODE OFF. -/
def opTinMeasStart : OpSpec :=
  { cls := [.tin], len := some 16, state := fun c s => stateIf s ((s.tinEng c.i).cfg.mode == 0),
    fields := fun _ s =>
      [fX 0 (fun p => allZero (slice p 0 12) || (match dtOf (slice p 0 12) with | some t => decide (t ≤ s.now + 1000 * uS) | none => false)), fR 12 4],
    more := fun c s => firstErr [failIf (s.tinEng c.i).running (err Status.tinRunning 0),
      if allZero (slice c.p 0 12) then none else failIf (decide (c.time 0 < s.now)) (eLate s.now (c.time 0))],
    run := fun c s =>
      (s.onTinEng c.i fun e =>
        { e with running := true, start := if allZero (slice c.p 0 12) then s.now else c.time 0, open' := none, sums := .zero, fixed := none,
                 ringPos := 0, noStop := 0, tooFast := 0, overlap := 0, discard := 0 }, .ok []) }

/-- TIN_MEAS_STOP (R452). -/
def opTinMeasStop : OpSpec :=
  { cls := [.tin], len := some 4, fields := fun _ _ => [fR 0 4],
    run := fun c s =>
      ((s.onTinEng c.i fun e => { e with running := false, open' := none, fixed := if e.running && e.sums.n != 0 then none else e.fixed }).tinIdle, .ok []) }

/-- TIN_STATS_READ (R453). Statistics of the stamps of STAMP mode are not given: MEAN to MAX are then free values. -/
def opTinStatsRead : OpSpec :=
  { cls := [.tin], priv := fun _ => .observer, changes := false, len := some 0, keys := fun _ => [],
    run := fun c s =>
      let e := s.tinEng c.i
      let x := e.fixed.getD e.sums
      let tail := [e.noStop, e.tooFast, e.overlap, e.discard].flatMap (leBytes 4) ++ zeros 8
      if e.cfg.mode = 1 then
        let r := (List.range 4).foldl (fun (a : State × List Byte) _ => let (v, b) := a.1.fresh; (b, a.2 ++ leBytes 8 v)) (s, [])
        (r.1, .ok (leBytes 8 x.n ++ r.2 ++ tail))
      else
        (s, .ok (leBytes 8 x.n ++ leBytes 8 (ofSigned 64 (if x.n = 0 then 0 else roundDiv x.sum x.n)) ++ leBytes 8 x.std ++
          leBytes 8 (ofSigned 64 x.min) ++ leBytes 8 (ofSigned 64 x.max) ++ tail)) }

/-- TIN_STAMP_READ (R453): the stamps read leave the queue. -/
def opTinStampRead : OpSpec :=
  { cls := [.tin], priv := fun _ => .observer, changes := false, len := some 4, keys := fun _ => [], fields := fun _ _ => [fU 0 1 1 64, fR 1 3],
    run := fun c s =>
      let e := s.tinEng c.i
      let xs := e.queue.take (c.u 0 1)
      (s.onTinEng c.i fun e => { e with queue := e.queue.drop (c.u 0 1), ovf := false },
        .ok (leBytes 1 xs.length ++ leBytes 1 (ofBool e.ovf) ++ zeros 2 ++ xs.flatMap TinStamp.bytes)) }

/-- TIN_STATUS (R454): the state of the engine and of the object's own input. -/
def opTinStatus : OpSpec :=
  { readOp [.tin] 0 (fun c s =>
      let x := s.tinIn c.i
      let cal := x.calBy.isSome || (s.tinRun c.i).isSome
      leBytes 1 (if cal then 2 else if (s.tinEng c.i).running then 1 else 0) ++
        leBytes 1 (if x.table.isNone then 0 else if x.stale s.cap.temp then 2 else 1) ++
        leBytes 2 (match x.table with | some t => (t.filter fun w => w != 0).length | none => 0) ++ leBytes 4 (ofSigned 32 x.calTemp) ++
        dtBytes x.calTime ++ leBytes 4 x.disagree ++ leBytes 8 x.edges) with
    ep := fun _ => true }

end Sys2Proof.Machine
end

