-- ==== Sys2Proof/Machine/Clocks.lean ====
section
/-! DEFINITION. Clocks, supplies and counters of work (11): the events of the reference, of the rails and of the DVFS sequencers, and
the opcodes 0x0A00 to 0x0A09. -/
namespace Sys2Proof.Machine

namespace Status
def dvfsBelowNeed : Nat := 0x10A0
def clockStopped : Nat := 0x10A1
def meterBusy : Nat := 0x10A2
end Status

/-! ### The reference (R384 to R391) -/

/-- REF_POLICY STOP applies: no coherent source is left, and there has been one (R387, R404). Only a device in RUN or REDUCED enters ENDPAPER for it, and
one that is there already records the cause (R30, R592). -/
def State.mustStop (s : State) : Bool :=
  let c := s.clk
  (s.runs || s.dev.st == .endpaper) && c.cfg.stop && c.everCoh && !(s.countsCoherent || (c.cfg.erefEn && c.qualE) || (s.recCandidate && c.qualR))
def State.refStop (s : State) : State := if s.mustStop then s.toEndpaper 5 0 0 else s

/-- The Endpaper cycle has come in which a STOP acts that was set without a coherent source (R408). -/
def State.stopDue (s : State) : State :=
  match s.clk.stopAt with
  | some t => if t ≤ s.now then (s.onClk fun c => { c with stopAt := none }).refStop else s
  | none => s

/-- A coarse tick in which no command waits: what is due comes about, Thread's selection among it (R347), and a STOP. -/
def State.tick (s : State) : State := (s.idle.timeSelect).stopDue

/-- What follows a change of the candidates: selection, coherence, own CLASS, policy, and lanes that a first reference enables. -/
def State.refMoved (s : State) : State := s.reselect.recohere.timeSelect
def State.refChanged (s : State) : State := s.refMoved.refStop.enableLanes

/-- QUALIFICATION_WINDOW_END: the window of REC or EREF ends. `nom` is the nominal frequency of EREF that the window found, `ppb` the
offset (R384). Only a candidate qualifies (R383, R408). -/
def execQualificationWindowEnd (isRec locked : Bool) (nom : Fin 4) (ppb : Int) (s : State) : Host.Outcome State Fault Refusal :=
  if s.dev.st == .off then .next s
  else
    let pass := locked && decide (ppb.natAbs ≤ 200000)
    .next ((s.onClk fun c =>
      if isRec then { c with qualR := pass && s.recCandidate, recPpb := ppb, lostR := false }
      else { c with qualE := pass && nom.val != 0 && c.cfg.erefEn, erefPpb := ppb, erefNom := if pass then nom.val else c.erefNom, lostE := false }).refChanged)

/-- A source is declared lost (R385): it is counted, EV_REF fires, and where it is the selected one the forced release will go to the source that is the
best one now (R391). -/
def State.sourceLost (s : State) (sel : Bool) : State :=
  let first := sel && !s.clk.lostSel
  let s1 := s.onClk fun c => { c with loss := inc32 c.loss, lostSel := c.lostSel || sel, relFrom := if first then s.now else c.relFrom }
  ((s1.onClk fun c => { c with lostTo := if first then s1.bestSource else c.lostTo }).refEvent).refChanged

/-- MISSING_EDGE: for 2 µs a candidate's raw input, or its PLL's output, has shown no edge (R385). A source is declared lost once, until a window of it has
ended again. -/
def execMissingEdge (isRec output : Bool) (s : State) : Host.Outcome State Fault Refusal :=
  if s.dev.st == .off then .next s
  else
    let c := s.clk
    if !isRec then
      if (c.sel = srcEref ∨ c.cfg.erefEn) ∧ !c.lostE then
        .next ((s.onClk fun c => { c with qualE := false, erefNom := 0, lostE := true }).sourceLost (c.sel == srcEref))
      else .next s
    else if output then
      let sel := c.sel == srcRec || c.sel == srcHold
      if (sel || s.recCandidate) && !c.lostR then .next ((s.onClk fun c => { c with qualR := false, lostR := true }).sourceLost sel) else .next s
    else if c.sel = srcRec ∧ !c.lostSel then
      .next (((s.onClk fun c => { c with sel := srcHold, holdAt := s.now, qualR := false, lastChange := s.now }).refEvent).refChanged)
    else .next (s.onClk fun c => { c with qualR := false }).refChanged

/-- HOLDOVER_MAX_EXPIRY: REC-HOLD has lasted HOLDOVER_MAX seconds (R386). -/
def execHoldoverMaxExpiry (s : State) : Host.Outcome State Fault Refusal :=
  if s.clk.sel = srcHold ∧ !s.clk.lostSel ∧ s.dev.st ≠ .off then .next (s.advanceTo (s.clk.holdAt + s.clk.cfg.holdMax * uS)).refChanged else .next s

/-- LIVE_SWITCH: the switch under way changes the input of the multiplexer (R388). -/
def execLiveSwitch (s : State) : Host.Outcome State Fault Refusal :=
  match s.clk.switchTo with
  | some src =>
    if s.clk.lostSel || s.dev.st == .off then .next s
    else .next ((s.onClk fun c => { c with liveSwitch := inc32 c.liveSwitch }).selectSource src).refChanged
  | none => .next s

/-- What a forced release does to a Quire: windows, Folios (each one that is not IDLE or ARMED, R113), cores, weave's crossing and a covariance run (R391). -/
def State.releaseQuire (s : State) (q : Nat) : State :=
  let s1 := (s.cancelWindows q (1024 + 32)).covarLost q
  ((List.range 32).foldl (fun a f => if (a.folio q f).st = .idle ∨ (a.folio q f).st = .armed then a else a.haltNow q f 11) s1).haltCores q 4

/-- The source that a forced release goes to: of those that were qualified when the selected one was lost, the best that still is (R391). -/
def State.releaseTarget (s : State) : Nat :=
  let c := s.clk
  if c.lostTo = srcRec ∧ s.recCandidate ∧ c.qualR then srcRec
  else if (c.lostTo = srcRec ∨ c.lostTo = srcEref) ∧ c.cfg.erefEn ∧ c.qualE then srcEref else srcInt

/-- LGA keeps nothing across a forced release (01, R391): its array lanes train again, the frames that it held are gone, and so is an armed launch. What
Endpaper has set and counts there stays (DEDUCED). -/
def LinkPort.lgaReset (x : LinkPort) : LinkPort :=
  let lost := x.slots.filter fun y => y.st == .armed
  { x with held := [], relay := [], slotLost := satAdd 32 x.slotLost lost.length,
           slots := x.slots.map fun y => if y.st = .armed then { y with st := .lost } else y }
def State.lgaReset (s : State) : State :=
  let s1 := ((s.onLink fun l => { l with ports := l.ports.map LinkPort.lgaReset }).onEv fun e => { e with outq := [] }).onLink fun l =>
    { l with lanes := l.lanes.map fun e => if 72 ≤ e.1 then (e.1, e.2.cutAt (s.charOf e.1) s.now) else e }
  (List.range 20).foldl (fun a k =>
    match (a.lane (72 + k)).st with
    | .disabled | .faulty => a
    | _ => (a.train (72 + k)).laneDone (72 + k)) s1

/-- FORCED_RELEASE: the islands of the device reference are released on the best source that was qualified, `gap` coarse ticks after
the last edge of the lost one; they are held for 64 cycles of the new source, so it cannot come earlier (R389 to R391). Device time has stood still since then. -/
def execForcedRelease (gap : Nat) (s : State) : Host.Outcome State Fault Refusal :=
  if !s.clk.lostSel || s.dev.st == .off then .next s
  else
    let src := s.releaseTarget
    let s1 := (List.range 16).foldl (fun a q => a.releaseQuire q) (s.setCauses allDacs mRelease true)
    let s2 := ((s1.capCut (List.range 16) 32).tinDiscard).onClk fun c => { c with pinned := [] }
    let s3 := (s2.moveTo (s2.now + max 64 gap * uTick)).capRestart (List.range 16) s2.now true
    let wait := src == srcInt && !s.clk.intLock
    let s4 := (s3.clearCauses allDacs mRelease).countDiscont.onClk fun c =>
      { c with forced := inc32 c.forced, relTo := s3.now, timeGap := true, rootReset := wait, waitCoh := c.waitCoh || wait }
    .next (s4.lgaReset.selectSource src).refChanged

/-- INT_PLL_LOCK: INT's PLL locks, and the islands that waited for it are released (R391, R403). -/
def execIntPllLock (s : State) : Host.Outcome State Fault Refusal :=
  if s.dev.st == .off then .next s
  else .next (s.onClk fun c => { c with intLock := true, rootReset := if c.sel = srcInt then false else c.rootReset }).refChanged

/-- PIN_ENTER: the QS–QC crossing of a Quire is pinned at the first coarse tick after its core island has reached P1, while it is
needed (R394). -/
def execPinEnter (q : Fin 16) (s : State) : Host.Outcome State Fault Refusal :=
  let p := s.pq q
  if s.needsPin q ∧ p ≠ 31 ∧ (s.coreIsl p).use ≤ 1 ∧ !s.clk.pinned.contains q.val ∧ !s.clk.lostSel ∧ !s.clk.rootReset then
    .next ((s.advanceTo (tickAfter (max s.now (s.coreIsl p).since))).onClk fun c => { c with pinned := q.val :: c.pinned })
  else .next s

/-- DVFS_TRANSITION_DONE: the transition of a core island ends, and the sequencer goes on to its target (R396, R397). -/
def execDvfsTransitionDone (p : Fin 17) (s : State) : Host.Outcome State Fault Refusal :=
  match (s.coreIsl p).trans with
  | none => .next s
  | some (pt, t) =>
    let s1 := s.advanceTo t
    .next (s1.onCoreIsl p fun c =>
      ({ c with trans := none, use := pt, since := if c.use = pt then c.since else t, count := inc32 c.count } : CoreIsl).begin t)

/-- FREQ_MEASURE_DONE: the window of the meter ends with CLK_A's count, or a clock has shown no edge (R410). -/
def execFreqMeasureDone (count : Option Nat) (s : State) : Host.Outcome State Fault Refusal :=
  match s.clk.meter with
  | none => .next s
  | some m =>
    let s1 := s.onClk fun c => { c with meter := none }
    let w := wait .freqMeter 0 0
    .next (match count with
      | none => s1.failWait w (err Status.clockStopped 0)
      | some n => s1.resolve w (leBytes 8 n ++ leBytes 8 (2 ^ m.wlog2) ++ leBytes 8 (n * 2 ^ 32 / 2 ^ m.wlog2)))

/-! ### The rails (R400, R401, R403) -/

/-- The islands that an on-die regulator feeds (R400): HIF, SPN, IG0–IG3, LGA, MC0–MC1 and the Quires'. -/
def regulated (i : Nat) : Bool := i == 0 || (decide (3 ≤ i) && decide (i ≤ 10)) || decide (16 ≤ i)

/-- RAIL_GOOD: a rail's voltage enters its window; with the last one the moment S has come. VAUX has a row of its own. A regulator that is good again
releases its island. -/
def execRailGood (r : Rail) (s : State) : Host.Outcome State Fault Refusal :=
  match r with
  | .regulator i => .next (s.onClk fun c => { c with regsBad := c.regsBad.filter fun k => k != i.val })
  | .rail n =>
    if n.val = 0 then .next s
    else
      let s1 := s.onClk fun c => let g := setBit c.good n true
        { c with good := g, vbias := c.vbias && !(bitOf g 9 && bitOf g 10) }
      .next (if s1.clk.good = 2047 ∧ s1.clk.sAt.isNone then ((s1.onClk fun c => { c with sAt := some s.now }).raisePoints).enableLanes else s1)

/-- FILTER as it was in force at an instant (R414). -/
def Clk.filterAt (c : Clk) (t : Nat) : Nat :=
  match c.filterWas.find? fun e => decide (t < e.2) with
  | some e => e.1
  | none => c.filter

/-- RAIL_LOSS: a rail has now been outside its window for `e.us` µs without a break. It is lost where that is FILTER or more, FILTER being the value with which
the excursion began (R400, R414). Before S a BOOT goes on (R403). The loss of VBIAS_P or VBIAS_N is a bias chiplet fault and clamps every output (R400,
R468). A regulator outside its window holds its island in reset, and so does a rail: the host interface loses its state. -/
def execRailLoss (e : Excursion) (s : State) : Host.Outcome State Fault Refusal :=
  if e.us < s.clk.filterAt (s.now - e.us * uUs) then .next s
  else match e.rail with
  | .regulator i =>
    let s1 := s.onClk fun c => { c with regsBad := i.val :: c.regsBad.filter fun k => k != i.val }
    .next (if !regulated i then s else if i.val = 0 ∧ s.dev.st ≠ .off then s1.hifReset else s1)
  | .rail n =>
    if n.val = 0 then .next s
    else
      let s1 := s.onClk fun c => { c with good := setBit c.good n false, lost := setBit c.lost n true, sAt := none }
      let s2 := if 9 ≤ n.val then (s1.onClk fun c => { c with vbias := true }).biasOff else s1
      let s3 := if s.runs || (s.dev.st == .boot && s.clk.sAt.isSome) || s.dev.st == .endpaper then s2.toEndpaper 1 n 0 else s2
      .next (if (n.val = 1 ∨ n.val = 8) ∧ s.dev.st ≠ .off then s3.hifReset else s3)

/-! ### Opcodes -/

/-- The registration of EV_REF. -/
def refEvents (p : List Byte) : List EvField := [evField 0xA00 true (u p 8 2)]

/-- REF_CFG_SET (R387, R408). A REF_POLICY of STOP that finds no coherent source acts in the next Endpaper cycle. -/
def opRefCfgSet : OpSpec :=
  { cls := [.device], priv := fun _ => .owner, ep := fun _ => true, len := some 12, keys := fun _ => [devKey 0xA00],
    fields := fun _ _ => [fU 0 1 0 1, fU 1 1 0 1, fR 2 2, fU 4 4 1 86400, fCh 8, fR 10 2],
    reg := fun c s => s.evFieldsCheck c.port deviceId (refEvents c.p),
    run := fun c s =>
      let s1 := ((s.evFieldsApply c.port deviceId (refEvents c.p)).onClk fun k =>
        { k with cfg := { erefEn := c.u 0 1 == 1, stop := c.u 1 1 == 1, holdMax := c.u 4 4, evRef := c.u 8 2 },
                 qualE := k.qualE && c.u 0 1 == 1 }).refMoved.enableLanes
      (if s1.mustStop then s1.onClk fun k => { k with stopAt := some ((s1.now / uUs + 1) * uUs) } else s1, .ok []) }

/-- REF_STATUS (R409): the read clears TIME_GAP. -/
def opRefStatus : OpSpec :=
  { cls := [.device], priv := fun _ => .observer, ep := fun _ => true, changes := false, len := some 0, keys := fun _ => [],
    run := fun _ s =>
      let c := s.clk
      let hold := if c.sel = srcHold then min 86400 ((s.now - c.holdAt) / uS) else 0
      (s.onClk fun c => { c with timeGap := false },
        .ok (leBytes 1 c.sel ++ leBytes 1 c.recPort ++ leBytes 1 (ofBool c.intLock + 2 * ofBool c.qualE + 4 * ofBool c.qualR) ++ leBytes 1 c.erefNom ++
          leBytes 4 (ofSigned 32 c.erefPpb) ++ leBytes 4 (ofSigned 32 c.recPpb) ++ leBytes 4 hold ++ leBytes 4 c.forced ++ leBytes 4 c.liveSwitch ++
          leBytes 4 c.loss ++ leBytes 1 (ofBool c.timeGap) ++ zeros 3 ++ dtBytes c.lastChange ++ zeros 4)) }

/-- FREQ_MEASURE (R410). -/
def opFreqMeasure : OpSpec :=
  { cls := [.device], ep := fun _ => true, len := some 8, keys := fun _ => [],
    fields := fun _ _ => [fU 0 1 0 47, fX 1 (fun p => decide (u p 1 1 ≤ 47) && u p 0 1 != u p 1 1), fR 2 2, fU 4 1 10 32, fR 5 3],
    more := fun _ s => failIf s.clk.meter.isSome (err Status.meterBusy 0),
    run := fun c s =>
      (s.onClk fun k => { k with meter := some { a := c.u 0 1, b := c.u 1 1, wlog2 := c.u 4 1 } }, .accepted [wait .freqMeter 0 0] true none) }

/-- The rails that feed an island (01), by its number in the clocks' own numbering. -/
def islandRails (i : Nat) : List Nat :=
  if i = 0 then [1, 8] else if i ≤ 2 then [0] else if i = 3 then [1] else if i ≤ 8 then [1, 2, 3] else if i ≤ 10 then [1, 6, 7]
  else if i ≤ 14 then [4, 5] else if i = 15 then [0, 9, 10] else [1]

/-- The nominal clock of an island in kHz (01, R202, R382, R395). -/
def State.islandKhz (s : State) (i : Nat) : Nat :=
  let onRef := s.rootIslands.contains i && !s.clk.lostSel && !s.clk.rootReset
  if i = 0 then 1000000 else if i = 1 then (if onRef then 400000 else 50000) else if i = 2 then 312500 else if i = 3 then 1250000
  else if i ≤ 7 then 156250 * 2 ^ (s.laneCfg (i - 4)).rate else if i = 8 then 625000 else if i ≤ 10 then 1000000 else if i ≤ 14 then 781250
  else if i = 15 then (if onRef then 62500 else 50000)
  else if i ≤ 32 then lget 0 [1800000, 1400000, 950000, 480000, 0] (s.coreIsl (i - 16)).use else 781250

/-- STATE of an island (R411). While SYS_RST_N is low every island but EPI, TMU and BSC is in reset (R402). -/
def State.islandState (s : State) (i : Nat) : Nat :=
  let root := s.rootIslands.contains i
  if !((islandRails i).all fun r => bitOf s.clk.good r) || (s.dev.st == .endpaper && decide (11 ≤ i) && decide (i ≤ 14)) then 4
  else if (root && s.clk.rootReset) || (i == 0 && s.dev.perst) || s.clk.regsBad.contains i || (s.dev.rst && !([1, 2, 15].contains i)) then 0
  else if root && s.clk.lostSel then 3
  else if decide (16 ≤ i) && decide (i ≤ 32) && (s.coreIsl (i - 16)).use == 4 then 2
  else if decide (33 ≤ i) && (match s.boundTo (i - 33) with | some q => s.pers q == .off | none => true) then 2 else 1

/-- A demodulator's gate is open (R135): from 64 input samples before a window's first sample reaches the mixer, 34 ns after the land (R152), until its
result is delivered, and throughout for a member of weave or of a covariance run (R147, R151). -/
def State.demodGate (s : State) (q f : Nat) : Bool :=
  let d := s.demod q f
  let r := s.roq q
  !d.wins.isEmpty || (d.pend.any fun p => decide (outTime p.start + 34 * uNs ≤ s.now + 64 * uSample)) ||
    (r.weave.enable && bitOf r.weave.members f) || r.covar.any fun c => c.mems.any fun m => m.folio == f

/-- The open gates of the core island of a physical Quire (R26, R399): 0 to 5 the gathering arrays, 6 the channeliser. In SERVICE only what is under test
is open. -/
def State.coreGates (s : State) (p : Nat) : List Nat :=
  match s.boundTo p with
  | none => []
  | some q => match s.pers q with
    | .control => if s.weaves q then [5] else []
    | .correlate | .beamform => List.range 7
    | .service => (List.range 6).filter fun a => s.svc.tests.any fun t => t.unit.kind == 5 && t.unit.pq == p && t.unit.a == a
    | .off => []

/-- The open gates of a synthesis island (R26, R135, R399): 0 to 31 the Folios, 32 to 63 their demodulators, 64 to 67 the feedback cores. -/
def State.synGates (s : State) (p : Nat) : List Nat :=
  match s.boundTo p with
  | none => []
  | some q => match s.pers q with
    | .control => List.range 32 ++ ((List.range 32).filter fun f => s.demodGate q f).map (· + 32) ++ [64, 65, 66, 67]
    | .service => ((s.svc.tests.filter fun t => t.unit.pq == p && (t.unit.kind == 6 || t.unit.kind == 7)).map fun t =>
        if t.unit.kind = 6 then t.unit.a else 64 + t.unit.a) ++ ((List.range 32).filter fun f => (s.roq q).covar.any fun c => c.mems.any fun m => m.folio == f).map (· + 32)
    | _ => []

/-- The open gates of an island outside the Quires (R399): what the configuration and the commands have put to work there. The spec does not name its
blocks. DESIGN CHOICE: DMA channels, interval engines, lanes whose transmitter is on, DAC lines whose output switch is closed, bias channels not clamped. -/
def State.deviceGates (s : State) (i : Nat) : List Nat :=
  if i = 0 then (List.range 16).filter fun n => (s.dmaCh n).busy
  else if i = 2 then (List.range 4).filter fun n => (s.tinEng n).running
  else if 4 ≤ i ∧ i ≤ 7 then (List.range 18).filter fun k => (s.lane (18 * (i - 4) + k)).transmits
  else if i = 8 then (List.range 20).filter fun k => (s.lane (72 + k)).transmits
  else if 11 ≤ i ∧ i ≤ 14 then (chipDacs (i - 11)).filter fun n => !(s.dac n).opened
  else if i = 15 then (List.range 64).filter fun n => (s.bch n).st != .clamped
  else [0]

/-- GATES of an island (R399, R411): no gate is open in reset or without power. The spec does not give the places of the bits: the word that a set of open
gates makes is a free value. -/
def State.gates (s : State) (i : Nat) : Nat :=
  let l := if 33 ≤ i then s.synGates (i - 33) else if 16 ≤ i then s.coreGates (i - 16) else s.deviceGates i
  if s.islandState i = 0 ∨ s.islandState i = 4 ∨ l.isEmpty then 0 else (Config.gateWord i l).toNat

/-- The island that an object names. -/
def State.islandOf (s : State) (c : Cmd) : Nat := if c.i = 16 then 16 + s.pq c.q else if c.i = 17 then 33 + s.pq c.q else c.i

/-- ISLAND_STATUS (R411). -/
def opIslandStatus : OpSpec :=
  { cls := [.island], priv := fun _ => .observer, ep := fun _ => true, changes := false, len := some 0, keys := fun _ => [],
    run := fun c s =>
      let i := s.islandOf c
      let x := tget Island.reset s.clk.islands i
      (s, .ok (leBytes 1 (s.islandState i) ++ leBytes 1 (ofBool (((islandRails i).all fun r => bitOf s.clk.good r) && !s.clk.regsBad.contains i)) ++
        leBytes 1 (if 16 ≤ i ∧ i ≤ 32 then (s.coreIsl (i - 16)).use else 0xFF) ++
        leBytes 1 (ofBool (decide (16 ≤ c.i) && s.clk.pinned.contains c.q)) ++ leBytes 4 (s.gates i) ++ leBytes 4 x.discont ++ leBytes 4 x.slips ++
        leBytes 4 (s.islandKhz i) ++ zeros 4)) }

/-- DVFS_SET (R398, R412). -/
def opDvfsSet : OpSpec :=
  { cls := [.quire], wild := true, len := some 4, state := fun c s => stateIf s (s.inPlan c.q),
    fields := fun _ _ => [fU 0 1 0 1, fX 1 (fun p => decide (u p 1 1 ≤ if u p 0 1 = 1 then 3 else 0)), fR 2 2],
    more := fun c s => failIf (c.u 0 1 == 1 && decide (s.dvfsNeed c.q < c.u 1 1)) (err Status.dvfsBelowNeed 0),
    run := fun c s => ((s.onClk fun k => { k with modes := tput 0 k.modes c.q (if c.u 0 1 = 1 then c.u 1 1 + 1 else 0) }).raisePoints, .ok []) }

/-- DVFS_GET (R412). -/
def opDvfsGet : OpSpec :=
  readOp [.quire] 0 fun c s =>
    let m := tget 0 s.clk.modes c.q
    let x := s.coreIsl (s.pq c.q)
    leBytes 1 (if m = 0 then 0 else 1) ++ leBytes 1 (m - 1) ++ leBytes 1 (s.dvfsNeed c.q) ++ leBytes 1 x.use ++ leBytes 1 (ofBool x.trans.isSome) ++
      zeros 3 ++ leBytes 4 x.count ++ zeros 4

/-- TONE_SAMPLES and READOUTS of a Quire (R406). -/
def State.tonesOf (s : State) (q : Nat) : Nat := (tget SynQuire.reset s.syn.quires q).tones
def State.readoutsOf (s : State) (q : Nat) : Nat := (tget (RoQuire.reset q) s.ro q).readouts

/-- The coarse tick of a snapshot. -/
def State.snapTick (s : State) : Nat := s.now / uTick * uTick

/-- The energy counters integrate once in each microsecond (R405). What an island has drawn since they were last looked at is a free value, of at most 175 W
(18) and 3 % more. -/
def State.integrate (s : State) : State :=
  let us := s.now / uUs - s.clk.energyAt / uUs
  if us = 0 then s
  else
    let r := (List.range 50).foldl (fun (a : State × List Nat) k =>
      let (v, b) := a.1.fresh
      (b, a.2 ++ [(lget 0 s.clk.energy k + v % (us * 181)) % 2 ^ 64])) (s, [])
    r.1.onClk fun c => { c with energy := r.2, energyAt := s.now }

/-- ENERGY_READ (R405, R406, R413). -/
def opEnergyRead : OpSpec :=
  { cls := [.device], priv := fun _ => .observer, ep := fun _ => true, changes := false, len := some 0, keys := fun _ => [],
    run := fun _ s =>
      let s1 := (s.formTo s.now).integrate
      let sum := fun (f : Nat → Nat) => (List.range 16).foldl (fun (a : Nat) q => a + f q) 0
      let lanes := (List.range 92).foldl (fun (a : Nat) n => a + ((s.lane n).accrue (s.laneRate n) s.now).txBits) 0
      (s1, .ok (dtBytes s.snapTick ++ zeros 4 ++ s1.clk.energy.flatMap (leBytes 8) ++
        [s.clk.cellops, s.clk.pairs, sum s1.tonesOf, sum s1.readoutsOf, lanes].flatMap (leBytes 8))) }

/-- WORK_READ (R413). -/
def opWorkRead : OpSpec :=
  { cls := [.quire], priv := fun _ => .observer, changes := false, len := some 0, keys := fun _ => [],
    run := fun c s =>
      let s1 := s.formTo s.now
      (s1, .ok (dtBytes s.snapTick ++ zeros 4 ++ [tget 0 s.clk.qcells c.q, s1.tonesOf c.q, s1.readoutsOf c.q].flatMap (leBytes 8))) }

/-- SUPPLY_CFG_SET (R414). -/
def opSupplyCfgSet : OpSpec :=
  { cls := [.device], priv := fun _ => .owner, ep := fun _ => true, len := some 4, keys := fun _ => [devKey 0xA08],
    fields := fun _ _ => [fU 0 1 1 64, fR 1 3], run := fun c s =>
      (s.onClk fun k => { k with filter := c.u 0 1, filterWas := (k.filterWas.filter fun e => decide (s.now < e.2 + 65 * uUs)) ++ [(k.filter, s.now)] }, .ok []) }

/-- The monitor channels of a rail (R470). -/
def railMons (n : Nat) : List Nat :=
  lget [] [[34, 35], [36, 37, 38, 39, 40, 41, 42, 43], [44, 45], [46, 47], [48, 49], [50, 51], [52, 53], [54], [55], [56], [57]] n

/-- The voltage of lowest magnitude among a rail's sense points, in mV. -/
def State.railMv (s : State) (n : Nat) : Int :=
  match (railMons n).map fun m => (s.mon m).last.value with
  | [] => 0
  | v :: vs => roundDiv (vs.foldl (fun (a : Int) x => if x.natAbs < a.natAbs then x else a) v) 1000

/-- SUPPLY_STATUS (R414): the read clears LOST. -/
def opSupplyStatus : OpSpec :=
  { cls := [.device], priv := fun _ => .observer, ep := fun _ => true, changes := false, len := some 0, keys := fun _ => [],
    run := fun _ s =>
      (s.onClk fun c => { c with lost := 0 },
        .ok (leBytes 2 s.clk.good ++ leBytes 2 s.clk.lost ++ leBytes 1 s.clk.filter ++ zeros 3 ++
          (List.range 11).flatMap fun n => leBytes 4 (ofSigned 32 (s.railMv n)))) }

end Sys2Proof.Machine
end

