-- ==== Sys2Proof/Machine/Shift.lean ====
section
/-! DEFINITION. What a step of device time does to the state (10, R360): the instants that the device keeps for work under way are
written in the new time, so that elapsed times go on; schedules made in device time stay as they are. -/
namespace Sys2Proof.Machine

/-- An instant in the new time, `d` units later. -/
def later (d : Int) (t : Nat) : Nat := ((t : Int) + d).toNat
/-- The same for an index of a grid of `g` units. -/
def laterIx (d : Int) (g n : Nat) : Nat := ((n : Int) + d / (g : Int)).toNat

def FbCore.shift (c : FbCore) (d : Int) : FbCore :=
  let ix := laterIx d uCycle
  { c with next := ix c.next, wait := c.wait.map fun w => { w with since := ix w.since }, swap := c.swap.map fun (e, k, n) => (e, k, ix n),
           lastSt := c.lastSt.map fun (t, m, a, v) => (ix t, m, a, v), rfifo := c.rfifo.map fun x => { x with cycle := ix x.cycle },
           ififo := c.ififo.map fun x => { x with cycle := ix x.cycle }, eilat := c.eilat.map fun (x : Option Nat) => x.map ix }

def Hist.forget (h : Hist) : Hist := { h with old := [] }

def FbQuire.shift (b : FbQuire) (d : Int) : FbQuire :=
  let ix := laterIx d uCycle
  { b with cores := b.cores.map fun (e : Nat × FbCore) => (e.1, e.2.shift d), flags := b.flags.map fun (e : Nat × Hist) => (e.1, e.2.forget),
           sendq := b.sendq.map fun x => { x with issue := ix x.issue }, lastLaunch := b.lastLaunch.map ix,
           inbound := b.inbound.map fun x => { x with arrive := ix x.arrive }, written := (ix b.written.1, b.written.2) }

/-- A Folio that plays nothing: what it kept of the old time is dropped. -/
def Folio.shift (fo : Folio) (d : Int) : Folio :=
  { fo with fr := fo.fr.map Hist.forget, genA := .reset, genB := .reset, cut := none, latch := fo.latch.map (laterIx d uSample), trigQ := [], evLog := [],
            acqs := [], dp := none, prevDp := 0, stop0 := none, frOld := [], rr := { fo.rr with log := [] } }

def LaneSt.shift (l : LaneSt) (d : Int) : LaneSt :=
  { l with since := later d l.since, cmdTest := l.cmdTest.map fun (e : Nat × Bool) => (later d e.1, e.2), left := l.left.map fun (e : Nat × Bool) => (later d e.1, e.2),
           errs := l.errs.map fun (e : Nat × Nat) => (later d e.1, e.2), identAt := later d l.identAt, txFrom := later d l.txFrom, skipAt := later d l.skipAt,
           identTx := later d l.identTx, frames := l.frames.map fun f => { f with start := later d f.start },
           pres := l.pres.map fun p => { p with start := later d p.start, stop := later d p.stop, cyc := none }, joinAt := 0, rdAt := later d l.rdAt }

/-- A port: launch slots whose time has passed are LATE (R360, R369), the offsets are those of the new time. -/
def LinkPort.shift (p : LinkPort) (d : Int) (now : Nat) : LinkPort :=
  let past := fun (x : Slot) => x.st == .armed && decide (x.time < now)
  { p with held := p.held.map fun x => { x with at' := later d x.at' }, relay := p.relay.map fun (e : Nat × Nat) => (e.1, later d e.2),
           peers := p.peers.map fun x => { x with sentAt := later d x.sentAt }, vecAt := later d p.vecAt,
           ignore := p.ignore.map fun (e : Nat × Nat) => (e.1, later d e.2), exch := none, thetas := p.thetas.map fun t => t + roundDiv (2 * d) 25,
           slots := p.slots.map fun (x : Slot) => if past x then { x with st := .late } else x,
           slotLate := satAdd 32 p.slotLate (p.slots.filter past).length }

/-- S of a pulse schedule, and the active edge of pulse `k` without FINE (R365). -/
def Trig.first (t : Trig) : Nat := roundUp t.start uSample
def Trig.pulse (t : Trig) (k : Nat) : Nat := t.first + k * t.period * uSample

/-- The first pulse of a periodic schedule at or after an instant. -/
def Trig.from (t : Trig) (now : Nat) : Nat := if now ≤ t.first ∨ t.period = 0 then 0 else ceilDiv (now - t.first) (t.period * uSample)

/-- A pin: a one-shot pulse whose time has passed is MISSED, a periodic schedule goes on on its grid. -/
def Trig.shift (t : Trig) (d : Int) (now : Nat) : Trig :=
  let t1 := { t with activeTo := later d t.activeTo }
  if !t.scheduled then t1
  else if t.count = 1 then (if t.first < now then { t1 with next := 1, missed := inc32 t.missed } else t1)
  else { t1 with next := t.from now }

def DacLine.shift (x : DacLine) (d : Int) : DacLine :=
  { x with mutes := x.mutes.map (later d), muteAt := x.muteAt.map (later d), zeroAt := later d x.zeroAt, resumeAt := x.resumeAt.map (later d),
           settleTo := x.settleTo.map (later d), cal := { x.cal with from' := later d x.cal.from', until' := x.cal.until'.map (later d) } }

def AdcLine.shift (x : AdcLine) (d : Int) : AdcLine :=
  { x with was := x.was.map fun (e : Nat × AdcCfg) => (later d e.1, e.2), satAt := later d x.satAt,
           gaps := x.gaps.map fun (g : Nat × Option Nat) => (later d g.1, g.2.map (later d)), cal := { x.cal with from' := later d x.cal.from', until' := x.cal.until'.map (later d) } }

def CapUnit.shift (x : CapUnit) (d : Int) : CapUnit := { x with force := x.force.map (later d), holdTo := later d x.holdTo }

def Bsc.shift (b : Bsc) (d : Int) (now : Nat) : Bsc :=
  { b with k := now / uUs, sysSlot := now / uUs, hostSlot := now / uUs, bgAt := later d b.bgAt,
           chs := b.chs.map fun (e : Nat × BiasCh) => (e.1, { e.2 with rampAt := later d e.2.rampAt, sw := e.2.sw.map fun w => { w with step := match w.step with
             | .held k => .held (laterIx d uUs k) | .rel k => .rel (laterIx d uUs k) | x => x } }),
           seq := { b.seq with first := laterIx d uUs b.seq.first, passFrom := b.seq.passFrom.map (laterIx d uUs) },
           cal := { b.cal with classes := b.cal.classes.map fun (c : CalClass) => { c with last := later d c.last } } }

def Clk.shift (c : Clk) (d : Int) : Clk :=
  { c with incoh := c.incoh.map fun (e : Nat × Option Nat) => (later d e.1, e.2.map (later d)), holdAt := later d c.holdAt, evTick := none,
           cores := c.cores.map fun (e : Nat × CoreIsl) =>
             (e.1, { e.2 with since := later d e.2.since, trans := e.2.trans.map fun (x : Nat × Nat) => (x.1, later d x.2) }),
           vauxAt := later d c.vauxAt, relFrom := later d c.relFrom, relTo := later d c.relTo, sAt := c.sAt.map (later d) }

def Handover.shift (h : Handover) (d : Int) : Handover := match h with | .pause a b t r => .pause a b (later d t) r | x => x

def Dev.shift (v : Dev) (d : Int) : Dev :=
  { v with causeAt := later d v.causeAt, streams := v.streams.map fun (e : Nat × Stream) => (e.1, { e.2 with chainAt := later d e.2.chainAt }),
           held := v.held.map fun h => { h with since := later d h.since }, bootAt := later d v.bootAt, claims := [], claimsAt := 0,
           smbus := { v.smbus with since := later d v.smbus.since } }

def Svc.shift (v : Svc) (d : Int) : Svc :=
  { v with transients := v.transients.map fun (e : FUnit × Nat) => (e.1, later d e.2),
           corrected := v.corrected.map fun (e : FUnit × Nat × List Nat) => (e.1, e.2.1, e.2.2.map (later d)),
           handover := v.handover.shift d, trial := v.trial.map fun (e : Nat × Nat) => (e.1, later d e.2), tests := v.tests.map fun t => { t with till := later d t.till },
           migration := v.migration.map fun m => { m with since := later d m.since } }

/-- The first channel sample at or after an instant. -/
def PlanClk.sampleFrom (k : PlanClk) (t : Nat) : Nat := ceilDiv (ceilDiv (t * k.mul) uSample - k.goff) k.per

/-- The plans after a step from `old` to `now` (R224, R256, R269). Where no block has begun, the plans start at the first boundary that the new time leaves. Else
the integration in progress ends, SHORT and STEPPED; the block that the step cuts, and what the new time leaves of the block into which it leads, are void: no
integration covers them. -/
def Plans.shift (p : Plans) (old now : Nat) : Plans :=
  let waits := fun (r : PlanRun) => !r.active || r.st == .pending
  match p.ct.cfg with
  | none => p
  | some k =>
    let c := p.ct
    let j0 := p.clk.sampleFrom old
    let j1 := p.clk.sampleFrom now
    let next := fun (g : Nat → Nat) => p.chans.map fun (e : Nat × Chan) => (e.1, { e.2 with next := g e.2.next })
    if !(p.corr.run.active || p.beam.run.active) then p
    else if waits p.corr.run && waits p.beam.run && c.released == c.nextB then
      let n := max (c.num c.nextB) (ceilDiv (j1 - c.origin) k.b)
      { p with chans := next fun _ => c.origin + n * k.b, ct := { c with off := (n : Int) - c.nextB } }
    else
      let dj : Int := (j1 : Int) - j0
      let whole := c.place k.b j0 == (c.nextB, 0)
      let e := if whole then c.nextB else c.nextB - 1
      let last := if (j1 - c.origin) % k.b = 0 then c.nextB else c.nextB + 1
      { p with
        chans := next fun j => ((j : Int) + dj).toNat,
        ct := { c with off := ((j1 - c.origin) / k.b : Nat) - (c.nextB : Int), was := c.was ++ [(c.nextB, c.off)], nextB := last,
                       seam := (j1, dj, c.off) :: c.seam.take 3, void := c.void ++ (List.range (last - e)).map fun i => e + i },
        corr := { p.corr with cur := p.corr.cur.map fun (x : Integ) =>
          if e < x.last then { x with last := max x.first e, flags := x.flags ||| 6 } else x } }

/-- Device time moves by `d` (R360). What ends, ends before; then the instants are written anew. -/
def State.stepTime (s : State) (d : Int) : State :=
  let s1 := (List.range 16).foldl (fun (a : State) q =>
    let b := (a.cancelWindows q (1024 + 64)).covarLost q
    (List.range 32).foldl (fun (c : State) f => if (c.folio q f).busy then c.haltNow q f 10 else c) b) s
  let s2 := (((List.range 16).foldl State.capPass (s1.capCut (List.range 16) 64)).tinDiscard.runTails).formTo (s1.now + lOut * uSample)
  let now := later d s2.now
  let s3 : State := { s2 with
    now := now, dev := s2.dev.shift d, svc := s2.svc.shift d,
    trust := { s2.trust with nonces := s2.trust.nonces.map fun (e : Nat × Option (List Byte × Nat)) => (e.1, e.2.map fun x => (x.1, later d x.2)) },
    ev := { s2.ev with flights := s2.ev.flights.map fun (x : Flight) => { x with time := later d x.time },
                       outq := s2.ev.outq.map fun (e : Nat × Nat) => (e.1, later d e.2), acted := [],
                       before := s2.ev.before.map fun (e : Nat × List (Nat × EvChan)) => (later d e.1, e.2),
                       chans := s2.ev.chans.map fun (e : Nat × EvChan) => (e.1, { e.2 with coincAt := none }) },
    syn := { quires := s2.syn.quires.map fun (e : Nat × SynQuire) =>
               (e.1, { e.2 with envOld := [], folios := e.2.folios.map fun (x : Nat × Folio) => (x.1, x.2.shift d) }),
             formed := laterIx d uSample s2.syn.formed },
    ro := s2.ro.map fun (e : Nat × RoQuire) => (e.1, { e.2 with kernOld := [] }),
    fb := s2.fb.map fun (e : Nat × FbQuire) => (e.1, e.2.shift d),
    clk := s2.clk.shift d, plans := s2.plans.shift s2.now now,
    link := { s2.link with lanes := s2.link.lanes.map fun (e : Nat × LaneSt) => (e.1, e.2.shift d), ports := s2.link.ports.map fun p => p.shift d now,
                           trigs := s2.link.trigs.map fun t => t.shift d now },
    rf := { s2.rf with down := s2.rf.down.map fun (e : Nat × Nat × Option Nat) => (e.1, later d e.2.1, e.2.2.map (later d)), dacs := s2.rf.dacs.map fun (e : Nat × DacLine) => (e.1, e.2.shift d), adcs := s2.rf.adcs.map fun (e : Nat × AdcLine) => (e.1, e.2.shift d) },
    cap := { s2.cap with units := s2.cap.units.map fun (e : Nat × CapUnit) => (e.1, e.2.shift d) },
    bsc := s2.bsc.shift d now,
    delayed := s2.delayed.map fun (e : Delayed) => { e with time := later d e.time } }
  let late := s3.dev.timed.filter fun t => decide (t.time < now)
  let s4 := (late.foldl (fun (a : State) t => a.endTimed t (fun _ => true) (eLate now t.time)) s3).onDev fun v =>
    { v with timed := v.timed.filter fun t => !decide (t.time < now) }
  s4.capRestart (List.range 16) s2.now false

end Sys2Proof.Machine
end

