-- ==== Sys2Proof/Machine/Frames.lean ====
section
/-! DEFINITION. What a receiver does with every frame of an array link before its consumer sees it (09, R311 to R318, R326). -/
namespace Sys2Proof.Machine

/-- The common header (R312). -/
structure Hdr where
  cls : Nat
  dest : Nat
  src : Nat
  hops : Nat
  deriving DecidableEq, Repr

/-- The header that 8 bytes spell. -/
def hdrOf (b : List Byte) : Hdr :=
  { cls := u b 0 1 % 16, dest := u b 1 3, src := u b 4 3, hops := u b 7 1 + bits (u b 0 1) 4 2 * 256 }

/-- Every device's address (R312). -/
def bcastAddr : Nat := 0x3FFFF

/-- A frame is pre-emptive (R311). -/
def preClass (c : Nat) : Bool := c == 1 || c == 2

/-- LEN of a class of non-pre-emptive frames (R311). -/
def lenOfClass (c n : Nat) : Bool :=
  if c = 3 then decide (20 ≤ n) && decide (n ≤ 4084) else if c = 4 then n == 16 else decide (32 ≤ n) && decide (n ≤ 4128)

/-- The class is no reserved one, and every field of the header is in range (R312, R314). Only CMD and EVENT may be broadcast (R322). -/
def hdrOk (b : List Byte) : Bool :=
  let h := hdrOf b
  decide (1 ≤ h.cls) && decide (h.cls ≤ 5) && bits (u b 0 1) 6 2 == 0 && decide (h.dest ≤ bcastAddr) && decide (h.src < bcastAddr) &&
    (h.dest != bcastAddr || h.cls == 3 || h.cls == 4) &&
    (if preClass h.cls then b.length == 28 else lenOfClass h.cls (u b 12 2) && u b 14 2 == 0 && b.length == 20 + u b 12 2)

/-- The right of a class (R311, R326). -/
def classRight (c : Nat) : Option Nat := if c = 1 then some 1 else if c = 2 then some 0 else if c = 4 then some 2 else if c = 5 then some 3 else none

/-- The first reason for which a receiver drops a frame (R318). -/
def State.frameDrop (s : State) (p : Nat) (whole : Bool) (b : List Byte) : Option PCount :=
  let h := hdrOf b
  if !whole then some .aborted
  else if decide (b.length < 12) || leNat (b.drop (b.length - 4)) != (crc32c (b.take (b.length - 4))).toNat then some .crcErr
  else if !hdrOk b then some .unknownClass
  else if (match classRight h.cls with | some k => !bitOf (s.port p).rights k | none => false) then some .rightDrop
  else if decide (h.dest ≠ s.dev.addr) && h.dest != bcastAddr && decide (1023 ≤ h.hops) then some .hopDrop
  else none

/-- A frame can arrive: some lane of the port is UP. -/
def State.hears (s : State) (p : Nat) : Bool := s.dev.st != .off && (portLanes p).any fun n => (s.lane n).st == .up

/-- A frame arrives on a port: the state with it counted, and its header if it passes. -/
def State.frameIn (s : State) (p : Nat) (whole : Bool) (b : List Byte) : State × Option Hdr :=
  match s.frameDrop p whole b with
  | some c => (s.countPort p c, none)
  | none => (s.countPort p .framesRx, some (hdrOf b))

end Sys2Proof.Machine
end

