-- ==== Sys2Proof/Machine/LinkOps.lean ====
section
/-! DEFINITION. Array links (09): the topology, relaying and broadcasts (R319 to R323), and the opcodes 0x0800 to 0x080B. -/
namespace Sys2Proof.Machine

namespace Status
def laneActive : Nat := 0x1080
def topoAddr : Nat := 0x1082
def rxDmaBound : Nat := 0x1083
end Status

/-! ### Topology (R319, R320, R323) -/

/-- The coordinates of an address. -/
def addrX (a : Nat) : Nat := a % 512
def addrY (a : Nat) : Nat := a / 512

/-- The device that lies next in a direction, given a coordinate, the size and whether the dimension is a torus. -/
def nextCoord (x size : Nat) (torus up : Bool) : Option Nat :=
  if size ≤ x then none
  else if up then (if x + 1 < size then some (x + 1) else if torus then some 0 else none)
  else if 0 < x then some (x - 1) else if torus then some (size - 1) else none

/-- The expected neighbour of a port. -/
def State.neighbour (s : State) (p : Nat) : Option Nat :=
  let t := s.link.topo
  let x := addrX s.dev.addr
  let y := addrY s.dev.addr
  if t.sx = 0 ∨ t.sx ≤ x ∨ t.sy ≤ y then none
  else if p = 1 ∨ p = 3 then (nextCoord x t.sx (bitOf t.torus 0) (p == 1)).map fun n => n + 512 * y
  else (nextCoord y t.sy (bitOf t.torus 1) (p == 0)).map fun n => x + 512 * n

/-- A port is MISWIRED: it has a partner other than its expected neighbour. Without a topology none is. DEDUCED. -/
def State.miswired (s : State) (p : Nat) : Bool :=
  s.link.topo.sx != 0 && match s.partner p with | some i => s.neighbour p != some i.addr | none => false

/-- The port by dimension order. -/
def State.relayPort (s : State) (dest : Nat) : Option Nat :=
  let t := s.link.topo
  let x := addrX s.dev.addr
  let y := addrY s.dev.addr
  let dx := addrX dest
  let dy := addrY dest
  if t.sx = 0 ∨ t.sx ≤ x ∨ t.sy ≤ y then none
  else if dx ≠ x then
    if bitOf t.torus 0 then (if (((dx : Int) - x) % (t.sx : Int)).toNat ≤ t.sx / 2 then some 1 else some 3) else if x < dx then some 1 else some 3
  else if bitOf t.torus 1 then (if (((dy : Int) - y) % (t.sy : Int)).toNat ≤ t.sy / 2 then some 0 else some 2) else if y < dy then some 0 else some 2

/-! ### Relaying (R321, R322) -/

/-- A frame leaves again on a port: the pre-emptive queue for FEEDBACK, which takes 6.40 ns to reach (R188), the 256 KiB relay buffer for the
others. -/
def State.relayOut (s : State) (out : Nat) (h : Hdr) (payload : List Byte) : State :=
  if h.cls = 2 then s.delay (s.now + 64 * uNs / 10) (.fbRelay out h.dest h.src (h.hops + 1) payload)
  else
    let n := payload.length + 20
    let inside := (s.port out).relay.filter fun (e : Nat × Nat) => decide (s.now < e.2)
    if 262144 < (inside.foldl (fun (a : Nat) (e : Nat × Nat) => a + e.1) 0) + n then s.countPort out .relayDrop
    else
      let r := s.sendFrame out h.cls h.dest h.src (h.hops + 1) payload
      r.1.onPort out fun x => { x with relay := inside ++ [(n, r.2)] }

/-- A frame for another device that came in on `p` goes on by dimension order. -/
def State.relay (s : State) (p : Nat) (h : Hdr) (payload : List Byte) : State :=
  match s.relayPort h.dest with
  | some out => if s.portUp out && !s.miswired out then s.relayOut out h payload else s.countPort p .noRoute
  | none => s.countPort p .noRoute

/-- The ports out of which a device sends its own broadcasts: along y, and along x. -/
def State.bcastY (s : State) : List Nat := if bitOf s.link.topo.torus 1 then [0] else [0, 2]
def State.bcastX (s : State) : List Nat := if bitOf s.link.topo.torus 0 then [1] else [1, 3]

/-- A broadcast copy may leave: in a torus not towards the origin's own coordinate. -/
def State.bcastGoes (s : State) (src out : Nat) : Bool :=
  match s.neighbour out with
  | none => false
  | some n =>
    if out = 1 ∨ out = 3 then !(bitOf s.link.topo.torus 0 && addrX n == addrX src) else !(bitOf s.link.topo.torus 1 && addrY n == addrY src)

/-- A broadcast that came in on `p` is forwarded. A copy whose port has a neighbour but is DOWN or MISWIRED counts in NO_ROUTE; hops do
not pass 1,023. DEDUCED. -/
def State.bcastOn (s : State) (p : Nat) (h : Hdr) (payload : List Byte) : State :=
  let opp := (p + 2) % 4
  let outs := (opp :: if p = 1 ∨ p = 3 then s.bcastY else []).filter fun o => s.bcastGoes h.src o
  if 1023 ≤ h.hops then s
  else outs.foldl (fun a o => if a.portUp o && !a.miswired o then a.relayOut o h payload else a.countPort p .noRoute) s

/-- A device's own broadcast leaves on every origin port that is neither DOWN nor MISWIRED: the state, and when the last copy has left (0: none). -/
def State.bcastOwn (s : State) (cls : Nat) (payload : List Byte) : State × Nat :=
  (s.bcastY ++ s.bcastX).foldl (fun (a : State × Nat) o =>
    if a.1.portUp o && !a.1.miswired o then
      let r := a.1.sendFrame o cls bcastAddr a.1.dev.addr 0 payload
      (r.1, max a.2 r.2)
    else a) (s, 0)

/-! ### Lanes (R331 to R335) -/

/-- The lane, the group or the port that an object names. -/
def Obj.laneNo (o : Obj) : Nat := if o.cls = .intake then o.index else 72 + o.index
def Obj.groupNo (o : Obj) : Nat := if o.cls = .intake then o.index else 4 + o.index
def groupLanes (g : Nat) : List Nat := if g < 4 then (List.range 18).map fun k => 18 * g + k else portLanes (g - 4)

/-- The inputs bound to a lane. -/
def State.laneInputs (s : State) (n : Nat) : List Nat := (s.bound.filter fun e => e.2.src.kind == 1 && e.2.src.line == n).map (·.1)

/-- LANE_CFG_SET. -/
def opLaneCfgSet : OpSpec :=
  { cls := [.intake, .arrayport], objOk := fun o => if o.cls = .intake then o.ctx == 2 else o.ctx == 0, priv := fun c => if c.obj.cls = .intake then .operator else .owner, len := some 8,
    state := fun c s =>
      let g := c.obj.groupNo
      let hit := groupLanes g |>.filter fun n => decide (c.u 0 1 ≠ (s.laneCfg g).rate) || (s.laneEnabled n && !bitOf (c.u 4 4) (if n < 72 then n % 18 else (n - 72) % 5))
      stateIf s (hit.any fun n => (s.laneInputs n).any s.inputRuns),
    fields := fun c _ => [fU 0 1 0 2, fR 1 1, fU 2 2 1 10000, fU 4 4 0 (if c.obj.groupNo < 4 then 2 ^ 18 - 1 else 31)],
    cap := fun c s => failIf (decide (c.u 0 1 ≤ 2) && (groupLanes c.obj.groupNo).any fun n => !laneFits (c.u 0 1) (s.laneSrcs n)) eCapacity,
    busy := fun c s => ((groupLanes c.obj.groupNo).findSome? fun n => (s.lane n).cmdTest).map fun t => eBusy (s.usUntil t.1),
    run := fun c s =>
      let g := c.obj.groupNo
      let old := s.laneCfg g
      let s0 := if c.u 0 1 = old.rate then s else (groupLanes g).foldl (fun a n => a.abortTx n) s
      let s1 := (groupLanes g).foldl (fun a n => a.onLane n fun l => l.accrue old.rate a.now) s0
      let s2 := s1.onLink fun l => { l with cfgs := tput (.reset g) l.cfgs g { rate := c.u 0 1, retryMs := c.u 2 2, enmask := c.u 4 4 } }
      let s3 := if c.u 0 1 = old.rate then s2 else (groupLanes g).foldl (fun a n =>
        if (a.lane n).st = .faulty ∨ (a.lane n).st = .disabled then a else (a.train n).laneDone n) s2
      let s4 := (groupLanes g).foldl (fun a n => if a.laneEnabled n then a else a.laneDisable n) s3
      (s4.enableLanes, .ok []) }

/-- STATE of a lane (R306). -/
def LState.code : LState → Nat
  | .disabled => 0 | .training => 1 | .up => 2 | .test => 3 | .absent => 4 | .faulty => 5

/-- LANE_STATUS. -/
def opLaneStatus : OpSpec :=
  { cls := [.intake, .arrayport], ctx := [1], priv := fun _ => .observer, ep := fun _ => true, changes := false, len := some 4, keys := fun _ => [],
    fields := fun _ _ => [fU 0 1 0 1, fR 1 3],
    run := fun c s =>
      let n := c.obj.laneNo
      let p := lanePort n
      let arr := decide (72 ≤ n)
      let s1 := s.onLane n fun l => l.accrue (s.laneRate n) s.now
      let l := s1.lane n
      let oth := match l.ident, s.partner p with | some i, some j => i.addr != j.addr || i.kind != j.kind | _, _ => false
      let fl := ofBool (l.ident.isNone || decide (l.identAt + 100 * uUs ≤ s.now)) + 2 * ofBool (match l.ident with | some i => i.addr == s.dev.addr | none => false) + 4 * ofBool l.eqDefault +
        8 * ofBool (arr && s.timingLane p == some n) + 16 * ofBool (match l.ident with | some i => bitOf i.flags 0 | none => false) + 32 * ofBool (arr && oth)
      let s2 := if c.u 0 1 = 1 then s1.onLane n fun x => { x with codeErr := 0, dispErr := 0, laneErr := 0, upCount := 0, skipAdj := 0, identBad := 0, txBase := x.txBits } else s1
      (s2, .ok (leBytes 1 l.st.code ++ leBytes 1 (if !arr then 0 else if !l.usable then 2 else if l.active then 0 else 1) ++ leBytes 1 fl ++ leBytes 1 (s.laneRate n) ++
        (match l.ident with
          | some i => leBytes 4 i.addr ++ leBytes 1 i.kind ++ leBytes 1 i.lane ++ leBytes 1 i.level
          | none => leBytes 4 0xFFFFFFFF ++ [0xFF, 0xFF, 0]) ++ zeros 1 ++
        [l.codeErr, l.dispErr, l.laneErr, l.upCount, l.skipAdj, l.identBad].flatMap (leBytes 4) ++ zeros 4 ++ leBytes 8 ((l.txBits + 2 ^ 64 - l.txBase) % 2 ^ 64))) }

/-- LANE_EQ_SET. -/
def opLaneEqSet : OpSpec :=
  { cls := [.intake, .arrayport], ctx := [1], priv := fun _ => .owner, len := some 12,
    fields := fun _ _ => [fU 0 1 0 2, fR 1 3, fP 4 8 fun e => eqOk e && !bitOf e 15 && bits e 50 13 == 0],
    more := fun c s =>
      let l := s.lane c.obj.laneNo
      let spare := decide (72 ≤ c.obj.laneNo) && l.st == .up && l.usable && !l.active
      failIf (!(l.st == .disabled || l.st == .absent || l.st == .faulty || spare)) (err Status.laneActive 0),
    run := fun c s =>
      let n := c.obj.laneNo
      let s1 := s.onLane n fun l => { l with eq := tput 0 l.eq (c.u 0 1) (c.u 4 8) }
      (if (s.lane n).st = .up then (s1.train n).laneDone n else s1, .ok []) }

/-- LANE_TEST. A DISABLED lane, too, is in TEST for so long and goes to TRAINING; a targeted self-test of the lane is given up. DEDUCED: R334 turns away no state
of the lane. -/
def opLaneTest : OpSpec :=
  { cls := [.intake, .arrayport], ctx := [1], len := some 8,
    state := fun c s => failIf ((s.lane c.obj.laneNo).st == .faulty) (err Status.eDegraded 0),
    fields := fun _ _ => [fU 0 1 0 1, fR 1 1, fU 2 2 1 10000, fR 4 4],
    more := fun c s =>
      let n := c.obj.laneNo
      failIf (if n < 72 then !(s.laneInputs n).isEmpty else (s.lane n).carries) (err Status.laneActive 0),
    run := fun c s =>
      let n := c.obj.laneNo
      let t := s.now + c.u 2 2 * uMs
      (((s.laneTo n .test).onLane n fun l => { l with cmdTest := some (t, c.u 0 1 == 1) }).laneDone n, .accepted [wait .laneTest n 0] true (some t)) }

/-- LANE_SWAP: at the lane's next frame boundary; the frames that R317 has assigned to it and that have not begun go to the SPARE. For a lane that has failed in the
same cycle the failure comes first. -/
def opLaneSwap : OpSpec :=
  { cls := [.arrayport], ctx := [1], len := some 4, fields := fun _ _ => [fR 0 4],
    state := fun c s =>
      let l := s.lane c.obj.laneNo
      stateIf s (!l.carries && !(match l.left with | some (t, _) => s.sameCycle t s.now | none => false)),
    more := fun c s => failIf (s.swapLane c.obj.laneNo).isNone (err Status.noSpare 0),
    run := fun c s =>
      let n := c.obj.laneNo
      let t := s.frameEdge n
      if (s.lane n).carries ∧ s.now < t then (s.delay t (.laneSwap n), .later [wait .laneSwap n 0] false (some t))
      else match s.swapLane n with
        | some s1 => (s1, .ok [])
        | none => (s, .fail (err Status.noSpare 0)) }

/-! ### Ports (R336 to R341) -/

/-- PORT_CFG_SET. -/
def opPortCfgSet : OpSpec :=
  { cls := [.arrayport], ctx := [0], priv := fun _ => .owner, len := some 8, fields := fun _ _ => [fU 0 2 1 1000, fU 2 1 0 15, fR 3 5],
    run := fun c s => ((s.onPort c.i fun p => { p with peerMs := c.u 0 2, rights := c.u 2 1 }).timeSelect, .ok []) }

/-- PORT_STATUS. -/
def opPortStatus : OpSpec :=
  { cls := [.arrayport], ctx := [0], priv := fun _ => .observer, ep := fun _ => true, changes := false, len := some 4, keys := fun _ => [],
    fields := fun _ _ => [fU 0 1 0 1, fR 1 3],
    run := fun c s =>
      let p := c.i
      let act := s.active p
      let x := s.port p
      let data := leBytes 1 (if act.isEmpty then 0 else if act.length < 4 then 1 else 2) ++
        leBytes 1 (ofBool (s.miswired p) + 2 * ofBool (s.partnerAddr p == s.dev.addr && (s.partner p).isSome)) ++
        leBytes 1 (act.foldl (fun (m : Nat) n => m + 2 ^ ((n - 72) % 5)) 0) ++ leBytes 1 (match s.timingLane p with | some n => (n - 72) % 5 | none => 0xFF) ++
        (match s.partner p with
          | some i => leBytes 4 i.addr ++ leBytes 1 (if i.kind < 4 then i.kind else 0xFF)
          | none => leBytes 4 0xFFFFFFFF ++ [0xFF]) ++
        leBytes 1 (if act.isEmpty then 0 else s.linkLevel p) ++ leBytes 1 x.rights ++ zeros 1 ++ x.counts.flatMap (leBytes 4)
      (if c.u 0 1 = 1 then s.onPort p fun y => { y with counts := List.replicate 13 0 } else s, .ok data) }

/-- LINK_TOPO_SET (R338). -/
def opLinkTopoSet : OpSpec :=
  { cls := [.device], priv := fun _ => .owner, len := some 8, keys := fun _ => [devKey 0x807],
    fields := fun _ _ => [fU 0 2 0 512, fX 2 (fun p => decide (u p 2 2 ≤ 512) && (u p 0 2 == 0 || decide (1 ≤ u p 2 2))),
      fX 4 (fun p => decide (u p 4 1 ≤ if u p 0 2 = 0 then 0 else 3)), fU 5 1 1 2, fR 6 2],
    more := fun c s => failIf (c.u 0 2 != 0 && (decide (c.u 0 2 ≤ addrX s.dev.addr) || decide (c.u 2 2 ≤ addrY s.dev.addr))) (err Status.topoAddr 0),
    run := fun c s =>
      let s1 := s.onLink fun l => { l with topo := { sx := c.u 0 2, sy := c.u 2 2, torus := c.u 4 1, levelCap := c.u 5 1 } }
      ([0, 1, 2, 3].foldl (fun a p => a.relane p) s1, .ok []) }

/-- LINK_TOPO_GET. -/
def opLinkTopoGet : OpSpec :=
  { readOp [.device] 0 (fun _ s =>
      let t := s.link.topo
      leBytes 2 t.sx ++ leBytes 2 t.sy ++ leBytes 1 t.torus ++ leBytes 1 t.levelCap ++ [2, 0]) with ep := fun _ => true }

/-- A request with another SEQ and the CRC that goes with it (R327). -/
def resequence (packet : List Byte) (seq : Nat) : List Byte := withCrc (packet.take 12 ++ leBytes 4 seq ++ (packet.take (packet.length - 4)).drop 16)

/-- Bytes that hold a request packet of R35 whose PLEN matches. -/
def isRequest (b : List Byte) : Bool := u b 0 1 == 1 && decide (u b 1 1 < 32) && u b 6 2 % 4 == 0 && b.length == 20 + u b 6 2

/-- PEER_CMD_SEND (R327, R339). -/
def opPeerCmdSend : OpSpec :=
  { cls := [.arrayport], ctx := [0], len := none, lenMin := 24, lenOk := fun n => decide (24 ≤ n) && decide (n ≤ 4064), keys := fun _ => [],
    fields := fun _ _ => [fU 0 1 0 1, fR 1 3, fX 4 fun p => isRequest (p.drop 4)],
    more := fun c s => failIf (c.u 0 1 == 0 && (!s.portUp c.i || (s.partner c.i).isNone)) (err Status.ePeerDown (c.i + 1)),
    busy := fun c s => failIf (c.u 0 1 == 0 && decide (16 ≤ (s.port c.i).peers.length)) (eBusy hintUnknown),
    run := fun c s =>
      let pkt := c.p.drop 4
      if c.u 0 1 = 1 then
        let r := s.bcastOwn 3 (resequence pkt 0)
        if r.2 ≤ s.now then (r.1, .ok []) else (r.1.delay r.2 (.settle (wait .peerCmd 4 r.2)), .later [wait .peerCmd 4 r.2] true (some r.2))
      else
        let k := (s.port c.i).peerSeq
        let b := resequence pkt k
        let r := s.sendFrame c.i 3 (s.partnerAddr c.i) s.dev.addr 0 b
        (r.1.onPort c.i fun x => { x with peerSeq := (k + 1) % 2 ^ 32, peers := x.peers ++
          [{ id := k, packet := b, seq := k, sentAt := r.2, addr := s.partnerAddr c.i, resent := false }] }, .accepted [wait .peerCmd c.i k] true none) }

/-- A bulk receive binding. -/
def State.bind (s : State) (n : Nat) : BulkBind := lget .reset s.link.binds n
def State.onBind (s : State) (n : Nat) (g : BulkBind → BulkBind) : State := s.onLink fun l => { l with binds := lput l.binds n (g (lget .reset l.binds n)) }

/-- BULK_RX_SET: a new binding starts with its counters at 0 (DESIGN CHOICE). -/
def opBulkRxSet : OpSpec :=
  { cls := [.device], len := some 16, keys := fun c => [devKey (0x80A000 + c.u 0 1)],
    fields := fun _ _ =>
      let k := fun (p : List Byte) => u p 1 1
      [fU 0 1 0 7, fU 1 1 0 2, fX 2 (fun p => if k p = 2 then decide (u p 2 1 ≤ 15) else u p 2 1 == 0xFF), fR 3 1, fU 4 4 0 bcastAddr,
       fX 8 (fun p => if k p = 1 then decide (u p 8 2 ≤ 2047) else u p 8 2 == 0xFFFF), fR 10 6],
    more := fun c s => firstErr [if c.u 1 1 = 1 then s.regionErr c.port (c.u 8 2) else none,
      failIf (c.u 1 1 == 2 && (s.dmaCh (c.u 2 1)).stream.isSome) (err Status.rxDmaBound 0)],
    busy := fun c s => failIf (c.u 1 1 == 2 && (s.dmaCh (c.u 2 1)).busy) (eBusy hintUnknown),
    run := fun c s =>
      let n := c.u 0 1
      let s1 := if (s.bind n).kind = 2 then s.dmaUnbind (s.bind n).dma else s
      let s2 := if c.u 1 1 = 2 then s1.dmaBind (c.u 2 1) (.bulk n) else s1
      (s2.onBind n fun _ => if c.u 1 1 = 0 then .reset else { BulkBind.reset with kind := c.u 1 1, dma := c.u 2 1, src := c.u 4 4, region := c.u 8 2 }, .ok []) }

/-- BULK_RX_STATUS. -/
def opBulkRxStatus : OpSpec :=
  { readOp [.device] 4 (fun c s =>
      let b := s.bind (c.u 0 1)
      leBytes 4 b.records ++ leBytes 4 b.drops ++ leBytes 4 b.wraps ++ zeros 4 ++ leBytes 8 (if b.kind = 1 then b.wrpos else 0)) with
    fields := fun _ _ => [fU 0 1 0 7, fR 1 3] }

/-- A record reaches the first binding whose SRC matches (R329); one that no ring or host buffer can take counts in DROPS. -/
def State.bulkRecord (s : State) (p src : Nat) (rec' : List Byte) : State :=
  match (List.range 8).find? fun n => (s.bind n).kind != 0 && ((s.bind n).src == src || (s.bind n).src == bcastAddr) with
  | none => s.countPort p .noBinding
  | some n =>
    let b := s.bind n
    let drop := s.onBind n fun b => { b with drops := inc32 b.drops }
    if b.kind = 2 then
      if s.hostUp && (s.dmaCh b.dma).busy && decide (rec'.length ≤ (s.dmaCh b.dma).length) then (s.dmaRecord b.dma rec').onBind n fun b => { b with records := inc32 b.records } else drop
    else
      let size := s.regionSize b.region
      if size < rec'.length then drop
      else
        let wrap := decide (size < b.wrpos + rec'.length)
        let pos := if wrap then 0 else b.wrpos
        (s.memWrite b.region pos rec').onBind n fun b =>
          { b with records := inc32 b.records, wraps := if wrap then inc32 b.wraps else b.wraps, wrpos := pos + roundUp rec'.length 64 }

end Sys2Proof.Machine
end

