-- ==== Sys2Proof/Machine/Service.lean ====
section
/-! DEFINITION. Faults and sparing (16, R527 to R535): detected errors, their containment and tests, what a lasting fault takes out of service, and
the moves into a spare and back. -/
namespace Sys2Proof.Machine

/-! ### The object and the use of a unit (R536, R551) -/

/-- The object ID of a gathering array, and of an island by its number in R5. -/
def gatherId (q a : Nat) : Nat := 7 * 2 ^ 26 + q * 2 ^ 20 + a
def islandId (i : Nat) : Nat := 19 * 2 ^ 26 + i

/-- The logical Folio that a physical one holds. -/
def State.folioHeld (s : State) (x : FUnit) : Option (Nat × Nat) :=
  match s.boundTo x.pq with
  | none => none
  | some q => (logicalOf (s.qb q).fhole x.a).bind fun f => if f < 32 then some (q, f) else none

/-- A physical column holds a logical one, of which logical Quire. -/
def State.columnHeld (s : State) (x : FUnit) : Option Nat :=
  match s.boundTo x.pq with
  | none => none
  | some q => (logicalOf (lget 32 (s.physQ x.pq).xcol x.a) x.b).bind fun c => if c < 32 then some q else none

/-- The logical object that uses a unit, or 0xFFFF_FFFF. -/
def State.objectOf (s : State) (x : FUnit) : Nat :=
  let q := s.boundTo x.pq
  match x.kind with
  | 1 | 9 => (q.map quireId).getD noObject
  | 4 => laneId x.c
  | 5 => ((s.columnHeld x).map fun q => gatherId q x.a).getD noObject
  | 6 => ((s.folioHeld x).map fun e => folioId e.1 e.2).getD noObject
  | 7 => (q.map fun q => coreId q x.a).getD noObject
  | 8 => if x.a < 16 then islandId x.a else (q.map fun q => islandId x.a + q * 2 ^ 20).getD noObject
  | 10 => dacId x.c
  | 11 => adcId x.c
  | 12 => biasId x.c
  | 13 => chipletId x.a
  | _ => noObject

/-- A logical Quire does user work. -/
def State.works (s : State) (q : Nat) : Bool := s.pers q != .off && s.pers q != .service && !(s.qb q).stopped

/-- A unit is in use. DESIGN CHOICE: the spec does not say when it is. -/
def State.inUse (s : State) (x : FUnit) : Bool :=
  let work := match s.boundTo x.pq with | some q => s.works q | none => false
  match x.kind with
  | 1 | 9 => work
  | 2 => true
  | 3 => s.svc.regions.any fun e => e.2.isSome
  | 4 => (s.lane x.c).st == .up || (s.lane x.c).st == .training
  | 5 => match s.columnHeld x with
    | some q => work && !bitOf (s.qb q).clost x.a && (if s.pers q = .control then x.a == 5 && (s.roq q).weave.enable else true)
    | none => false
  | 6 => match s.folioHeld x with
    | some (q, f) => work && s.pers q == .control && !(s.qb q).lostFolios.contains f
    | none => false
  | 7 => match s.boundTo x.pq with | some q => work && s.pers q == .control | none => false
  | 8 => if x.a < 16 then s.runs else work
  | 10 => !s.svc.retiredUnits.contains x && (s.dac x.c).cfg.mode != 2
  | 11 => !s.svc.retiredUnits.contains x && (s.adc x.c).cfg.enable
  | 12 => (s.bch x.c).st == .on || (s.bch x.c).st == .ramping
  | 13 => !s.rf.out.contains x.a
  | _ => false

/-- A unit is retired, or spared as lasting-faulty. -/
def State.isRetired (s : State) (x : FUnit) : Bool :=
  match x.kind with
  | 1 | 2 | 3 => s.svc.spared.contains x || s.svc.retiredUnits.contains x
  | 4 => (s.lane x.c).st == .faulty
  | 5 => bitOf (lget 0 (s.physQ x.pq).cbad x.a) x.b
  | 6 => bitOf (s.physQ x.pq).fbad x.a
  | 8 => if decide (11 ≤ x.a) && decide (x.a ≤ 14) then s.rf.out.contains (x.a - 11) else s.svc.retiredUnits.contains x
  | 9 => s.svc.retired.contains x.pq
  | 12 => (s.bch x.c).st == .retired
  | 13 => s.rf.out.contains x.a
  | _ => s.svc.retiredUnits.contains x

/-! ### Spare rows (R528, R532) -/

/-- The bank of an SRAM row, and the pseudo-channel of a DRAM row. -/
def FUnit.bank (x : FUnit) : Nat := if x.kind = 1 then x.pq * 64 + x.a else 17 * 64 + x.a * 64 + x.b
def FUnit.chan (x : FUnit) : Nat := x.a * 32 + x.b

/-- The spare rows that a row's bank or pseudo-channel has, and those in use: 8 rows and 2 columns, or 64 rows. -/
def FUnit.spareRows (x : FUnit) : Nat := if x.kind = 3 then 64 else 10
def State.rowsUsed (s : State) (x : FUnit) : Nat := if x.kind = 3 then tget 0 s.svc.dramRows x.chan else tget 0 s.svc.sramRows x.bank

/-- One spare row more, or less, is in use. SROWS counts the rows of a Quire. -/
def State.useRow (s : State) (x : FUnit) (more : Bool) : State :=
  let step := fun (n : Nat) => if more then n + 1 else n - 1
  let s1 := s.onSvc fun v =>
    if x.kind = 3 then { v with dramRows := tmod 0 v.dramRows x.chan step } else { v with sramRows := tmod 0 v.sramRows x.bank step }
  if x.kind = 1 then s1.onPhys x.pq fun p => { p with srows := min 512 (step p.srows) } else s1

/-! ### Tests (R527, R529) -/

/-- A test of the unit runs, or one of its physical Quire. -/
def State.underTest (s : State) (x : FUnit) : Bool :=
  s.svc.tests.any fun t => t.unit == x || (x.inQuire && t.unit == { kind := 9, phys := x.pq })

/-- A test starts. That of a physical Quire excludes every other in it. -/
def State.startTest (s : State) (x : FUnit) (why : TestWhy) (obj detail : Nat) (remapped : Bool) (page : Option (Nat × Nat)) : State :=
  let t : RunTest := { unit := x, why := why, object := obj, detail := detail, till := s.now + x.testTime, remapped := remapped, page := page }
  (s.onSvc fun v => { v with tests := (if x.kind = 9 then v.tests.filter fun y => !(y.unit.inQuire && y.unit.pq == x.pq && y.why == .error) else v.tests) ++ [t] }).raisePoints

/-! ### A failing Quire (R21, R532, R541, R543) -/

/-- The VERSION of the committed microcode image (R541, R544). -/
def State.microcode (s : State) : Nat := match s.newest 2 with | some c => c.u 12 4 | none => 0

/-- A migration starts: BUSY is set, and the target is loaded with the committed microcode (R541). -/
def State.startMigration (s : State) (q t : Nat) (why : MigWhy) : State :=
  let m : Migration := { q := q, target := t, why := why, since := s.now, first := true, copied := false, dirty := 0 }
  (((s.onPhys t fun p => { p with mcode := s.microcode }).onSvc fun v => { v with migration := some m }).onQb q fun b => { b with busy := true }).raisePoints

/-- The unit of a physical Quire. -/
def quireUnit (p : Nat) : FUnit := { kind := 9, phys := p }

/-- The running migration is abandoned; who asked for it gets a status. -/
def State.dropMigration (s : State) (e : Err) : State :=
  match s.svc.migration with
  | none => s
  | some m =>
    let s1 := (s.onSvc fun v => { v with migration := none }).onQb m.q fun b => { b with busy := false }
    match m.why with
    | .command => s1.failWait (wait .migrate m.q 0) e
    | .retire => s1.failWait (wait .retire 9 (s.pq m.q)) e
    | .failure => s1

/-- A logical Quire that has failed and finds no spare: its work stops, and its unit is tested in place. -/
def State.stopAndTest (s : State) (q detail : Nat) : State := (s.stopQuire q).startTest (quireUnit (s.pq q)) .error (quireId q) detail false none

/-- A physical Quire has an error (R528, R532): its logical Quire moves to the spare, whatever its personality. Of two in one Endpaper cycle the lower
logical Quire gets the spare (R21). -/
def State.quireError (s : State) (p detail : Nat) : State :=
  match s.boundTo p with
  | none =>
    let s1 := match s.svc.migration with
      | some m => if m.target = p then
          let s2 := s.dropMigration (err 0x1100 0)
          if m.why = MigWhy.failure then s2.stopAndTest m.q detail else s2
        else s
      | none => s
    (s1.onSvc fun v => { v with spq := if v.spq = some p then none else v.spq, spare2 := v.spare2.filter fun x => x != p }).startTest
      (quireUnit p) .error noObject detail false none
  | some q =>
    match s.svc.migration, s.svc.spq with
    | some m, _ =>
      if m.q = q then s.onSvc fun v => { v with migration := some { m with why := .failure } }
      else if m.why = .failure ∧ s.sameCycle m.since s.now ∧ q < m.q then
        ((s.dropMigration (err 0x1100 0)).stopAndTest m.q detail).startMigration q m.target .failure
      else s.stopAndTest q detail
    | none, some t => s.startMigration q t .failure
    | none, none => s.stopAndTest q detail

/-! ### Lasting faults (R527, R528, R533) -/

/-- A chiplet goes out of service (R13): LINK mutes its lines, and the device enters REDUCED. -/
def State.chipletOut (s : State) (c : Nat) : State :=
  ((s.onRf fun r => { (r.rise (4 + c) s.now).fall c s.now with out := if r.out.contains c then r.out else c :: r.out }).setCauses (chipDacs c) mLink
    true).toReduced

/-- The page of a DRAM row that has no spare is retired (R528, R540): it reads as zero in the region it lies in. -/
def State.retirePage (s : State) (page : Option (Nat × Nat)) : State :=
  s.onSvc fun v =>
    { v with dramRetired := v.dramRetired + 1,
             regions := match page with
               | some (h, n) => match tget none v.regions h with
                 | some r => tput none v.regions h (some { r with mfault := true, retiredPages := if r.retiredPages.contains n then r.retiredPages else n :: r.retiredPages })
                 | none => v.regions
               | none => v.regions }

/-- A Folio is lasting-faulty: FBAD, and the map where it is no longer held by the spare. The program of a logical Folio that is lost
halts with cause 12. DESIGN CHOICE. -/
def State.folioBad (s : State) (x : FUnit) : State × Bool :=
  let old := match s.boundTo x.pq with | some q => (s.qb q).lostFolios | none => []
  let s1 := (s.onPhys x.pq fun p => { p with fbad := setBit p.fbad x.a true }).syncFolios x.pq
  match s1.boundTo x.pq with
  | none => (s1, false)
  | some q =>
    let lost := (s1.qb q).lostFolios.filter fun f => !old.contains f
    (lost.foldl (fun a f => if (a.folio q f).busy then a.haltNow q f 12 else a) (if lost.isEmpty then s1 else s1.notePend q), !lost.isEmpty)

/-- A column is lasting-faulty: the array is lost where its spare column is in use already (R525, R528). -/
def State.columnBad (s : State) (x : FUnit) : State × Bool :=
  let was := bitOf (s.physQ x.pq).alost x.a
  let s1 := (s.onPhys x.pq fun p => { p with cbad := lput p.cbad x.a (setBit (lget 0 p.cbad x.a) x.b true) }).syncArray x.pq x.a
  let lost := !was && bitOf (s1.physQ x.pq).alost x.a
  match s1.boundTo x.pq with
  | some q => (if lost then (if s1.pers q == .control && !(x.a == 5 && (s1.roq q).weave.enable) then s1 else s1.capacityLost q).notePend q else s1, lost)
  | none => (s1, lost)

/-- A unit is lasting-faulty (R527, R528): it is spared, or retired where no spare remains; `o` is an OUTCOME that takes the place of
the usual one. -/
def State.unitFail (s : State) (x : FUnit) (obj detail : Nat) (o : Option Nat) (flags : Nat) (remapped : Bool) (page : Option (Nat × Nat)) : State :=
  let log := fun (a : State) (n : Nat) => a.logFault x (o.getD n) flags obj detail
  let esc := fun (a : State) => ((log a 3).logFault (quireUnit x.pq) 0 0 ((a.boundTo x.pq).elim noObject quireId) detail).quireError x.pq detail
  match x.kind with
  | 1 | 2 | 3 =>
    if remapped then log (s.onSvc fun v => { v with spared := x :: v.spared }) 2
    else log ((if x.kind = 3 then s.retirePage page else s).retireUnit x) 3
  | 4 => s.laneFaulty x.c (o.getD 3) flags detail
  | 5 =>
    let r := s.columnBad x
    if r.2 then log r.1.toReduced 3 else log r.1 (if obj = noObject then 3 else 2)
  | 6 =>
    let r := s.folioBad x
    if r.2 then log r.1.toReduced 3 else log r.1 (if obj = noObject then 3 else 2)
  | 7 => esc s
  | 8 => if x.inQuire then esc s else if 11 ≤ x.a ∧ x.a ≤ 14 then log (s.chipletOut (x.a - 11)) 3 else log (s.retireUnit x) 3
  | 9 =>
    match s.boundTo x.pq with
    | some q => log (((s.retireQuire x.pq).unbind q).redeal).toReduced 3
    | none => log (s.retireQuire x.pq).fillSpare (if obj = noObject then 3 else 2)
  | 12 => s.biasRetire x.c (o.getD 3) flags
  | 11 => log ((s.retireUnit x).onRf fun r => r.fall (16 + x.c) s.now) 3
  | 13 => log (s.chipletOut x.a) 3
  | _ => log (s.retireUnit x) 3

/-- A unit has passed the test that an error started: it returns to service (R528, R532, R533). -/
def State.unitPass (s : State) (t : RunTest) : State :=
  let x := t.unit
  let back : PendMove := { unit := x, back := true, verdict := none, flags := 0, object := t.object, detail := t.detail }
  let moveBack := fun (a : State) => a.onSvc fun v => { v with moves := v.moves ++ [back] }
  match x.kind with
  | 1 | 2 | 3 => if t.remapped then s.useRow x false else s
  | 5 => if lget 32 (s.physQ x.pq).xcol x.a = x.b then moveBack s else s
  | 6 => match s.boundTo x.pq with | some q => if (s.qb q).fhole = x.a ∧ x.a ≠ 32 then moveBack s else s | none => s
  | 9 => match s.boundTo x.pq with | some q => (s.onQb q fun b => { b with stopped := false }).redeal | none => s.giveQuire x.pq
  | 13 => (s.onRf fun r => r.rise (4 + x.a) s.now).clearCauses (chipDacs x.a) mLink
  | _ => s

/-- A unit that UNIT_READMIT has tested returns to service (R535). -/
def State.unitBack (s : State) (x : FUnit) : State :=
  let drop := fun (a : State) => a.onSvc fun v => { v with retiredUnits := v.retiredUnits.filter fun y => y != x, spared := v.spared.filter fun y => y != x }
  let chip := fun (a : State) (c : Nat) => (a.onRf fun r => { r.rise c s.now with out := r.out.filter fun y => y != c }).clearCauses (chipDacs c) mLink
  match x.kind with
  | 1 | 2 | 3 =>
    if s.svc.spared.contains x then drop (s.useRow x false)
    else (drop s).onSvc fun v => if x.kind = 3 then { v with dramRetired := v.dramRetired - 1 } else v
  | 4 => (if s.lanesOn && s.laneEnabled x.c then (drop s).train x.c else (drop s).laneTo x.c .disabled).laneDone x.c
  | 5 => ((s.onPhys x.pq fun p => { p with cbad := lput p.cbad x.a (setBit (lget 0 p.cbad x.a) x.b false) }).syncArray x.pq x.a).redeal
  | 6 => (s.onPhys x.pq fun p => { p with fbad := setBit p.fbad x.a false }).syncFolios x.pq
  | 8 => if 11 ≤ x.a ∧ x.a ≤ 14 then chip s (x.a - 11) else drop s
  | 9 => (s.onSvc fun v => { v with retired := v.retired.filter fun p => p != x.pq }).giveQuire x.pq
  | 12 => (drop s).onBch x.c fun c => { c with st := .clamped }
  | 13 => chip s x.a
  | 11 => (drop s).onRf fun r => r.rise (16 + x.c) s.now
  | _ => drop s

/-! ### Errors (R527 to R531) -/

/-- The Folio or column can move into its spare: it is free, and no other move waits for it. -/
def State.spareOpen (s : State) (x : FUnit) : Bool :=
  let same := s.svc.moves.any fun m => m.unit.kind == x.kind && m.unit.pq == x.pq && (x.kind == 6 || m.unit.a == x.a)
  !same && (if x.kind = 6 then match s.boundTo x.pq with | some q => spareFree (s.qb q).fhole (s.physQ x.pq).fbad | none => false
    else spareFree (lget 32 (s.physQ x.pq).xcol x.a) (lget 0 (s.physQ x.pq).cbad x.a))

/-- What met uncorrectable data does as its chapter says (R531). -/
def State.consume (s : State) (x : FUnit) : Lost → State
  | .word => match s.folioHeld x with | some (q, f) => if x.kind = 6 then s.haltNow q f 12 else s | none => s
  | .plan => s.planFault
  | .demod q f => s.onDemod q f fun d => { d with wins := d.wins.map fun w => { w with bad := true } }
  | .dma n => if (s.dmaCh n).busy then s.dmaFail n 4 else s
  | .no | .other | .corrected => s

/-- The feedback core of a unit faults with cause 8 (R165, R176). -/
def State.coreError (s : State) (x : FUnit) : State :=
  match s.boundTo x.pq with
  | some q => s.coreFault q x.a 8
  | none => s

/-- The containment of an error, and the test or the verdict (R528, R530, R533): `v` is a verdict that spares the test. -/
def State.contain (s : State) (x : FUnit) (obj detail : Nat) (v : Option (Option Nat)) (flags : Nat) (page : Option (Nat × Nat)) : State :=
  let go := fun (a : State) (remapped : Bool) =>
    match v with
    | some o => a.unitFail x obj detail o flags remapped page
    | none => a.startTest x .error obj detail remapped page
  match x.kind with
  | 1 | 2 | 3 =>
    if s.rowsUsed x < x.spareRows then go (s.useRow x true) true
    else if x.kind = 1 then (s.logFault (quireUnit x.pq) 0 0 obj detail).quireError x.pq detail
    else go s false
  | 5 | 6 =>
    if s.svc.moves.any fun m => m.back && m.unit == x then
      go (s.onSvc fun y => { y with moves := y.moves.filter fun m => m.unit != x }) false
    else if s.inUse x && s.spareOpen x then
      s.onSvc fun y => { y with moves := y.moves ++ [{ unit := x, back := false, verdict := v, flags := flags, object := obj, detail := detail }] }
    else go s false
  | 7 => go (s.coreError x) false
  | 9 => match v with
    | some o => (match s.boundTo x.pq, s.svc.migration, s.svc.spq with
      | some q, none, some t => s.startMigration q t .retire
      | some q, _, _ => (s.stopQuire q).unitFail x obj detail o flags false none
      | none, _, _ => s.unitFail x obj detail o flags false none)
    | none => s.quireError x.pq detail
  | 10 => go (s.setCauses [x.c] mHost false) false
  | 13 => go ((s.onRf fun r => r.fall (4 + x.a) s.now).setCauses (chipDacs x.a) mLink true) false
  | _ => go s false

/-- The kinds whose errors this row reports: lanes, pinned Stitches and bias channels have rows of their own. -/
def errorKind (k : Nat) : Bool := k != 0 && k != 4 && k != 8 && k != 12

/-- A detected error of a unit (R527, R529, R530); one of a core that has been started again during its test faults it again (R176), and that of a
column of a plan is a fault of its array, spared or not (R256). Outside RUN and REDUCED it is logged, and the self-tests of the next BOOT decide. -/
def State.detect (s : State) (x : FUnit) (detail flags : Nat) (page : Option (Nat × Nat)) : State :=
  let obj := s.objectOf x
  let moving := (x.kind == 5 || x.kind == 6) && s.inUse x && s.spareOpen x
  let s1 := (if x.kind = 5 ∧ s.inCorr x.pq then s.planFault else s).logFault x 0 (flags + ofBool moving) obj detail
  if !s.runs || s.underTest x || (s.svc.moves.any fun m => !m.back && m.unit == x) then
    (if x.kind = 7 ∧ s.underTest x then s1.coreError x else s1)
  else if s.recurring x then s1.contain x obj detail (if x.kind = 9 then none else some (some 5)) 0 page
  else s1.contain x obj detail none 0 page

/-- The corrected errors of a unit: how many, and when those of the last second were. -/
def State.correctedOf (s : State) (x : FUnit) : Nat × List Nat :=
  match s.svc.corrected.find? fun e => e.1 == x with
  | some e => (e.2.1, e.2.2.filter fun t => decide (s.now < t + uS))
  | none => (0, [])

/-- A code corrects an error of a memory: it is counted (R165), and 16 within 1 s in one row are an error of the row (R528). -/
def State.correctedError (s : State) (x : FUnit) (detail : Nat) (page : Option (Nat × Nat)) : State :=
  let c := s.correctedOf x
  let row := x.kind == 1 || x.kind == 2 || x.kind == 3
  let full := row && decide (15 ≤ c.2.length)
  let s1 := s.onSvc fun v =>
    { v with corrected := (x, satAdd 32 c.1 1, if full || !row then [] else s.now :: c.2) :: v.corrected.filter fun e => e.1 != x }
  if full then s1.detect x detail 0 page else s1

/-- ERROR_DETECTED: a unit shows an error (R527); `lost` tells what met uncorrectable data, `page` the page of a region in which a DRAM
row lies. -/
def execErrorDetected (kind : Fin 14) (phys detail : BitVec 32) (lost : Lost) (page : Option (Nat × Nat)) (s : State) :
    Host.Outcome State Fault Refusal :=
  let x : FUnit := { kind := kind.val, phys := phys.toNat }
  if errorKind kind.val && x.ok && s.dev.st != .off && !s.isRetired x then
    if lost = .corrected then .next (s.correctedError x detail.toNat page) else .next ((s.consume x lost).detect x detail.toNat (if lost = .no then 0 else 2) page)
  else .next s

/-- SLIP: a pinned Stitch into an island slips (R393): it is counted, the discontinuity event fires, and the crossing is re-centred. -/
def execSlip (i : Fin 50) (s : State) : Host.Outcome State Fault Refusal :=
  if s.dev.st == .off then .next s
  else
    let s1 := (s.onClk fun c => { c with islands := tmod .reset c.islands i.val fun x => { x with slips := inc32 x.slips } }).refEvent
    let n := (tget Island.reset s1.clk.islands i.val).slips
    let x : FUnit := { kind := 8, phys := if i.val < 16 then physOf 31 i 0 0 else if i.val < 33 then physOf (i - 16) 16 0 0 else physOf (i - 33) 17 0 0 }
    .next (if s1.isRetired x then s1 else s1.detect x n 0 none)

/-- SELFTEST_DONE: the i-th of the running tests ends with a pass or a fail (R527, R535, R551). -/
def execSelftestDone (i : Nat) (pass : Bool) (s : State) : Host.Outcome State Fault Refusal :=
  match s.svc.tests.drop i with
  | [] => .next s
  | t :: _ =>
    let s1 := (s.advanceTo t.till).onSvc fun v => { v with tests := v.tests.take i ++ v.tests.drop (i + 1) }
    let x := t.unit
    let s2 := match t.why with
      | .selftest => if pass then s1.resolve (wait .selftest x.kind x.phys) [] else s1.failWait (wait .selftest x.kind x.phys) (err 0x1101 0)
      | .readmit =>
        if pass then (((s1.unitBack x).logFault x 4 0 (s1.objectOf x) t.detail).backToRun).resolve (wait .readmit x.kind x.phys) []
        else s1.failWait (wait .readmit x.kind x.phys) (err 0x1101 0)
      | .error => if pass then (s1.transientPass x t.object t.detail).unitPass t else s1.unitFail x t.object t.detail none 0 t.remapped t.page
    .next s2.raisePoints

/-! ### Moves (R532, R533) -/

/-- The present instant is a block boundary of the plans. -/
def State.atBlock (s : State) : Bool := s.ct.nextB != 0 && s.now == s.blockLabel (s.ct.nextB - 1)

/-- The boundary of a move has come: the Quire's next sequence boundary for a Folio and for array 5 in CONTROL, the plan's next block
boundary for a column; where no boundary is to be waited for, at once. -/
def State.moveReady (s : State) (q : Nat) (x : FUnit) : Bool :=
  if s.pers q = .control then (x.kind == 5 && x.a != 5) || s.seqBoundary q
  else x.kind == 6 || !s.inPlan q || s.atBlock

/-- The unit left out of its map. -/
def State.setHole (s : State) (q : Nat) (x : FUnit) (h : Nat) : State :=
  if x.kind = 6 then s.onQb q fun b => { b with fhole := h }
  else (s.onPhys x.pq fun p => { p with xcol := lput p.xcol x.a h }).onQb q fun b => { b with cspared := setBit b.cspared x.a (h != 32) }

/-- SPARE_MOVE: the i-th of the moves that wait finds its boundary (R533). -/
def execSpareMove (i : Nat) (s : State) : Host.Outcome State Fault Refusal :=
  match s.svc.moves.drop i with
  | [] => .next s
  | m :: _ =>
    let x := m.unit
    let s0 := s.onSvc fun v => { v with moves := v.moves.take i ++ v.moves.drop (i + 1) }
    match s.boundTo x.pq with
    | none => .next (if m.back then s0 else match m.verdict with
        | none => s0.startTest x .error noObject m.detail false none
        | some o => (s0.unitFail x noObject m.detail o m.flags false none).resolve (wait .retire x.kind x.phys) [])
    | some q =>
      if !s.moveReady q x then .next s
      else if m.back then .next (s0.setHole q x 32)
      else
        let s1 := s0.setHole q x (if x.kind = 6 then x.a else x.b)
        .next (match m.verdict with
          | none => s1.startTest x .error m.object m.detail false none
          | some o => (s1.unitFail x m.object m.detail o m.flags false none).resolve (wait .retire x.kind x.phys) [])

/-- FABRIC_STALL: a request has waited longer than 10 µs at a bulk port (R25). -/
def execFabricStall (port : Fin 26) (s : State) : Host.Outcome State Fault Refusal :=
  .next (s.onDev fun d => { d with stalls := tmod 0 d.stalls port.val inc32 })

/-- BIAS_CHIPLET_FAULT: the checks of the bias chiplet fail, or pass again (R469, R592). -/
def execBiasChipletFault (on : Bool) (s : State) : Host.Outcome State Fault Refusal :=
  if s.dev.st == .off then .next s
  else
    let s1 := s.onClk fun c => { c with bscFault := on }
    .next (if on && s.runs then s1.toEndpaper 4 0 0 else s1)

end Sys2Proof.Machine
end

