-- ==== Sys2Proof/Machine/Live.lean ====
section
/-! DEFINITION. Live service (16): the fault log and the self-test opcodes, Quire migration (R541 to R544) and the memory regions (R540, R553). -/
namespace Sys2Proof.Machine

namespace Status
def noSpareQuire : Nat := 0x1100
def selftestFail : Nat := 0x1101
def fwStateIncompat : Nat := 0x1102
def fwNotOnTrial : Nat := 0x1103
def unitNotRetired : Nat := 0x1104
def memFull : Nat := 0x1105
def migVersion : Nat := 0x1106
def unitInUse : Nat := 0x1107
end Status

/-! ### The log and the policy (R536, R537, R549) -/

/-- The 32 bytes of a log entry. -/
def FaultEntry.bytes (e : FaultEntry) : List Byte :=
  leBytes 4 e.lseq ++ dtBytes e.time ++ leBytes 1 e.unit.kind ++ leBytes 1 e.outcome ++ leBytes 1 e.flags ++ zeros 1 ++ leBytes 4 e.unit.phys ++
    leBytes 4 e.object ++ leBytes 4 e.detail

/-- FAULT_LOG_READ: the entries from LSEQ FROM on, oldest first; what MGMT has read no longer holds ALERT_N (R537, R549). -/
def opFaultLogRead : OpSpec :=
  { cls := [.device], priv := fun _ => .observer, ep := fun _ => true, changes := false, len := some 8, keys := fun _ => [],
    fields := fun _ _ => [fU 4 1 1 126, fR 5 3],
    run := fun c s =>
      let old := s.svc.log.reverse
      let es := (if c.u 0 4 = 0 then old else old.filter fun e => decide ((e.lseq + 2 ^ 32 - c.u 0 4) % 2 ^ 32 < 2 ^ 31)).take (c.u 4 1)
      let s1 := if c.port = 5 then s.noting fun s => s.onSvc fun v => { v with unread := v.unread.filter fun n => !es.any fun e => e.lseq == n } else s
      (s1, .ok (leBytes 1 es.length ++ zeros 3 ++ leBytes 4 s.svc.logWrap ++ es.flatMap FaultEntry.bytes)) }

/-- The registration of EV_FAULT. -/
def faultEvents (p : List Byte) : List EvField := [evField 0x1001 true (u p 4 2)]

/-- FAULT_POLICY_SET (R530, R549). -/
def opFaultPolicySet : OpSpec :=
  { cls := [.device], priv := fun _ => .owner, ep := fun _ => true, len := some 8, keys := fun _ => [devKey 0x1001],
    fields := fun _ _ => [fU 0 2 0 1000, fU 2 2 1 86400, fCh 4, fR 6 2],
    reg := fun c s => s.evFieldsCheck c.port deviceId (faultEvents c.p),
    run := fun c s =>
      ((s.evFieldsApply c.port deviceId (faultEvents c.p)).onSvc fun v =>
        { v with transLimit := c.u 0 2, transWindow := c.u 2 2, evFault := c.u 4 2 }, .ok []) }

/-- A QBIND entry (R18). -/
def QBind.word (b : QBind) : Nat :=
  b.pq + b.pers.code * 2 ^ 5 + b.fhole * 2 ^ 8 + ofBool b.flost * 2 ^ 14 + b.cspared * 2 ^ 15 + b.clost * 2 ^ 21 + ofBool b.busy * 2 ^ 27

/-- The QSTAT word (R19). -/
def State.qstat (s : State) : Nat :=
  (List.range 17).foldl (fun m p => if s.svc.retired.contains p then m + 2 ^ p else m) 0 + (s.svc.spq.getD 31) * 2 ^ 17

/-- PSTATE of a physical Quire (R550). -/
def State.pstate (s : State) (p : Nat) : Nat :=
  if s.quireTest p then 5
  else if (match s.svc.migration with | some m => m.target == p || s.pq m.q == p | none => false) then 4
  else if s.svc.retired.contains p then 3
  else if (s.boundTo p).isSome then 0
  else if s.svc.spq = some p then 1 else 2

/-- SPARE_STATUS (R550). -/
def opSpareStatus : OpSpec :=
  { readOp [.device] 0 (fun _ s =>
      s.dev.qbind.flatMap (fun b => leBytes 4 b.word) ++ leBytes 4 s.qstat ++ zeros 4 ++
        (List.range 17).flatMap fun p =>
          let x := s.physQ p
          leBytes 1 (s.pstate p) ++ zeros 1 ++ leBytes 2 x.srows ++ leBytes 8 x.fbad ++ x.xcol.flatMap (leBytes 1) ++ zeros 2 ++ leBytes 4 x.mcode)
    with ep := fun _ => true }

/-! ### SELFTEST_RUN, UNIT_READMIT, UNIT_RETIRE (R535, R551) -/

/-- The unit that the parameters name. -/
def Cmd.unit (c : Cmd) : FUnit := { kind := c.u 0 1, phys := c.u 4 4 }

/-- The parameter table of R551. -/
def unitFields : List Field := [fU 0 1 1 13, fR 1 3, fX 4 fun p => FUnit.ok { kind := u p 0 1, phys := u p 4 4 }]

/-- A test of the unit, or one that excludes it, is running (R529). -/
def State.testBusy (s : State) (x : FUnit) : Option Err :=
  match s.svc.tests.find? fun t => t.unit == x || (t.unit.inQuire && x.inQuire && t.unit.pq == x.pq && (t.unit.kind == 9 || x.kind == 9)) with
  | some t => some (eBusy (s.usUntil t.till))
  | none => none

/-- SELFTEST_RUN (R551). -/
def opSelftestRun : OpSpec :=
  { cls := [.device], priv := fun _ => .owner, len := some 8, keys := fun _ => [], fields := fun _ _ => unitFields,
    more := fun c s => failIf (s.inUse c.unit) (err Status.unitInUse 0),
    busy := fun c s => s.testBusy c.unit,
    run := fun c s => (s.startTest c.unit .selftest (s.objectOf c.unit) 0 false none, .accepted [wait .selftest (c.u 0 1) (c.u 4 4)] false none) }

/-- UNIT_READMIT (R535, R551). -/
def opUnitReadmit : OpSpec :=
  { cls := [.device], priv := fun _ => .owner, len := some 8, keys := fun _ => [], fields := fun _ _ => unitFields,
    more := fun c s => failIf (!s.isRetired c.unit) (err Status.unitNotRetired 0),
    busy := fun c s => s.testBusy c.unit,
    run := fun c s => (s.startTest c.unit .readmit (s.objectOf c.unit) 0 false none, .accepted [wait .readmit (c.u 0 1) (c.u 4 4)] false none) }

/-- UNIT_RETIRE (R551): the unit's work is spared or stopped as for a failed test. A unit that is retired already gets E_STATE. DESIGN
CHOICE. -/
def opUnitRetire : OpSpec :=
  { cls := [.device], priv := fun _ => .owner, len := some 8, keys := fun _ => [], fields := fun _ _ => unitFields,
    more := fun c s => stateIf s (s.isRetired c.unit),
    busy := fun c s => s.testBusy c.unit,
    run := fun c s =>
      let x := c.unit
      let s1 := s.contain x (s.objectOf x) 0 (some none) 4 none
      let waits := (s1.svc.moves.any fun m => m.unit == x && !m.back) || (x.kind == 9 && match s1.svc.migration with | some m => m.why == .retire | none => false)
      (s1, .accepted (if waits then [wait .retire x.kind x.phys] else []) false none) }

/-! ### Migration (R541 to R544, R552) -/

/-- MAJOR of a VERSION (R556). -/
def majorOf (version : Nat) : Nat := bits version 24 8

/-- A migration would leave two major versions of the microcode in one plan (R544). -/
def State.versionSplit (s : State) (q : Nat) : Bool :=
  [s.plans.corr.run, s.plans.beam.run].any fun r =>
    r.active && r.members.contains q && r.members.any fun m => m != q && majorOf (s.physQ (s.pq m)).mcode != majorOf s.microcode

/-- A member of a plan has less than 20 µs to spare in a block (R542). -/
def State.tightMember (s : State) (q : Nat) : Bool :=
  [s.plans.corr.run, s.plans.beam.run].any fun r =>
    r.active && r.members.contains q &&
      match s.ct.cfg with
      | some k => decide ((k.b : Rat) / r.clk.fch - ((r.umax * k.b : Nat) : Rat) / (pointHz r.point : Rat) < 20 / 1000000)
      | none => false

/-- QUIRE_MIGRATE (R541 to R544). -/
def opQuireMigrate : OpSpec :=
  { cls := [.quire], len := some 4, fields := fun _ _ => [fR 0 4],
    busy := fun _ s => failIf s.svc.migration.isSome (eBusy hintUnknown),
    cap := fun c s => failIf (s.svc.migration.isNone && s.svc.spq.isSome && s.tightMember c.q) eCapacity,
    more := fun c s => if s.svc.migration.isSome then none else
      firstErr [failIf s.svc.spq.isNone (err Status.noSpareQuire 0), failIf (s.versionSplit c.q) (err Status.migVersion 0)],
    run := fun c s => match s.svc.spq with
      | some t => (s.startMigration c.q t .command, .accepted [wait .migrate c.q 0] false none)
      | none => (s, .fail (err Status.noSpareQuire 0)) }

/-- Bytes at 128 GB/s, in units of device time. -/
def copyTime (n : Nat) : Nat := n * uNs / 128

/-- What a pre-copy moves: 16 MiB of SRAM, the Folios' step memories and parameter lists, the cores' memories (R541, and the worked migration
of 16). -/
def copyBytes : Nat := 16777216 + 1572864 + 262144

/-- PRECOPY_DONE: a pass ends with so many bytes written meanwhile; with at most 512 KiB the switch is awaited (R542). -/
def execPrecopyDone (dirty : Nat) (s : State) : Host.Outcome State Fault Refusal :=
  match s.svc.migration with
  | none => .next s
  | some m =>
    if m.copied then .next s
    else
      let s1 := s.advanceTo (m.since + copyTime (if m.first then copyBytes else m.dirty))
      .next (s1.onSvc fun v => { v with migration := some { m with since := s1.now, first := false, copied := decide (dirty ≤ 524288), dirty := dirty } })

/-- A feedback core may be moved (R542): it does not run, or it waits after a SAFE with nothing open. -/
def FbCore.movable (c : FbCore) : Bool :=
  match c.st with
  | .running => false
  | .waiting => c.safeSt == 2
  | _ => true

/-- What remains of the boundary waits of a CONTROL Quire: until the first of them ends. -/
def State.boundaryLeft (s : State) (q : Nat) : Option Nat :=
  ((s.synq q).folios.filterMap fun e => match e.2.wait with
    | some (.until n true) => if e.2.st = .waiting then some (outTime n - s.now) else none
    | _ => none).min?

/-- The last block boundary was an integration boundary of a Quire (R238). -/
def State.atIntegration (s : State) (q : Nat) : Bool := s.integrationEdge q (s.ct.nextB - 1)

/-- The next integration boundary of a member of a plan (R21, R238). -/
def State.boundaryAt (s : State) (q : Nat) : Option Nat :=
  if !s.blocksCome || !s.inPlan q then none
  else (((List.range 1048576).map fun j => s.ct.nextB + j).find? fun m => s.integrationEdge q m).map fun m => s.blockLabel m

/-- The switch-over may take place at the present tick (R542). A Quire that does no work has no boundary to wait for. -/
def State.maySwitch (s : State) (m : Migration) : Bool :=
  let need := 6 * uUs + copyTime m.dirty
  m.copied && decide (m.dirty ≤ 524288) &&
  (match s.pers m.q with
  | .control =>
    s.seqBoundary m.q && ((s.roq m.q).demods.all fun e => e.2.wins.all fun w => !w.openAt (sampleOf s.now)) &&
      ((s.fbq m.q).cores.all fun e => e.2.movable) &&
      (match s.boundaryLeft m.q with | some t => decide (need + 4 * uUs ≤ t) | none => true)
  | .correlate | .beamform => !s.inPlan m.q || (s.atBlock && s.atIntegration m.q)
  | _ => true)

/-- The crossing of a Quire whose core island is below P1 is ordinary (R28, R394). -/
def State.unpinSlow (s : State) (q : Nat) : State :=
  if 1 < (s.coreIsl (s.pq q)).use then s.onClk fun c => { c with pinned := c.pinned.filter fun x => x != q } else s

/-- The binding changes (R21, R542): the released physical Quire becomes the spare, is tested where it failed (R532), or is retired (R551). -/
def State.switch (s : State) (m : Migration) : State :=
  let old := s.pq m.q
  let s1 := ((s.onSvc fun v => { v with migration := none, spq := none, moves := v.moves.filter fun x => x.unit.pq != old }).selfClaim m.q).onQb m.q fun b => b.to' m.target (s.physQ m.target)
  let s2 := (if s.inPlan m.q then s1.redeal else s1).unpinSlow m.q
  (match m.why with
  | .command => (s2.onSvc fun v => { v with spq := some old }).resolve (wait .migrate m.q 0) []
  | .failure => (s2.fillSpare.resolve (wait .migrate m.q 0) []).startTest (quireUnit old) .error (quireId m.q) 0 false none
  | .retire => (((s2.retireQuire old).fillSpare.logFault (quireUnit old) 2 4 (quireId m.q) 0).resolve (wait .retire 9 old) [])).raisePoints

/-- MIGRATION_SWITCH: at a tick at which it may, the dirty lines and the registers are copied, and the binding changes (R542). -/
def execMigrationSwitch (s : State) : Host.Outcome State Fault Refusal :=
  match s.svc.migration with
  | none => .next s
  | some m => .next (if s.maySwitch m then (s.advanceTo (s.now + 6 * uUs + copyTime m.dirty)).switch m else s)

/-! ### Memory regions (R540, R553) -/

/-- The lowest free handle. -/
def State.freeHandle (s : State) : Option Nat := (List.range 2048).find? fun h => (tget none s.svc.regions h).isNone

/-- MEM_ALLOC: MEM_FULL where the DRAM in service or the handles do not suffice. -/
def opMemAlloc : OpSpec :=
  { cls := [.device], len := some 16, keys := fun _ => [],
    fields := fun _ _ => [fP 0 8 (fun n => decide (65536 ≤ n) && decide (n ≤ 51539607552) && n % 65536 == 0), fU 8 1 0 1, fR 9 7],
    more := fun c s => failIf (s.freeHandle.isNone || decide (s.dramTotal < s.regionTotal + c.u 0 8)) (err Status.memFull 0),
    run := fun c s => match s.freeHandle with
      | some h =>
        let r : Region := { size := c.u 0 8, owner := c.port, shared := c.u 8 1 == 1, mfault := false, zeroed := false, retiredPages := [] }
        (s.onSvc fun v => { v with regions := tput none v.regions h (some r), dram := v.dram.filter fun e => e.1 / 2 ^ 40 != h },
          .accepted [wait .memAlloc h 0] false none)
      | none => (s, .fail (err Status.memFull 0)) }

/-- REGION_ZEROED: the zeroing of a new region finishes. -/
def execRegionZeroed (h : Fin 2048) (s : State) : Host.Outcome State Fault Refusal :=
  match tget none s.svc.regions h.val with
  | some r =>
    if r.zeroed then .next s
    else .next ((s.onSvc fun v => { v with regions := tput none v.regions h.val (some { r with zeroed := true }) }).resolve (wait .memAlloc h 0)
      (leBytes 2 h.val ++ zeros 2))
  | none => .next s

/-- The users of a region: ordinary DMA channels at work, capture units that are armed, Folios whose ring streams from it. -/
def State.dmaOn (s : State) (h : Nat) : List Nat :=
  (List.range 16).filter fun n => let d := s.dmaCh n; d.busy && d.stream.isNone && d.region == h
def State.capOn (s : State) (h : Nat) : List Nat :=
  (List.range 16).filter fun n => let x := s.capU n
    match x.cfg with | some k => k.region == h && (x.st == .armed || x.st == .recording || x.st == .holdoff) | none => false
def State.ringOn (s : State) (h : Nat) : List (Nat × Nat) :=
  (List.range 16).flatMap fun q => ((s.synq q).folios.filter fun e => e.2.ring.region == h && e.2.ring.length != 0).map fun e => (q, e.1)
def State.corrOn (s : State) (h : Nat) : Bool :=
  s.plans.corr.run.active && ((match s.plans.corr.cfg with | some p => p.vregion == h | none => false) || match s.ct.cfg with | some k => k.region == h | none => false)
def State.beamOn (s : State) (h : Nat) : Bool :=
  s.plans.beam.run.active && ((match s.plans.beam.cfg with | some p => p.wregion == h | none => false) ||
    (match lget none s.plans.beam.paths 5 with | some x => x.addr == h | none => false) || match s.ct.cfg with | some k => k.region == h | none => false)

/-- MEM_FREE (R66, R430, R540): an OPERATOR gets E_BUSY while a DMA channel or an armed capture unit uses the region; an OWNER ends them. -/
def opMemFree : OpSpec :=
  { cls := [.memregion], len := some 0, may := fun c s => s.regionErr c.port c.i,
    busy := fun c s => failIf (!s.isOwner c.port && (!(s.dmaOn c.i).isEmpty || !(s.capOn c.i).isEmpty)) (eBusy hintUnknown),
    run := fun c s =>
      let h := c.i
      let s1 := ((s.dmaOn h).foldl (fun a n => a.dmaFail n 5) s).capStopAll (s.capOn h) 4
      let s1 := (s.capOn h).foldl (fun a n => match (s.capU n).cfg with | some k => a.fireObj k.evAlarm (captureId n) | none => a) s1
      let s2 := (s.ringOn h).foldl (fun a e => if (a.folio e.1 e.2).busy then a.goLate e.1 e.2 4 else a) s1
      let s3 := if s.corrOn h then s2.corrOff else s2
      let s4 := if s.beamOn h then s3.beamOff else s3
      (s4.onSvc fun v => { v with regions := terase v.regions h, dram := v.dram.filter fun e => e.1 / 2 ^ 40 != h }, .ok []) }

/-- MEM_INFO (R553). -/
def opMemInfo : OpSpec :=
  { readOp [.memregion] 0 (fun c s =>
      let h := c.i
      match s.region h with
      | none => []
      | some r =>
        let users := ofBool (!(s.dmaOn h).isEmpty) + 2 * ofBool (s.dev.winEn && s.dev.winRegion == h) + 4 * ofBool (!(s.capOn h).isEmpty) +
          8 * ofBool (!(s.ringOn h).isEmpty) + 16 * ofBool (s.corrOn h || s.beamOn h) +
          32 * ofBool ((List.range 8).any fun n => (s.bind n).kind == 1 && (s.bind n).region == h) +
          64 * ofBool (s.bsc.seq.region == h || s.cap.engs.any fun e => e.2.cfg.dest == 1 && e.2.cfg.region == h)
        leBytes 8 r.size ++ leBytes 1 r.owner ++ leBytes 1 (ofBool r.shared) ++ leBytes 1 (ofBool r.mfault) ++ zeros 1 ++ leBytes 4 users ++
          leBytes 4 r.retiredPages.length ++ zeros 4)
    with may := fun c s => s.regionErr c.port c.i }

end Sys2Proof.Machine
end

