-- ==== Sys2Proof/Machine/Trust.lean ====
section
/-! DEFINITION. Images, keys, counters, tokens, attestation and debug access (02, R73 to R76; 17). -/
namespace Sys2Proof.Machine

namespace Status
def imgRollback : Nat := 0x1010
def imgHash : Nat := 0x1011
def imgSlotActive : Nat := 0x1012
def imgFlash : Nat := 0x1013
def keyLast : Nat := 0x1110
def keySlotUsed : Nat := 0x1111
def keyInUse : Nat := 0x1112
def privLast : Nat := 0x1113
def ctrInUse : Nat := 0x1114
def debugState : Nat := 0x1115
def unowned : Nat := 0x1116
end Status

/-! ### Keys (R564) -/

/-- A key slot, 1 to 4. -/
def State.keySlot (s : State) (k : Nat) : KeySlot := lget .empty s.trust.keys (k - 1)

/-- The valid key in a slot. -/
def State.key (s : State) (k : Nat) : Option (List Byte) := match s.keySlot k with | .valid b => some b | _ => none

/-- The device has no valid owner key (R563). -/
def State.isUnowned (s : State) : Bool := (List.range 4).all fun k => (s.key (k + 1)).isNone

/-- The state and key of a slot (R573). -/
def KeySlot.bytes : KeySlot → List Byte
  | .empty => [0] ++ zeros 97
  | .valid b => [1] ++ fit 97 b
  | .revoked => [2] ++ zeros 97

/-! ### Tokens (R560 to R563) -/

/-- The key that a token names, where the command allows it: slots 1 to 4, and the vendor service key for DEBUG_UNLOCK level 2 alone,
which takes no other. -/
def Cmd.tokenKey (c : Cmd) (s : State) (k : Nat) : Option (List Byte) :=
  let vendor := c.pkt.code == 0x110C && c.u 0 1 == 2
  if k = 0 then (if vendor then some Config.serviceKey else none) else if k ≤ 4 ∧ !vendor then s.key k else none

/-- Check step 9 for a packet with SIGNED (R561): the first reason that applies; check 5 consumes the nonce. -/
def Cmd.tokenCheck (c : Cmd) (s : State) : State × Option Err :=
  let all := c.pkt.req.params
  let t := all.drop (all.length - 176)
  let bad := fun (n : Nat) => some (err Status.eAuth n)
  if Sys2Proof.u t 0 2 ≠ 1 ∨ !allZero (slice t 3 1) ∨ Sys2Proof.u t 4 2 ≠ c.pkt.code ∨ !allZero (slice t 6 2) then (s, bad 2)
  else if Sys2Proof.u t 8 8 ≠ Config.serial.toNat then (s, bad 3)
  else match c.tokenKey s (Sys2Proof.u t 2 1) with
    | none => (s, bad 4)
    | some key =>
      let mine := tget none s.trust.nonces c.pkt.req.src.key
      let s1 := s.onTrust fun x => { x with nonces := terase x.nonces c.pkt.req.src.key }
      match mine with
      | none => (s1, bad 5)
      | some (n, at') =>
        if n ≠ slice t 16 16 ∨ at' + 300 * uS ≤ s.now then (s1, bad 5)
        else if Config.sha384 (all.take (all.length - 176)) ≠ slice t 32 48 then (s1, bad 6)
        else if !Config.verifies key (t.take 80) (slice t 80 96) then (s1, bad 7)
        else (s1, none)

/-- Check step 9 for a packet with SIGNED whose opcode takes no token (R46): a token whose signature is valid is ignored, whatever else it says, and
uses up no nonce; the failure of any other carries the first reason of R561 that applies (DEDUCED). -/
def Cmd.tokenIgnored (c : Cmd) (s : State) : State × Option Err :=
  let t := c.pkt.req.params.drop (c.pkt.req.params.length - 176)
  match c.tokenKey s (Sys2Proof.u t 2 1) with
  | some key => if Config.verifies key (t.take 80) (slice t 80 96) then (s, none) else c.tokenCheck s
  | none => c.tokenCheck s

/-- TRUST_NONCE_GET: a new nonce replaces the stream's outstanding one (R562). -/
def opTrustNonceGet : OpSpec :=
  { cls := [.device], priv := fun _ => .observer, ep := fun _ => true, len := some 0, keys := fun _ => [],
    run := fun c s =>
      let n := leBytes 16 (Config.nonce s.free).toNat
      ({ s.onTrust (fun x => { x with nonces := tput none x.nonces c.pkt.req.src.key (some (n, s.now)) }) with free := s.free + 1 }, .ok n) }

/-- NONCE_EXPIRY: 300 s after its issue an outstanding nonce expires (R562). -/
def execNonceExpiry (src : Src) (s : State) : Host.Outcome State Fault Refusal :=
  match tget none s.trust.nonces src.key with
  | some (_, t) => .next ((s.advanceTo (t + 300 * uS)).onTrust fun x => { x with nonces := terase x.nonces src.key })
  | none => .next s

/-! ### Images (R73 to R76, R556 to R558) -/

/-- A slot with two internal copies, and the capacity of a slot (R73). -/
def twoCopies (i : Nat) : Bool := i == 2 || decide (0x80 ≤ i)
def imgCapacity (i : Nat) : Nat :=
  if i ≤ 1 ∨ i = 0x80 then 8388608 else if i = 2 then 4194304 else if i = 0x81 then 65536 else if i = 0x82 then 1048576 else 262144

/-- The privilege that writes a slot. -/
def imgPriv (c : Cmd) : Priv := if 0x10 ≤ c.i ∧ c.i ≤ 0x4F then .operator else .owner

/-- The ENDPAPER subset holds the writes of the firmware slots (R74). -/
def imgEp (c : Cmd) : Bool := decide (c.i ≤ 1)

/-- A copy of a slot. -/
def ImgSlot.copy (x : ImgSlot) (n : Nat) : ImgCopy := if n = 0 then x.a else x.b

/-- The copy that a write goes to: the only one, or the older one; a copy that is not valid counts as the older. -/
def ImgSlot.target (x : ImgSlot) (i : Nat) : Nat :=
  if !twoCopies i then 0
  else if !x.a.valid then 0 else if !x.b.valid then 1 else if x.a.age ≤ x.b.age then 0 else 1

/-- The signers and the counters of R557. -/
def signerFits (i k : Nat) : Bool := if i ≤ 2 then k == 0 else if 0x80 ≤ i then decide (k ≤ 4) else decide (1 ≤ k) && decide (k ≤ 4)
def counterFits (i n : Nat) : Bool := if 0x10 ≤ i ∧ i ≤ 0x4F then decide (5 ≤ n) && decide (n ≤ 63) else n == imgCounter i

/-- The verification of an image at its commit (R558). -/
def State.imageErr (s : State) (i : Nat) (x : ImgCopy) : Option Err :=
  let b := x.read
  let body := u b 20 4
  let key := if u b 8 1 = 0 then some Config.vendorKey else s.key (u b 8 1)
  let signed := match key with | some k => Config.verifies k (b.take (128 + body)) (slice b (128 + body) 96) | none => false
  if u b 0 4 ≠ 0x494E5341 ∨ u b 4 2 ≠ 1 ∨ u b 6 2 ≠ imgType i ∨ !counterFits i (u b 9 1) ∨ x.len ≠ 224 + body ∨
      Config.sha384 (slice b 128 body) ≠ slice b 32 48 then some (err Status.imgHash 0)
  else if !signerFits i (u b 8 1) ∨ (u b 24 8 ≠ 0 ∧ u b 24 8 ≠ Config.serial.toNat) ∨ !signed then some (err Status.eAuth 0)
  else if svnOf (u b 12 4) < tget 0 s.trust.counters (u b 9 1) then some (err Status.imgRollback 0)
  else none

/-- IMAGE_INFO: of a slot without a valid copy every field reads 0 (R74). Of a two-copy slot whose older copy is being written it shows the other copy,
VALID 1: the newest valid copy stays in use (R73, R75). DESIGN CHOICE. -/
def opImageInfo : OpSpec :=
  { readOp [.image] 0 (fun c s => match s.newest c.i with
      | some x => leBytes 4 1 ++ leBytes 4 x.len ++ leBytes 4 (x.u 12 4) ++ leBytes 4 (x.u 8 1) ++ Config.sha384 x.read
      | none => zeros 64)
    with ep := fun _ => true }

/-- IMAGE_WRITE_BEGIN (R75): the target is invalid from now on. -/
def opImageWriteBegin : OpSpec :=
  { cls := [.image], priv := imgPriv, ep := imgEp, len := some 8,
    fields := fun c _ => [fP 0 4 (fun n => decide (64 ≤ n) && decide (n ≤ imgCapacity c.i) && n % 4 == 0), fR 4 4],
    more := fun c s => failIf (decide (c.i ≤ 1) && s.dev.fwRunning == c.i) (err Status.imgSlotActive 0),
    run := fun c s =>
      let n := (s.img c.i).target c.i
      (s.onImg c.i fun x => { x.onCopy n (fun y => { y with len := c.u 0 4, bytes := [], valid := false }) with opened := some n, begun := false },
        .accepted [wait .imageBegin c.i 0] true none) }

/-- IMAGE_WRITE_DATA (R75). While the erasure of the BEGIN before it runs, the slot is held and the command gets E_BUSY (R53). -/
def opImageWriteData : OpSpec :=
  { cls := [.image], priv := imgPriv, ep := imgEp, len := none, lenMin := 12, lenOk := fun n => decide (12 ≤ n) && decide (n ≤ 4064),
    state := fun c s => stateIf s (s.img c.i).opened.isNone,
    fields := fun c s =>
      let x := s.img c.i
      let len := (x.copy (x.opened.getD 0)).len
      [fX 0 (fun p => decide (u p 0 4 + 4 ≤ len) && u p 0 4 % 4 == 0), fR 4 4, fX 8 fun p => decide (u p 0 4 + (p.length - 8) ≤ len)],
    run := fun c s =>
      (s.onImg c.i fun x => x.onCopy (x.opened.getD 0) fun y => { y with bytes := tputs 0xFF y.bytes (c.u 0 4) (c.p.drop 8) }, .ok []) }

/-- IMAGE_COMMIT (R75, R76, R558): an image that fails its checks gets that status at once, not as a DEFERRED reply (DESIGN CHOICE), and leaves the
slot erased, invalid and closed. -/
def opImageCommit : OpSpec :=
  { cls := [.image], priv := imgPriv, ep := imgEp, len := some 0,
    state := fun c s => stateIf s (s.img c.i).opened.isNone,
    run := fun c s =>
      let x := s.img c.i
      match s.imageErr c.i (x.copy (x.opened.getD 0)) with
      | some e => (s.onImg c.i ImgSlot.failed, .fail e)
      | none => (s, .accepted [wait .imageCommit c.i 0] false none) }

/-- IMAGE_ERASE (R75). -/
def opImageErase : OpSpec :=
  { cls := [.image], priv := imgPriv, len := some 0, state := fun c s => stateIf s (0x80 ≤ c.i),
    more := fun c s => failIf (decide (c.i ≤ 1) && s.dev.fwRunning == c.i) (err Status.imgSlotActive 0),
    run := fun c s => (s.onImg c.i fun _ => .empty, .accepted [wait .imageErase c.i 0] true none) }

/-! ### Rollback counters (R559) -/

def State.counter (s : State) (n : Nat) : Nat := tget 0 s.trust.counters n

/-- Raising a counter would leave a slot that it governs without a valid copy. -/
def State.ctrNeeded (s : State) (n v : Nat) : Bool :=
  let t := s.onTrust fun x => { x with counters := tput 0 x.counters n v }
  let slots := match n with
    | 1 => [2] | 2 => [0x80] | 3 => [0x81] | 4 => [0x82]
    | _ => match s.trust.lastApply with | some k => [0x10 + k] | none => []
  slots.any fun i => (match s.newest i with | some x => x.u 9 1 == n | none => false) && (t.newest i).isNone

/-- CTR_ADVANCE (R559). -/
def opCtrAdvance : OpSpec :=
  { cls := [.device], priv := fun _ => .owner, ep := fun _ => true, token := fun _ _ => true, len := some 4, keys := fun _ => [devKey 0x110A],
    fields := fun _ s => [fU 0 1 1 63, fR 1 1, fX 2 fun p => decide (s.counter (u p 0 1) ≤ u p 2 2) && decide (u p 2 2 ≤ 4095)],
    more := fun c s => failIf (s.ctrNeeded (c.u 0 1) (c.u 2 2)) (err Status.ctrInUse 0),
    run := fun c s => (s.onTrust fun x => { x with counters := tput 0 x.counters (c.u 0 1) (c.u 2 2) }, .ok []) }

/-- Counters 0 to 63, 2 bytes each. -/
def State.ctrBytes (s : State) : List Byte := (List.range 64).flatMap fun n => leBytes 2 (s.counter n)

/-- CTR_GET. -/
def opCtrGet : OpSpec := { readOp [.device] 0 (fun _ s => s.ctrBytes) with ep := fun _ => true }

/-! ### Owner keys (R564 to R567) -/

/-- OWNER_KEY_SET (R565): the first claim comes from MGMT without a token. -/
def opOwnerKeySet : OpSpec :=
  { cls := [.device], priv := fun _ => .owner, ep := fun _ => true, len := some 104, keys := fun _ => [devKey 0x1104],
    token := fun c s => !(s.isUnowned && c.port == 5),
    fields := fun _ _ => [fU 0 1 1 4, fR 1 3, fX 4 (fun p => u p 4 1 == 4 && Config.pointOnCurve (slice p 4 97)), fR 101 3],
    more := fun c s => failIf (s.key (c.u 0 1)).isSome (err Status.keySlotUsed 0),
    run := fun c s => (s.onTrust fun x => { x with keys := lput x.keys (c.u 0 1 - 1) (.valid (slice c.p 4 97)) }, .ok []) }

/-- A table of the boot path is signed by a key that `p` picks, in its newest valid copy (R566, R567). -/
def State.bootSigned (s : State) (p : Nat → Bool) : Bool :=
  [0x80, 0x81, 0x82].any fun i => match s.newest i with | some x => p (x.u 8 1) | none => false

/-- OWNER_KEY_REVOKE (R566): the images signed by the key are invalid at once. A slot without a valid key gets E_STATE. DESIGN CHOICE. -/
def opOwnerKeyRevoke : OpSpec :=
  { cls := [.device], priv := fun _ => .owner, ep := fun _ => true, token := fun _ _ => true, len := some 4, keys := fun _ => [devKey 0x1104],
    fields := fun _ _ => [fU 0 1 1 4, fR 1 3],
    more := fun c s =>
      let k := c.u 0 1
      firstErr [stateIf s (s.key k).isNone, failIf ((List.range 4).all fun j => j + 1 == k || (s.key (j + 1)).isNone) (err Status.keyLast 0),
        failIf (s.bootSigned fun j => j == k) (err Status.keyInUse 0)],
    run := fun c s =>
      let k := c.u 0 1
      let drop := fun (y : ImgCopy) => if y.u 8 1 = k then { y with valid := false } else y
      ((s.onTrust fun x => { x with keys := lput x.keys (k - 1) .revoked }).onDev fun d =>
        { d with images := d.images.map fun e => (e.1, { e.2 with a := drop e.2.a, b := drop e.2.b }) }, .ok []) }

/-- OWNER_KEY_GET (R573). -/
def opOwnerKeyGet : OpSpec := { readOp [.device] 0 (fun _ s => s.trust.keys.flatMap KeySlot.bytes) with ep := fun _ => true }

/-- OWNER_RELEASE (R567): nothing changes before the erasures have ended. -/
def opOwnerRelease : OpSpec :=
  { cls := [.device], priv := fun _ => .owner, ep := fun _ => true, token := fun _ _ => true, len := some 4, keys := fun _ => [devKey 0x1104],
    fields := fun _ _ => [fR 0 4],
    more := fun _ s => failIf (s.bootSigned fun j => j != 0) (err Status.keyInUse 0),
    run := fun _ s => (s, .accepted [wait .ownerRelease 0 0] false none) }

/-- The owner leaves: keys, configuration images, counters 5 to 63 and privileges go back (R34, R567). -/
def State.release (s : State) : State :=
  ((s.onTrust fun x => { x with keys := Trust.reset.keys, counters := x.counters.filter fun e => decide (e.1 < 5), lastApply := none }).onDev fun d =>
    { d with images := d.images.filter fun e => !(decide (0x10 ≤ e.1) && decide (e.1 ≤ 0x4F)), priv := Dev.reset.priv }).secureSofts

/-- FLASH_OPERATION_DONE: a flash operation finishes, or fails (R75, R76, R567). -/
def execFlashOperationDone (w : FlashWork) (ok : Bool) (s : State) : Host.Outcome State Fault Refusal :=
  let flash := err Status.imgFlash 0
  match w with
  | .release =>
    let k := wait .ownerRelease 0 0
    if (s.heldOn k).isNone then .next s else .next (if ok then s.release.resolve k [] else s.failWait k flash)
  | .slot i =>
    let close := fun (a : State) => a.onImg i.val ImgSlot.failed
    if (s.heldOn (wait .imageBegin i 0)).isSome then
      .next (if ok then (s.onImg i.val fun x => { x with begun := true }).resolve (wait .imageBegin i 0) [] else (close s).failWait (wait .imageBegin i 0) flash)
    else if (s.heldOn (wait .imageCommit i 0)).isSome then
      let age := s.dev.imgAge + 1
      .next (if ok then
          (((s.onImg i.val fun x => { x.onCopy (x.opened.getD 0) (fun y => { y with valid := true, age := age }) with opened := none, begun := false }).onDev fun d =>
            { d with imgAge := age }).resolve (wait .imageCommit i 0) [])
        else (close s).failWait (wait .imageCommit i 0) flash)
    else if (s.heldOn (wait .imageErase i 0)).isSome then
      .next (if ok then s.resolve (wait .imageErase i 0) [] else s.failWait (wait .imageErase i 0) flash)
    else .next s

/-! ### Privileges (R568, R573) -/

/-- PRIV_SET. -/
def opPrivSet : OpSpec :=
  { cls := [.device], priv := fun _ => .owner, ep := fun _ => true, token := fun _ _ => true, len := some 4, keys := fun _ => [devKey 0x1108],
    fields := fun _ _ => [fU 0 1 0 5, fU 1 1 0 2, fR 2 2],
    more := fun c s => failIf (!(lput s.dev.priv (c.u 0 1) (Priv.ofCode (c.u 1 1))).any fun p => p == .owner) (err Status.privLast 0),
    run := fun c s => ((s.onDev fun d => { d with priv := lput d.priv (c.u 0 1) (Priv.ofCode (c.u 1 1)) }).secureSofts, .ok []) }

/-- PRIV_GET. -/
def opPrivGet : OpSpec := { readOp [.device] 0 (fun _ s => s.dev.priv.flatMap (fun p => leBytes 1 p.code) ++ zeros 2) with ep := fun _ => true }

/-! ### The Colophon report (R555, R569, R570) -/

/-- ID_CERT_GET (R555, R573). -/
def opIdCertGet : OpSpec :=
  { readOp [.device] 8 (fun c _ =>
      let b := Config.certificate (c.u 0 1)
      leBytes 2 b.length ++ zeros 6 ++ fit (c.u 4 2) (b.drop (c.u 2 2)))
    with ep := fun _ => true, fields := fun _ _ => [fU 0 1 0 1, fR 1 1, fU 2 2 0 1535, fP 4 2 (fun n => decide (4 ≤ n) && decide (n ≤ 1536) && n % 4 == 0), fR 6 2] }

/-- One entry of the report, and the entry of an image. -/
def entryOf (id version : Nat) (hash : List Byte) : List Byte := leBytes 2 id ++ zeros 2 ++ leBytes 4 version ++ fit 48 hash
def entryImage (id : Nat) (x : Option ImgCopy) : List Byte :=
  match x with | some c => entryOf id (c.u 12 4) (Config.sha384 c.read) | none => entryOf id 0 []

/-- Bytes 0 to 631 of the report. -/
def State.colophon (s : State) (nonce : List Byte) : List Byte :=
  let fw := s.dev.fwRunning
  let flags := ofBool s.trust.dbg1 + 2 * ofBool s.trust.dbg2 + 4 * ofBool s.isUnowned + 8 * ofBool s.svc.trial.isSome + 16 * ofBool s.bsc.cal.suspended
  leBytes 2 1 ++ leBytes 2 728 ++ leBytes 4 flags ++ leBytes 8 Config.serial.toNat ++ dtBytes s.now ++ leBytes 1 s.dev.st.code ++ zeros 3 ++
    fit 32 nonce ++ leBytes 4 s.dev.addr ++ leBytes 4 10 ++
    entryImage fw (some (s.img fw).a) ++ entryImage 2 (s.newest 2) ++ entryOf 0x10 0 s.trust.record ++ entryImage 0x80 (s.newest 0x80) ++
    entryImage 0x81 (s.newest 0x81) ++ entryImage 0x82 (s.newest 0x82) ++
    entryOf 0x100 0 (Config.sha384 (s.dev.qbind.flatMap (fun b => leBytes 4 b.word) ++ leBytes 4 s.qstat ++ (List.range 17).flatMap fun p => leBytes 4 (s.physQ p).mcode)) ++
    entryOf 0x101 0 (Config.sha384 (s.trust.keys.flatMap KeySlot.bytes)) ++ entryOf 0x102 0 (Config.sha384 s.ctrBytes) ++
    entryOf 0x103 0 (Config.sha384 (s.dev.priv.flatMap (fun p => leBytes 1 p.code) ++ s.link.ports.flatMap (fun p => leBytes 1 p.rights) ++ leBytes 1 s.trust.dbg))

/-- COLOPHON_GET. -/
def opColophonGet : OpSpec :=
  { readOp [.device] 32 (fun c s => let b := s.colophon c.p; b ++ Config.identitySign b) with ep := fun _ => true }

/-- An entry of the apply log (R570). -/
def ApplyEntry.bytes (e : ApplyEntry) : List Byte := leBytes 2 e.slot ++ leBytes 4 e.object ++ fit 48 e.hash

/-- CFG_LOG_READ. -/
def opCfgLogRead : OpSpec :=
  { readOp [.device] 4 (fun c s =>
      let es := s.trust.applyLog.take (c.u 0 1)
      leBytes 1 es.length ++ leBytes 1 (ofBool s.trust.applyOvf) ++ zeros 6 ++ es.flatMap fun e => e.bytes ++ zeros 2)
    with ep := fun _ => true, fields := fun _ _ => [fU 0 1 1 64, fR 1 3] }

/-- A CONFIG_APPLY takes effect: the record and the apply log (R570). -/
def State.recordApply (s : State) (slot obj : Nat) (image : List Byte) : State :=
  let e : ApplyEntry := { slot := slot, object := obj, hash := Config.sha384 image }
  s.onTrust fun x =>
    { x with record := Config.sha384 (x.record ++ e.bytes), applyLog := (if 64 ≤ x.applyLog.length then x.applyLog.drop 1 else x.applyLog) ++ [e],
             applyOvf := x.applyOvf || decide (64 ≤ x.applyLog.length), lastApply := some slot }

/-! ### Debug (R571) -/

/-- DEBUG_UNLOCK. -/
def opDebugUnlock : OpSpec :=
  { cls := [.device], priv := fun _ => .owner, ep := fun _ => true, token := fun _ _ => true, len := some 4, keys := fun _ => [devKey 0x110C],
    fields := fun _ _ => [fU 0 1 1 2, fR 1 3],
    more := fun c s => failIf (c.u 0 1 == 2 && (s.trust.dbg == 0 || s.dev.st != .endpaper)) (err Status.debugState 0),
    run := fun c s =>
      (s.onTrust fun x => { x with dbg := max x.dbg (c.u 0 1), dbg1 := x.dbg1 || c.u 0 1 == 1, dbg2 := x.dbg2 || c.u 0 1 == 2 }, .ok []) }

/-- DEBUG_LOCK. -/
def opDebugLock : OpSpec :=
  { cls := [.device], ep := fun _ => true, len := some 4, keys := fun _ => [devKey 0x110C], fields := fun _ _ => [fR 0 4],
    run := fun _ s => (s.onTrust fun x => { x with dbg := 0 }, .ok []) }

/-- What step 9 answers a packet before it looks at a token: an unowned device accepts no command that needs one (R563). -/
def Cmd.ownerErr (c : Cmd) (s : State) : Option Err :=
  failIf (s.isUnowned && !(c.pkt.code == 0x110C && c.u 0 1 == 2)) (err Status.unowned 0)

end Sys2Proof.Machine
end

