-- ==== Sys2Proof/Machine/DevOps.lean ====
section
/-! DEFINITION. The device and session opcodes 0x0000 to 0x000B (02, R54, R72). -/
namespace Sys2Proof.Machine

/-! ### The identification and status blocks of BAR0 (R56, R57, R325, R592) -/

/-- VERSION of the firmware in a slot; 0 where it holds no valid image. -/
def State.fwVersion (s : State) (i : Nat) : Nat := match s.newest i with | some x => x.u 12 4 | none => 0

/-- BAR0 bytes 0x00 to 0x3F. -/
def State.bar0Ident (s : State) : List Byte :=
  leBytes 2 0x9640 ++ leBytes 2 Config.revision.toNat ++ zeros 4 ++ leBytes 8 Config.serial.toNat ++ leBytes 4 s.dev.addr ++ leBytes 4 (s.fwVersion 0) ++
    leBytes 4 (s.fwVersion 1) ++ leBytes 4 s.dev.fwActive ++ leBytes 4 (2 + 256 * s.link.topo.levelCap) ++ leBytes 4 1 ++ zeros 24

/-- The CAUSE word. -/
def Cause.word (c : Cause) : Nat := c.kind + c.detail * 2 ^ 8 + c.reason * 2 ^ 16

/-- BAR0 bytes 0x0100 to 0x0183. -/
def State.bar0Status (s : State) : List Byte :=
  leBytes 4 s.devstat ++ leBytes 4 s.dev.cause.word ++ dtBytes s.now ++ zeros 44 ++ s.dev.qbind.flatMap (fun b => leBytes 4 b.word) ++ leBytes 4 s.qstat

/-- DEV_NOP: 0 to 4,064 bytes come back. -/
def opDevNop : OpSpec :=
  { cls := [.device], priv := fun _ => .observer, ep := fun _ => true, changes := false, len := none, keys := fun _ => [], run := fun c s => (s, .ok c.p) }

/-- DEV_INFO. -/
def opDevInfo : OpSpec := { readOp [.device] 0 (fun _ s => s.bar0Ident) with ep := fun _ => true }

/-- DEV_STATUS. -/
def opDevStatus : OpSpec := { readOp [.device] 0 (fun _ s => s.bar0Status) with ep := fun _ => true }

/-! ### Sessions (R41, R72) -/

/-- SESSION_OPEN: the stored reply goes; E and a partly received chain have been dealt with as the packet was taken. -/
def opSessionOpen : OpSpec :=
  { cls := [.device], priv := fun _ => .observer, ep := fun _ => true, changes := false, len := some 4, keys := fun _ => [],
    fields := fun _ _ => [fU 0 1 1 255, fR 1 3],
    run := fun c s =>
      (s.onStream c.pkt.req.src fun t => { t with stored := none },
        .ok (leBytes 1 (min (c.u 0 1) 1) ++ leBytes 1 2 ++ zeros 2 ++ leBytes 4 (s.stream c.pkt.req.src).expect.toNat)) }

/-- SESSION_CLOSE: the stream's reset state. The counters of PORT_STATS_GET are kept. DESIGN CHOICE. -/
def opSessionClose : OpSpec :=
  { cls := [.device], priv := fun _ => .observer, ep := fun _ => true, changes := false, len := some 0, keys := fun _ => [],
    run := fun c s =>
      (s.onStream c.pkt.req.src fun t => { t with expect := 0, last := none, stored := none, chain := [], chainAt := 0 }, .ok []) }

/-- The deadline and the deferral deadline of an opcode class in ms (R54). -/
def State.deadlines (s : State) (cls : Nat) : Nat × Nat := tget (100, 10000) s.dev.deadlines cls

/-- DEV_DEADLINE_SET. -/
def opDevDeadlineSet : OpSpec :=
  { cls := [.device], priv := fun _ => .owner, len := some 12, keys := fun c => [devKey (0x500 + c.u 0 1)],
    fields := fun _ _ => [fU 0 1 0 0x11, fR 1 3, fU 4 4 1 60000, fU 8 4 1 3600000],
    run := fun c s => (s.onDev fun d => { d with deadlines := tput (100, 10000) d.deadlines (c.u 0 1) (c.u 4 4, c.u 8 4) }, .ok []) }

/-- DEV_DEADLINE_GET. -/
def opDevDeadlineGet : OpSpec :=
  { readOp [.device] 4 (fun c s => leBytes 4 (s.deadlines (c.u 0 1)).1 ++ leBytes 4 (s.deadlines (c.u 0 1)).2) with
    fields := fun _ _ => [fU 0 1 0 0x11, fR 1 3] }

/-! ### The device state -/

/-- DEV_RESTART (R30): the reply goes out, then the device restarts as after SYS_RST_N. -/
def opDevRestart : OpSpec :=
  { cls := [.device], priv := fun _ => .owner, ep := fun _ => true, len := some 0, keys := fun _ => [devKey 7], first := true,
    state := fun _ s => stateIf s (s.dev.st != .endpaper || !s.safetyClear),
    run := fun _ s => (s.sysReset, .ok []) }

/-- DEV_ENDPAPER_ENTER (R31, R592): the reply goes out before the commands in flight end. -/
def opDevEndpaperEnter : OpSpec :=
  { cls := [.device], priv := fun _ => .owner, len := some 4, keys := fun _ => [devKey 7], first := true, fields := fun _ _ => [fU 0 4 0 0xFFFF],
    run := fun c s => (s.toEndpaper 9 0 (c.u 0 4), .ok []) }

/-- DEV_ADDR_SET. -/
def opDevAddrSet : OpSpec :=
  { cls := [.device], priv := fun _ => .owner, ep := fun _ => true, len := some 4, keys := fun _ => [devKey 9], fields := fun _ _ => [fU 0 4 0 0x3FFFE],
    run := fun c s => (s.onDev fun d => { d with addr := c.u 0 4 }, .ok []) }

/-! ### CMD_ABORT and PORT_STATS_GET -/

/-- The table of a port and a stream at offset 0. -/
def streamFields : List Field := [fU 0 1 0 5, fX 1 fun p => if u p 0 1 = 0 then decide (u p 1 1 ≤ 8) else u p 1 1 == 0]

/-- Ends a command that has not reached its point of no return: an accepted one, a TIMED one, or a chain that has not
started (R47, R72). -/
def State.abort (s : State) (is : Pkt → Bool) : Option State :=
  match s.dev.held.find? fun h => h.accepted && !h.pnr && is h.pkt with
  | some h => some (s.withdraw h (err Status.aborted 0))
  | none =>
    match s.dev.timed.find? fun t => t.pkts.any is with
    | some t => some ((s.onDev fun d => { d with timed := d.timed.filter fun x => x != t }).endTimed t is (err Status.aborted 0))
    | none =>
      match s.dev.streams.find? fun e => e.2.chain.any is with
      | some (k, x) =>
        some ((s.onDev fun d => { d with streams := tmod .reset d.streams k fun t => { t with chain := [] } }).endTimed { pkts := x.chain, time := 0, fast := false } is
          (err Status.aborted 0))
      | none => none

/-- CMD_ABORT. -/
def opCmdAbort : OpSpec :=
  { cls := [.device], priv := fun _ => .observer, ep := fun _ => true, changes := false, len := some 8, keys := fun _ => [],
    may := fun c s => failIf (!s.isOwner c.port && (c.range streamFields).isNone && !(c.u 0 1 == c.pkt.req.src.port && c.u 1 1 == c.pkt.req.src.stream)) (err Status.ePrivilege 0xFF),
    fields := fun _ _ => streamFields,
    run := fun c s =>
      match s.abort fun p => p.req.src.port == c.u 0 1 && p.req.src.stream == c.u 1 1 && p.req.tag.toNat == c.u 2 2 && p.req.seq.toNat == c.u 4 4 with
      | some t => (t, .ok [])
      | none => (s, .fail (err Status.abortLate 0)) }

/-- PORT_STATS_GET. -/
def opPortStatsGet : OpSpec :=
  { readOp [.device] 4 (fun c s =>
      let t := tget .reset s.dev.streams (c.u 0 1 * 16 + c.u 1 1)
      [t.taken, t.eCrc, t.eVersion, t.eLength, t.eSequence, t.eTimeout, t.bcast, t.smbusErr].flatMap (leBytes 4))
    with ep := fun _ => true, fields := fun _ _ => streamFields ++ [fR 2 2] }

end Sys2Proof.Machine
end

