-- ==== Sys2Proof/Machine/Fabric.lean ====
section
/-! DEFINITION. The event fabric (14): activations reaching their tasks, events to and from other devices, software fire, and the opcodes
0x0F00 to 0x0F06. -/
namespace Sys2Proof.Machine

/-! ### Delivery (R503 to R506, R509, R510) -/

/-- A copy of an EVENT frame joins the queue of 32 of a port, or is counted, where the queue is full or the port DOWN (R509). -/
def State.exportOn (s : State) (ch addr : Nat) (body : List Byte) (p : Nat) : State :=
  let inside := s.ev.outq.filter fun (e : Nat × Nat) => decide (s.now < e.2)
  if !s.portUp p || decide (32 ≤ (inside.filter fun (e : Nat × Nat) => e.1 == p).length) then s.onEv fun e => e.onChan ch fun c => { c with expDrop := inc32 c.expDrop }
  else
    let r := s.sendFrame p 4 addr s.dev.addr 0 body
    r.1.onEv fun e => { e with outq := inside ++ [(p, r.2)] }

/-- An activation leaves as an EVENT frame on a port; with ADDR 0x3_FFFF it is broadcast, a copy for each port of R322 that is not MISWIRED (R509). -/
def State.exportEvent (s : State) (ch port rch addr ehops time : Nat) : State :=
  if ehops = 8 then s.onEv fun e => e.onChan ch fun c => { c with hopLimit := inc32 c.hopLimit, hopFlag := true }
  else
    let body := leBytes 1 rch ++ leBytes 1 (ehops + 1) ++ leBytes 1 ch ++ zeros 1 ++ dtBytes (time / uCycle * uCycle)
    if addr = bcastAddr then (s.bcastY ++ s.bcastX).foldl (fun a p => if a.portUp p && a.miswired p then a else a.exportOn ch addr body p) s
    else s.exportOn ch addr body (port - 1)

/-- A Quire's segment takes activations: OFF, and in CORRELATE and BEAMFORM, it is gated and discards them (R26, R506). -/
def State.segmentOpen (s : State) (q : Nat) : Bool := s.pers q == .control || s.pers q == .service

/-- An activation takes effect at a task, an object of which consumes its channel by `fields`. -/
def State.activate (s : State) (ch : Nat) (t : TaskRef) (fields : List Nat) (prod ehops time : Nat) : State :=
  match t with
  | .route r =>
    if r.kind = 1 then s.fire r.target prod ehops
    else if r.kind = 2 then s.exportEvent ch r.port r.target r.addr ehops time
    else s.raise r.target
  | .obj id =>
    match Obj.ofId id with
    | none => s
    | some o =>
      if o.cls = .folio then (if s.segmentOpen o.quire then s.seqArrive o.quire o.folio ch fields else s)
      else if o.cls = .fbcore then (if s.segmentOpen o.quire then s.coreArrive o.quire o.index fields else s)
      else if o.cls = .capture then
        let x := s.capU o.index
        match x.trig with
        | some tr => if x.active && tr.tsrc == 1 && fields.contains evchField then s.onCapU o.index fun y =>
            { y with evAt := some (y.evAt.getD s.now), evHops := if y.evAt.isSome then max y.evHops ehops else ehops } else s
        | none => s
      else s

/-- The object of a task in the log: of one that a Quire's own segment keeps; the others are device entries (R497, R504). -/
def TaskRef.objId : TaskRef → Nat
  | .obj id => if inQuire id then id else 0xFFFFFFFF
  | .route _ => 0xFFFFFFFF

/-- The cycle of the island in which a task lies (R22, R502): LGA, HIF, the bulk fabric, or a Quire segment and the hub. -/
def TaskRef.cycle : TaskRef → Nat
  | .route r => if r.kind = 2 then uLga else if r.kind = 3 then uNs else uCycle
  | .obj id => if inQuire id then uCycle else 4 * uNs / 5

/-- 0.01 ns; and the bounds of R502 in it: from the producer to the hub, and from there to the task. Of the producers that fire under the device's object the
slowest counts. -/
def uCent : Nat := uNs / 100
def prodBound (prod : Nat) : Nat :=
  if 0x3F000000 ≤ prod then 512
  else match Obj.ofId prod with
    | some o => if o.cls = .capture then 500 else if o.cls = .mon ∨ o.cls = .device then 1856 else 384
    | none => 1856
def TaskRef.bound : TaskRef → Nat
  | .route r => 256 + (if r.kind = 1 then 0 else if r.kind = 2 then 384 else 328)
  | .obj id => 256 + (if inQuire id then 384 else 328)

/-- The instant by which an arrival takes effect (R502). -/
def Flight.due (f : Flight) : Nat := f.time + (prodBound f.prod + f.task.bound) * uCent

/-- A merge in the destination cycle that begins at `cyc` is counted once for its channel, and logged; a full log drops it (R503, R504). -/
def State.coincide (s : State) (ch : Nat) (t : TaskRef) (prods : List Nat) (cyc : Nat) : State :=
  if (s.chan ch).coincAt = some cyc then s
  else
    let sorted := (sortInt (prods.map fun (n : Nat) => (n : Int))).map Int.toNat
    let x : Coinc := { time := cyc, ch := ch, nprod := min prods.length 255, task := t.objId, prod0 := lget 0 sorted 0, prod1 := lget 0 sorted 1 }
    s.onEv fun e =>
      let e1 := e.onChan ch fun c => { c with coincide := inc32 c.coincide, coincAt := some cyc }
      if 64 ≤ e1.log.length then { e1 with logOvf := true } else { e1 with log := e1.log ++ [x] }

/-- Two flights are arrivals of one channel at one task; the oldest of them stands for all. -/
def Flight.same (x f : Flight) : Bool := f.ch == x.ch && decide (f.task = x.task)
def State.oldest (s : State) (y : Flight) : Flight := (s.ev.flights.find? y.same).getD y

/-- The end of the first cycle of its task from now on in which `x` may take effect: one in which its task has not activated for its channel yet (R503). -/
def State.actEnd (s : State) (x : Flight) : Nat :=
  let n := x.task.cycle
  let e := max (ceilDiv s.now n) (x.time / n + 1) * n
  if s.ev.acted.contains (x.ch, x.task, e) then e + n else e

/-- `f` falls into the cycle of `x` that ends at `e`, as the bounds of R502 let it. -/
def Flight.meets (x : Flight) (e : Nat) (f : Flight) : Bool := decide (f.time < e) && decide (f.time < x.due) && decide (x.time < f.due)

/-- EVENT_ACTIVATION: at the end of the first destination cycle from now on at which its task has not activated for the channel yet, the arrivals of the
channel at the task of flight `k` take effect as one: the oldest, and up to `more` further ones that the bounds of R502 let fall into the same cycle (R503). -/
def execEventActivation (k more : Nat) (s : State) : Host.Outcome State Fault Refusal :=
  match s.ev.flights.drop k with
  | [] => .next s
  | y :: _ =>
    let x := s.oldest y
    let e := s.actEnd x
    let s0 := s.advanceTo e
    let all := s0.ev.flights.filter x.same
    let near := all.filter (x.meets e)
    let hit := near.take (more + 1)
    if hit = [] then .next s0
    else
    let s1 := s0.onEv fun v =>
      { v with flights := v.flights.filter (fun (f : Flight) => !x.same f) ++ near.drop (more + 1) ++ all.filter fun f => !x.meets e f,
               acted := (x.ch, x.task, e) :: v.acted.filter fun a => decide (e ≤ a.2.2) }
    let s2 := if 2 ≤ hit.length then s1.coincide x.ch x.task (hit.map (·.prod)) (e - x.task.cycle) else s1
    .next (s2.activate x.ch x.task (hit.flatMap (·.fields)) (hit.foldl (fun (m : Nat) f => min m f.prod) x.prod) (hit.foldl (fun (m : Nat) f => max m f.ehops) 0)
      (hit.foldl (fun (m : Nat) f => min m f.time) x.time))

/-- An EVENT frame from another device fires its channel, if that imports it (R509, R510). -/
def State.importEvent (s : State) (p src : Nat) (b : List Byte) : State :=
  let ch := u b 0 1
  let hops := u b 1 1
  if hops = 0 ∨ 8 < hops then s.onEv fun e => e.onChan ch fun c => { c with hopLimit := inc32 c.hopLimit, hopFlag := true }
  else if (s.inForce ch).routes.any fun r => r.kind == 4 && r.port == p + 1 && (r.addr == src || r.addr == bcastAddr) then s.fire ch (softProd (p + 1)) hops
  else s.onEv fun e => e.onChan ch fun c => { c with impDrop := inc32 c.impDrop }

/-! ### Software fire (R507, R508) -/

/-- A channel carries a SOFT entry for a port. -/
def EvChan.soft (c : EvChan) (port : Nat) : Bool := c.routes.any fun r => r.kind == 5 && r.port == port

/-- A write to EV_FIREr: channels without a non-secure SOFT entry for port 0 are counted. -/
def State.fireWrite (s : State) (r value : Nat) : State :=
  (List.range 32).foldl (fun a b =>
    let ch := 32 * r + b
    if !bitOf value b then a
    else if (a.inForce ch).soft 0 && !(a.inForce ch).secure && a.dev.st != .endpaper then a.fire ch (softProd 0) 0
    else a.onEv fun e => { e with fireDenied := inc32 e.fireDenied }) s

/-- EV_FIRE_WRITE: the host writes EV_FIREr. -/
def execEvFireWrite (r : Fin 8) (value : BitVec 32) (s : State) : Host.Outcome State Fault Refusal :=
  if s.dev.st == .off || !s.hifUp then .next s else .next (s.fireWrite r value.toNat)

/-- The channels of a mask of 256 bits. -/
def maskChans (p : List Byte) : List Nat := (List.range 256).filter fun c => bitOf (u p 0 32) c

/-- EV_FIRE (R508, R515). -/
def opEvFire : OpSpec :=
  { cls := [.device], timed := true, fast := true, len := some 32, keys := fun _ => [], fields := fun _ _ => [fX 0 fun p => !(maskChans p).isEmpty],
    more := fun c s => failIf ((maskChans c.p).any fun ch => !(s.inForce ch).soft c.port) (err Status.evNotProducer 0),
    run := fun c s => ((maskChans c.p).foldl (fun a ch => a.fire ch (softProd c.port) 0) s, .ok []) }

/-! ### Channels and entries (R498, R513, R514) -/

/-- An entry breaks what a SECURE channel may hold (R501). -/
def Route.insecure (r : Route) (s : State) : Bool := r.kind == 2 || r.kind == 3 || r.kind == 4 || (r.kind == 5 && !s.isOwner r.port)

/-- EV_CHAN_SET. -/
def opEvChanSet : OpSpec :=
  { cls := [.event], len := some 4,
    may := fun c s =>
      let x := s.chan c.i
      let same := c.u 0 1 == x.ownerNum && c.u 1 1 == ofBool x.secure
      let own := !x.secure && c.u 1 1 == 0 && ((c.u 0 1 == c.port && x.owner.isNone) || (c.u 0 1 == 0xFF && x.owner == some c.port))
      failIf (!(s.isOwner c.port || same || own)) (err Status.ePrivilege x.ownerNum),
    fields := fun _ _ => [fP 0 1 fun v => decide (v ≤ 5) || v == 0xFF, fU 1 1 0 1, fR 2 2],
    reg := fun c s => failIf (c.u 1 1 == 1 && (s.chan c.i).routes.any fun r => r.insecure s) (err Status.evSecure 0),
    run := fun c s =>
      (s.onTables fun t => tmod .reset t c.i fun x => { x with owner := if c.u 0 1 = 0xFF then none else some (c.u 0 1), secure := c.u 1 1 == 1 }, .ok []) }

/-- The 16 bytes of an entry, and of an object's. -/
def Route.bytes (r : Route) : List Byte := leBytes 1 r.kind ++ leBytes 1 r.port ++ leBytes 2 r.target ++ leBytes 4 r.addr ++ zeros 8
def objEntry (kind id : Nat) : List Byte := leBytes 1 kind ++ zeros 3 ++ leBytes 4 id ++ zeros 8

/-- The mask of the Quires whose objects are registered. -/
def quireMask (l : List Nat) : Nat := (List.range 16).foldl (fun (m : Nat) q => if l.any fun o => inQuire o && bits o 20 6 == q then m + 2 ^ q else m) 0

/-- EV_CHAN_GET: device entries, those of EV_ROUTE_ADD before the objects'. -/
def opEvChanGet : OpSpec :=
  { readOp [.event] 0 (fun c s =>
      let x := s.chan c.i
      leBytes 1 x.ownerNum ++ leBytes 1 (ofBool x.secure) ++ leBytes 2 (quireMask (regObjs x.prods)) ++ leBytes 2 (quireMask (regObjs x.cons)) ++
        leBytes 1 x.devProds ++ leBytes 1 x.devTasks ++ zeros 8 ++
        (x.routes.filter fun r => decide (4 ≤ r.kind)).flatMap Route.bytes ++ ((regObjs x.prods).filter fun o => !inQuire o).flatMap (objEntry 6) ++
        (x.routes.filter fun r => decide (r.kind ≤ 3)).flatMap Route.bytes ++ ((regObjs x.cons).filter fun o => !inQuire o).flatMap (objEntry 7)) with
    ep := fun _ => true }

/-- The entry that EV_ROUTE_ADD and EV_ROUTE_DEL name, and its ranges. -/
def routeOf (p : List Byte) : Route := { kind := u p 0 1, port := u p 1 1, target := u p 2 2, addr := u p 4 4 }
def routeFields (ch : Nat) : List Field :=
  let k := fun (p : List Byte) => u p 0 1
  [fU 0 1 1 5,
   fX 1 (fun p => if k p = 2 ∨ k p = 4 then decide (1 ≤ u p 1 1) && decide (u p 1 1 ≤ 4) else if k p = 5 then decide (u p 1 1 ≤ 5) else u p 1 1 == 0),
   fX 2 (fun p =>
     let t := u p 2 2
     if k p = 1 then decide (t < 256) && t != ch else if k p = 2 then decide (t < 256) else if k p = 3 then decide (26 ≤ t) && decide (t ≤ 63) else t == 0),
   fX 4 (fun p => if k p = 2 ∨ k p = 4 then decide (u p 4 4 ≤ bcastAddr) else u p 4 4 == 0), fR 8 8]

/-- The tables with the entries of one channel changed. -/
def State.evRoutes (s : State) (ch : Nat) (f : List Route → List Route) : List (Nat × EvChan) :=
  tmod .reset s.ev.chans ch fun c => { c with routes := f c.routes }

/-- EV_ROUTE_ADD: an entry that is there already is not added again (DESIGN CHOICE). -/
def opEvRouteAdd : OpSpec :=
  let add := fun (c : Cmd) (l : List Route) => if l.contains (routeOf c.p) then l else l ++ [routeOf c.p]
  { cls := [.event], len := some 16, fields := fun c _ => routeFields c.i,
    reg := fun c s => firstErr [failIf ((s.chan c.i).secure && (routeOf c.p).insecure s) (err Status.evSecure 0), s.evCheck c.port (s.evRoutes c.i (add c))],
    run := fun c s => (s.evApply c.port (s.evRoutes c.i (add c)), .ok []) }

/-- EV_ROUTE_DEL. -/
def opEvRouteDel : OpSpec :=
  let del := fun (c : Cmd) (l : List Route) => l.filter fun r => r != routeOf c.p
  { cls := [.event], len := some 16, fields := fun c _ => routeFields c.i,
    more := fun c s => firstErr [failIf (!(s.chan c.i).routes.contains (routeOf c.p)) (err Status.evNoEntry 0)],
    reg := fun c s => s.evCheck c.port (s.evRoutes c.i (del c)),
    run := fun c s => (s.evApply c.port (s.evRoutes c.i (del c)), .ok []) }

/-! ### Reading (R516) -/

/-- EV_STATUS. -/
def opEvStatus : OpSpec :=
  { readOp [.event] 4 (fun _ _ => []) with
    ep := fun _ => true, fields := fun _ _ => [fU 0 1 0 1, fR 1 3],
    run := fun c s =>
      let x := s.chan c.i
      let s1 := if c.u 0 1 = 1 then s.onEv fun e => e.onChan c.i fun x =>
          { x with acts := 0, coincide := 0, impDrop := 0, expDrop := 0, hopLimit := 0, hopFlag := false } else s
      (s1, .ok (leBytes 8 x.acts ++ [x.coincide, x.impDrop, x.expDrop, x.hopLimit].flatMap (leBytes 4) ++ leBytes 4 (ofBool x.hopFlag) ++ dtBytes x.last ++ zeros 8)) }

/-- The 32 bytes of a log entry (R504). -/
def Coinc.bytes (x : Coinc) : List Byte :=
  dtBytes x.time ++ leBytes 1 x.ch ++ leBytes 1 x.nprod ++ zeros 2 ++ leBytes 4 x.task ++ leBytes 4 x.prod0 ++ leBytes 4 x.prod1 ++ zeros 4

/-- EV_COINC_READ. -/
def opEvCoincRead : OpSpec :=
  { readOp [.device] 4 (fun _ _ => []) with
    ep := fun _ => true, fields := fun _ _ => [fU 0 1 1 64, fR 1 3],
    run := fun c s =>
      let xs := s.ev.log.take (c.u 0 1)
      (s.onEv fun e => { e with log := e.log.drop (c.u 0 1), logOvf := false },
        .ok (leBytes 1 xs.length ++ leBytes 1 (ofBool s.ev.logOvf) ++ zeros 2 ++ xs.flatMap Coinc.bytes)) }

end Sys2Proof.Machine
end

