-- ==== Sys2Proof/Machine/SynOps.lean ====
section
/-! DEFINITION. The synthesis opcodes 0x0200 to 0x0211 (03, R115 to R128), each as the acceptance checks and the effect that
`OpSpec` describes. -/
namespace Sys2Proof.Machine

namespace Status
def seqRunLong : Nat := 0x1020
def seqNest : Nat := 0x1021
def seqTarget : Nat := 0x1022
def seqRunning : Nat := 0x1023
def lineUndeclared : Nat := 0x1024
def envRange : Nat := 0x1025
def notArmed : Nat := 0x1026
end Status

/-- The synthesis, read-out and feedback-core opcodes need CONTROL or SERVICE (R115, R153, R191). -/
def synState (c : Cmd) (s : State) : Option Err := s.needPers c.q [.control, .service] 17

/-- A function-specific failure with no status word. -/
def fsErr (status : Nat) : Err := err status 0

/-! ### Lines and contexts -/

/-- The lines and shifts of a SYN_LINES_SET. -/
def linesOf (p : List Byte) : List (Nat × Nat) := (List.range (u p 0 1)).map fun j => (u p (4 + 4 * j) 1, u p (5 + 4 * j) 1)

/-- The line streams that the Quires other than `q` send to a chiplet (R15). -/
def State.chipletStreams (s : State) (q chip : Nat) : Nat :=
  s.syn.quires.foldl (fun n (k, sq) =>
    if k = q then n else n + (sq.lines.filter fun l => l.line / 10 == chip).length) 0

/-- A line set keeps the limit of 40 line streams a chiplet (R15). -/
def State.linesFit (s : State) (q : Nat) (ls : List (Nat × Nat)) : Bool :=
  (List.range 4).all fun c =>
    decide (s.chipletStreams q c + (ls.filter fun l => l.1 / 10 == c).length ≤ 40)

/-- A context of the Quire names a line. -/
def SynQuire.names (sq : SynQuire) (l : Nat) : Bool :=
  sq.folios.any fun (_, fo) => fo.ctxs.any fun (_, c) => c.lineA == l || c.lineB == l

/-- The 36 bytes of SYN_LINES_GET (R116). -/
def SynQuire.lineBytes (sq : SynQuire) : List Byte :=
  fit 36 (leBytes 4 sq.lines.length ++ sq.lines.flatMap fun l => leBytes 1 l.line ++ leBytes 1 l.shift ++ zeros 2)

/-- The ranges of SYN_LINES_SET (R116). -/
def lineFields : List Field :=
  [fU 0 1 0 8, fR 1 3] ++ (List.range 8).flatMap fun j =>
    [fX (4 + 4 * j) (fun p => if j < u p 0 1 then decide (u p (4 + 4 * j) 1 ≤ 39) &&
        !(List.range j).any (fun i => u p (4 + 4 * i) 1 == u p (4 + 4 * j) 1) else allZero (slice p (4 + 4 * j) 4)),
     fX (5 + 4 * j) (fun p => decide (u p (5 + 4 * j) 1 ≤ 6)), fR (6 + 4 * j) 2]

/-- SYN_LINES_SET (R116). -/
def opSynLinesSet : OpSpec :=
  { cls := [.quire], len := some 36,
    state := fun c s => firstErr [synState c s, stateIf s (s.folioBusy c.q)],
    cap := fun c s => c.judge lineFields (0 :: (List.range 8).map fun j => 4 + 4 * j) (failIf (!s.linesFit c.q (linesOf c.p)) eCapacity),
    fields := fun _ _ => lineFields,
    more := fun c s =>
      let ls := linesOf c.p
      let sq := s.synq c.q
      failIf (sq.lines.any fun l => !(ls.any fun x => x.1 == l.line) && sq.names l.line) (fsErr Status.lineUndeclared),
    run := fun c s =>
      ((s.formTo s.now).onSynq c.q fun sq =>
        { sq with lines := (linesOf c.p).map fun l => { line := l.1, shift := l.2, sat := 0, val := ⟨0, 0⟩ } }, .ok []) }

/-- SYN_LINES_GET (R116). -/
def opSynLinesGet : OpSpec :=
  { readOp [.quire] 0 (fun c s =>
      let sq := (s.formTo s.now).synq c.q
      sq.lineBytes ++ fit 32 (sq.lines.flatMap fun l => leBytes 4 l.sat)) with state := synState }

/-- The frame that a CTX_SET carries (R117). -/
def ctxOf (p : List Byte) : Ctx :=
  { fw := BitVec.ofNat 48 (u p 4 6), phase := BitVec.ofNat 32 (u p 12 4), ascale := u p 16 4, lineA := u p 1 1,
    lineB := u p 2 1, epoch := BitVec.ofNat 48 (sampleAt ((dtOf (slice p 20 12)).getD 0)) }

/-- A DAC line or none. -/
def lineField (off : Nat) : Field := fP off 1 fun v => decide (v ≤ 39) || v == 0xFF

/-- A frequency word of 8 bytes, sign-extended (R117, R155). -/
def fwField (off : Nat) : Field := fS off 8 (-0x666666666666) 0x666666666666

/-- An effect on a running Folio waits for the first coarse tick after execution; TIMED, or on a Folio that does not run,
it comes about at once (R114, R137). -/
def State.atTick (s : State) (c : Cmd) (q f : Nat) (e : Effect) : State :=
  if (s.folio q f).busy && !c.timed then s.delay (tickAfter s.now) e else s.apply e

/-- CTX_SET (R114, R117). -/
def opCtxSet : OpSpec :=
  { cls := [.context], timed := true, wild := true, len := some 32, state := synState,
    fields := fun _ _ => [fU 0 1 1 0x3F, lineField 1, lineField 2, fR 3 1, fwField 4, fU 16 4 0 0x3FFFF, fT 20],
    more := fun c s =>
      let m := c.u 0 1
      let undeclared := fun l => l != 0xFF && !((s.synq c.q).lines.any fun x => x.line == l)
      failIf ((bitOf m 3 && undeclared (c.u 1 1)) || (bitOf m 4 && undeclared (c.u 2 1))) (fsErr Status.lineUndeclared),
    run := fun c s => (s.atTick c c.q c.f (.ctxSet c.q c.f c.obj.ctx (c.u 0 1) (ctxOf c.p)), .ok []) }

/-- The 32 bytes of CTX_GET (R117). -/
def Ctx.bytes (x : Ctx) : List Byte :=
  [0x3F] ++ leBytes 1 x.lineA ++ leBytes 1 x.lineB ++ [0] ++ leBytes 8 (ofSigned 64 (toSigned 48 x.fw.toNat)) ++
    leBytes 4 x.phase.toNat ++ leBytes 4 x.ascale ++ dtBytes (outTime x.epoch.toNat)

/-- CTX_GET (R117). -/
def opCtxGet : OpSpec :=
  { readOp [.context] 0 (fun c s => ((s.folio c.q c.f).ctx c.obj.ctx).bytes) with state := synState }

/-- CTX_PHASE_SHIFT (R118). -/
def opCtxPhaseShift : OpSpec :=
  { cls := [.context], timed := true, fast := true, len := some 4, state := synState,
    run := fun c s => (s.atTick c c.q c.f (.ctxShift c.q c.f c.obj.ctx (BitVec.ofNat 32 (c.u 0 4))), .ok []) }

/-! ### Libraries and lists -/

/-- The little-endian words of `w` bytes from an offset of the parameters on. -/
def Cmd.words (c : Cmd) (off w : Nat) : List Nat := (List.range ((c.p.length - off) / w)).map fun i => c.u (off + w * i) w

/-- The envelope library written from an address on: what a recent fetch may still have seen is kept (R87). -/
def SynQuire.writeEnv (sq : SynQuire) (now a : Nat) : List Nat → SynQuire
  | [] => sq
  | w :: ws =>
    { sq with env := tput 0 sq.env a w,
              envOld := { time := now, addr := a, old := tget 0 sq.env a } :: sq.envOld }.writeEnv now (a + 1) ws

/-- ENV_WRITE (R119). -/
def opEnvWrite : OpSpec :=
  { cls := [.quire], len := none, lenMin := 12, lenOk := fun n => decide (12 ≤ n) && decide (n ≤ 4064) && n % 4 == 0,
    state := synState,
    fields := fun _ _ => [fU 0 4 0 524287, fR 4 4, fX 8 fun p => decide (u p 0 4 + (p.length - 8) / 4 ≤ 524288)],
    run := fun c s =>
      ((s.formTo s.now).onSynq c.q fun sq =>
        { sq with envOld := sq.envOld.filter fun e => decide (s.now ≤ e.time + 512 * uSample) }.writeEnv s.now (c.u 0 4)
          (c.words 8 4), .ok []) }

/-- ENV_READ (R119). -/
def opEnvRead : OpSpec :=
  { readOp [.quire] 8 (fun c s => (tgets 0 (s.synq c.q).env (c.u 0 4) (c.u 4 4)).flatMap (leBytes 4)) with
    state := synState,
    fields := fun _ _ => [fU 0 4 0 524287,
      fX 4 fun p => decide (1 ≤ u p 4 4) && decide (u p 4 4 ≤ 1016) && decide (u p 0 4 + u p 4 4 ≤ 524288)] }

/-- PARAM_WRITE (R120). -/
def opParamWrite : OpSpec :=
  { cls := [.folio], len := none, lenMin := 20, lenOk := fun n => decide (20 ≤ n) && decide (n ≤ 4052) && n % 16 == 4,
    state := synState,
    fields := fun _ _ => [fU 0 2 0 1023, fR 2 2, fX 4 fun p => decide (u p 0 2 + (p.length - 4) / 16 ≤ 1024)],
    run := fun c s => (s.onFolio c.q c.f fun fo => { fo with params := tputs 0 fo.params (c.u 0 2) (c.words 4 16) }, .ok []) }

/-- PARAM_READ (R120). -/
def opParamRead : OpSpec :=
  { readOp [.folio] 4 (fun c s => (tgets 0 (s.folio c.q c.f).params (c.u 0 2) (c.u 2 2)).flatMap (leBytes 16)) with
    state := synState,
    fields := fun _ _ => [fU 0 2 0 1023,
      fX 2 fun p => decide (1 ≤ u p 2 2) && decide (u p 2 2 ≤ 254) && decide (u p 0 2 + u p 2 2 ≤ 1024)] }

/-- The first word of a list that is no step word, or reads outside the library (R91, R92), as a failure. -/
def loadErr (c : Cmd) : List Nat → Nat → Option Err
  | [], _ => none
  | w :: ws, off =>
    match decodeStep w with
    | none => some (c.bad off)
    | some x => if x.envOk then loadErr c ws (off + 16) else some (err Status.envRange (c.base + off))

/-- SEQ_LOAD (R121). -/
def opSeqLoad : OpSpec :=
  { cls := [.folio], len := none, lenMin := 20, lenOk := fun n => decide (20 ≤ n) && decide (n ≤ 4052) && n % 16 == 4,
    state := fun c s => firstErr [synState c s, failIf (s.folio c.q c.f).busy (fsErr Status.seqRunning)],
    fields := fun c s =>
      let base := (s.folio c.q c.f).ring.base
      [fP 0 2 (fun a => decide (a < base)), fR 2 2, fX 4 fun p => decide (u p 0 2 + (p.length - 4) / 16 ≤ base)],
    more := fun c _ => loadErr c (c.words 4 16) 4,
    run := fun c s => (s.onFolio c.q c.f fun fo => { fo with steps := tputs 0 fo.steps (c.u 0 2) (c.words 4 16) }, .ok []) }

/-- SEQ_READ (R121). -/
def opSeqRead : OpSpec :=
  { readOp [.folio] 4 (fun c s => (tgets 0 (s.folio c.q c.f).steps (c.u 0 2) (c.u 2 2)).flatMap (leBytes 16)) with
    state := synState,
    fields := fun _ _ => [fU 0 2 0 2047,
      fX 2 fun p => decide (1 ≤ u p 2 2) && decide (u p 2 2 ≤ 254) && decide (u p 0 2 + u p 2 2 ≤ 2048)] }

/-! ### The sequencer's settings -/

/-- The channels that a SEQ_CONFIG names (R122, R499). -/
def seqCfgFields (c : Cmd) : List EvField :=
  [evField 0 true (c.u 12 2), evField 1 true (c.u 14 2), evField 2 true (c.u 16 2), evField 3 true (c.u 18 2),
   evField trigField false (c.u 2 2)]

/-- SEQ_CONFIG (R122). -/
def opSeqConfig : OpSpec :=
  { cls := [.folio], wild := true, len := some 24,
    state := fun c s => firstErr [synState c s, stateIf s (s.folio c.q c.f).busy],
    fields := fun _ _ => [fU 0 1 0 1, fU 1 1 0 1,
      fX 2 (fun p => decide (u p 2 2 < 256) || (u p 2 2 == 0xFFFF && u p 0 1 == 0)), fU 4 4 1 16777215, fU 8 1 0 1,
      fR 9 1, fU 10 2 10 1000, fCh 12, fCh 14, fCh 16, fCh 18, fR 20 4],
    reg := fun c s => s.evFieldsCheck c.port c.obj.id (seqCfgFields c),
    run := fun c s =>
      ((s.evFieldsApply c.port c.obj.id (seqCfgFields c)).onFolio c.q c.f fun fo =>
        { fo with cfg := { stepwait := c.u 0 1 == 1, lateHalt := c.u 1 1 == 1, trigEv := c.u 2 2, trigTo := c.u 4 4,
                           proceed := c.u 8 1 == 1, bndMin := c.u 10 2, evMark := c.u 12 2, evLate := c.u 14 2,
                           evHalt := c.u 16 2, evLwm := c.u 18 2 } }, .ok []) }

/-- The ring setting that a SEQ_RING_SET carries (R123). -/
def ringOf (p : List Byte) : RingCfg :=
  { base := u p 0 2, region := u p 2 2, lwm := u p 4 2, start := u p 8 8, length := u p 16 8 }

/-- SEQ_RING_SET (R112, R123), whose START and LENGTH lie in the region that it names, if any: at once on a Folio that does not run a ring, at the next wrap on one that does. -/
def opSeqRingSet : OpSpec :=
  { cls := [.folio], len := some 24,
    state := fun c s => firstErr [synState c s,
      if c.u 2 2 < 2048 then s.regionErr c.port (c.u 2 2) else none],
    fields := fun c s =>
      let size := match s.region (c.u 2 2) with | some r => r.size | none => 0
      let ring := decide (c.u 0 2 < 2048)
      let none' := c.u 2 2 == 0xFFFF
      [fP 0 2 (fun b => b == 2048 || (b % 64 == 0 && decide (b ≤ 1792))),
       fP 2 2 (fun h => decide (h < 2048) || (h == 0xFFFF && !ring)),
       fP 4 2 (fun w => if ring then decide (64 ≤ w) && decide (w + 64 ≤ 2048 - c.u 0 2) && w % 64 == 0 else w == 0),
       fR 6 2, fP 8 8 (fun a => a % 16 == 0 && (none' || decide (a < size))),
       fP 16 8 (fun n => n % 16 == 0 && (none' || (decide (16 ≤ n) && decide (c.u 8 8 + n ≤ size))))],
    run := fun c s =>
      let fo := s.folio c.q c.f
      let r := ringOf c.p
      if !fo.busy then (s.onFolio c.q c.f fun x => x.setRing r 0, .ok [])
      else if fo.ring.base = 2048 then (s.onFolio c.q c.f fun x => x.setRing r 0, .ok [])
      else if { r with lwm := fo.ring.lwm } = fo.ring then (s.onFolio c.q c.f fun x => { x with ring := r }, .ok [])
      else (s.onFolio c.q c.f fun x => { x with ringPend := some r }, .accepted [wait .seqRing c.obj.id 0] false none) }

/-! ### Arming (R97, R103, R108, R124) -/

/-- A place that the static check has to visit: the address, the open levels (body address, and whether it can go round
again), and the zero-time words since a BRANCH. -/
structure ArmPlace where
  pc : Nat
  levels : List (Nat × Bool)
  run : Option Nat
  deriving DecidableEq, Repr

/-- What the static check finds at one word: a failure, or the places that follow. Of several failures of one word SEQ_RUN_LONG comes first; a BRANCH
with RING = 1 ends the path on its taken side alone, and the words after it are checked. DESIGN CHOICE: R124 names no order, and both readings of it
are open for that BRANCH. -/
def armStep (steps : List (Nat × Nat)) (base : Nat) (p : ArmPlace) : Except (Nat × Nat) (List ArmPlace) :=
  let run := p.run.map (· + 1)
  let long := match run with | some n => decide (4 < n) | none => false
  let onward := fun (r : Option Nat) (l : List (Nat × Bool)) =>
    if base ≤ p.pc + 1 then Except.error (Status.seqTarget, p.pc) else .ok [{ pc := p.pc + 1, levels := l, run := r }]
  match decodeStep (tget 0 steps p.pc) with
  | none => .ok []
  | some (.halt) => if long then .error (Status.seqRunLong, p.pc) else .ok []
  | some (.branch _ _ ring t) =>
    let r := some (run.getD 1)
    if long then .error (Status.seqRunLong, p.pc)
    else if (ring && base == 2048) || (!ring && decide (base ≤ t)) then .error (Status.seqTarget, p.pc)
    else match onward r p.levels with
      | .error e => .error e
      | .ok l => .ok (l ++ if ring then [] else [{ pc := t, levels := p.levels, run := r }])
  | some (.jump ring t) =>
    if long then .error (Status.seqRunLong, p.pc)
    else if (ring && base == 2048) || (!ring && decide (base ≤ t)) then .error (Status.seqTarget, p.pc)
    else .ok (if ring then [] else [{ pc := t, levels := p.levels, run := run }])
  | some (.repeatBegin count fr _) =>
    if long then .error (Status.seqRunLong, p.pc)
    else if 3 ≤ p.levels.length then .error (Status.seqNest, p.pc)
    else onward run ((p.pc + 1, fr || count != 0) :: p.levels)
  | some .repeatEnd =>
    if long then .error (Status.seqRunLong, p.pc)
    else match p.levels with
      | [] => .error (Status.seqNest, p.pc)
      | (body, again) :: ls => match onward run ls with
        | .error e => .error e
        | .ok l => .ok (l ++ if again then [{ pc := body, levels := p.levels, run := run }] else [])
  | some x =>
    if x.timed then onward none p.levels
    else if long then .error (Status.seqRunLong, p.pc)
    else onward run p.levels

/-- The static check: every place reachable from those of a list, each once, the word after a BRANCH or REPEAT_END before its target; the first failure is
the one reported. DESIGN CHOICE: R124 names no order. -/
def armCheck (steps : List (Nat × Nat)) (base : Nat) : Nat → List ArmPlace → List ArmPlace → Option (Nat × Nat)
  | 0, _, _ => none
  | _ + 1, _, [] => none
  | n + 1, seen, p :: ps =>
    if seen.contains p then armCheck steps base n seen ps
    else match armStep steps base p with
      | .error e => some e
      | .ok l => armCheck steps base n (p :: seen) (l ++ ps)

/-- More places than any step memory has. -/
def armFuel : Nat := 2 ^ 64

/-- The event channels of a Folio's static words (R105, R499): those it emits on and those it waits for or tests. -/
def Folio.staticChannels (fo : Folio) : List Nat × List Nat :=
  (fo.steps.filter fun e => decide (e.1 < fo.ring.base)).foldl (fun (em, wt) e =>
    match decodeStep e.2 with
    | some (.emitEvent ch) => (em ++ [ch], wt)
    | some (.waitEvent _ ch _) => (em, wt ++ [ch])
    | some (.branch (.event ch) _ _ _) => (em, wt ++ [ch])
    | _ => (em, wt)) ([], [])

/-- The registrations that a SEQ_ARM makes (R105, R499). -/
def seqArmFields (fo : Folio) : List EvField :=
  [{ field := 5, prod := true, chs := fo.staticChannels.1 }, { field := 6, prod := false, chs := fo.staticChannels.2 }]

/-- The Folio as SEQ_ARM leaves it (R102, R124, R159), the stream at its start. -/
def Folio.arm (fo : Folio) (entry : Nat) : Folio :=
  let ring := entry == fo.ring.base && entry != 2048
  { fo with pc := entry, past := false, inRing := ring, reps := [], timeout := false, stale := false, lateSeen := false, wordErr := false,
            haltCause := 0, lateCause := 0, lateCount := 0, skipCount := 0, staleCount := 0, earlyDrop := 0,
            wordErrCount := 0, satCount := 0, latch := none, st := .armed, ops := [], run := 0, pendHalt := none,
            pendLate := none, dp := none, wait := none, stop0 := none, trigQ := [], cut := none, evLog := [], frOld := [],
            rr := { fetched := 0, next := 0, origin := 0, lwmFired := false, log := [] } }

/-- SEQ_ARM (R124). -/
def opSeqArm : OpSpec :=
  { cls := [.folio], wild := true, len := some 4,
    state := fun c s => firstErr [synState c s, stateIf s (s.folio c.q c.f).busy],
    fields := fun c s =>
      let base := (s.folio c.q c.f).ring.base
      [fP 0 2 (fun e => decide (e < base) || (e == base && base != 2048)), fR 2 2],
    more := fun c s =>
      let fo := s.folio c.q c.f
      let e := c.u 0 2
      let bad := if fo.ring.base ≤ e then none
        else armCheck fo.steps fo.ring.base armFuel [] [{ pc := e, levels := [], run := none }]
      bad.map fun x => { status := x.1, word := 0, more := leBytes 4 x.2 },
    reg := fun c s => s.evFieldsCheck c.port c.obj.id (seqArmFields (s.folio c.q c.f)),
    run := fun c s =>
      let fo := s.folio c.q c.f
      let s1 := (s.formTo s.now).evFieldsApply c.port c.obj.id (seqArmFields fo)
      let s2 := (s1.onFolio c.q c.f fun x => x.arm (c.u 0 2)).onDemod c.q c.f fun d =>
        { d with wcount := 0, winCount := 0, ovlDrop := 0, ovlCut := 0, cancel := 0, satCount := 0, srcErr := 0,
                 last := 3 }
      (s2.fetchWords c.q c.f fo.ring.words, .ok []) }

/-- SEQ_GO (R125): at least 2 µs ahead, at most 1,000 s. -/
def opSeqGo : OpSpec :=
  { cls := [.folio], wild := true, fast := true, len := some 16,
    state := fun c s => firstErr [synState c s, stateIf s (s.pers c.q == .service),
      failIf ((s.folio c.q c.f).st != .armed) (fsErr Status.notArmed)],
    fields := fun _ _ => [fT 0, fR 12 4],
    more := fun c s =>
      let t := c.time 0
      firstErr [c.late s 0 (2 * uUs), failIf (decide (s.now + 1000 * uS < t)) (c.bad 0)],
    run := fun c s =>
      let n := sampleAt (c.time 0)
      (s.onFolio c.q c.f fun fo =>
        { fo with st := .running, go := n, boundary := n, free := n - ahead, prevDp := s.now, evLog := [],
                  lateSeen := false, wordErr := false }, .ok []) }

/-- SEQ_STOP (R126, R593). It clears the latch of a Folio that it halts; one that is IDLE or HALTED is left unchanged, its latch too, though R102 says
that SEQ_STOP clears it. DEDUCED. -/
def opSeqStop : OpSpec :=
  { cls := [.folio], timed := true, wild := true, fast := true, len := some 4, state := synState,
    fields := fun _ _ => [fU 0 1 0 1, fR 1 3],
    run := fun c s =>
      let fo := s.folio c.q c.f
      let s1 := s.onFolio c.q c.f fun x => { x with latch := none }
      (if fo.st == .armed then s1.haltNow c.q c.f 2
       else if !fo.busy then s
       else if c.u 0 1 = 0 then s1.onFolio c.q c.f fun x => { x with stop0 := some (sampleAt s.now + lOut) }
       else s1.delay (if c.timed then tickAt s.now else tickAfter s.now) (.seqStop c.q c.f), .ok []) }

/-- STATE of FSTAT (R106). -/
def FState.code : FState → Nat
  | .idle => 0 | .armed => 1 | .running => 2 | .waiting => 3 | .late => 4 | .halted => 5

/-- FSTAT (R106). -/
def Folio.fstat (fo : Folio) (gated : Bool) : Nat :=
  (if gated then 6 else fo.st.code) + 8 * ofBool fo.cfg.stepwait + 16 * ofBool fo.cfg.lateHalt +
    32 * ofBool (fo.ring.base != 2048) + 64 * ofBool fo.ringPend.isSome + 128 * ofBool fo.latch.isSome +
    256 * fo.reps.length + 2048 * (if fo.st == .halted then fo.haltCause else 0)

/-- FSTAT of a Folio: GATED while its Quire is in no personality that runs it (R26). -/
def State.fstat (s : State) (q f : Nat) : Nat :=
  (s.folio q f).fstat (s.pers q != .control && s.pers q != .service)

/-- PC of SEQ_STATUS: the next word to process; a word that waits, or has halted the Folio, is processed (R127, DEDUCED). Past the last word it
is the ring's first, or the last word where there is no ring. -/
def Folio.shownPc (fo : Folio) : Nat :=
  let n := if fo.past || fo.wait.isSome then fo.pc + 1 else fo.pc
  if n < 2048 then n else if fo.inRing then fo.ring.base else 2047

/-- The 56 bytes of SEQ_STATUS (R127). -/
def State.seqStatus (s : State) (q f : Nat) : List Byte :=
  let fo := s.folio q f
  leBytes 4 (s.fstat q f) ++ leBytes 2 fo.shownPc ++ leBytes 1 fo.lateCause ++ [0] ++
    [4, 5, 6].flatMap (fun r => leBytes 4 (fo.regAt r s.now)) ++
    [fo.lateCount, fo.skipCount, fo.staleCount, fo.earlyDrop, fo.wordErrCount, fo.satCount, fo.regAt 7 s.now].flatMap
      (leBytes 4) ++ leBytes 8 (16 * fo.rr.fetched)

/-- SEQ_STATUS (R127). -/
def opSeqStatus : OpSpec :=
  { readOp [.folio] 0 (fun c s => (s.formTo s.now).seqStatus c.q c.f) with state := synState }

/-- FOLIO_REG_SET (R113, R128). -/
def opFolioRegSet : OpSpec :=
  { cls := [.folio], timed := true, fast := true, len := some 8, state := synState,
    fields := fun _ _ => [fU 0 1 0 3, fR 1 3],
    run := fun c s => (s.onFolio c.q c.f fun fo =>
      { fo with fr := lput fo.fr (c.u 0 1) ((lget ⟨0, []⟩ fo.fr (c.u 0 1)).set s.now (c.u 4 4)) }, .ok []) }

end Sys2Proof.Machine
end

