-- ==== Sys2Proof/Machine/FbOps.lean ====
section
/-! DEFINITION. The feedback-core opcodes 0x0400 to 0x040D (05, R191 to R201). -/
namespace Sys2Proof.Machine

namespace Status
def fbRunning : Nat := 0x1040
def fbBankActive : Nat := 0x1041
def fbNotOwner : Nat := 0x1042
def fbRouteInvalid : Nat := 0x1043
end Status

/-- A core runs a program. -/
def FbCore.live (c : FbCore) : Bool := c.st == .running || c.st == .waiting

/-- The core that a command's object names. -/
def Cmd.core (c : Cmd) (s : State) : FbCore := s.core c.q c.i

/-- The first word of a list that FB_LOAD refuses (R189). -/
def fbLoadErr (c : Cmd) : List Nat → Nat → Nat → Option Err
  | [], _, _ => none
  | w :: ws, a, off => if coreLoadOk w a then fbLoadErr c ws (a + 1) (off + 4) else some (c.bad off)

/-- FB_LOAD (R189, R192). -/
def opFbLoad : OpSpec :=
  { cls := [.fbcore], len := none, lenMin := 8, lenOk := fun n => decide (8 ≤ n) && decide (n ≤ 4064) && n % 4 == 0,
    state := fun c s => firstErr [synState c s,
      failIf ((c.core s).live && c.u 0 1 == ofBool (c.core s).active) (fsErr Status.fbBankActive)],
    fields := fun _ _ => [fU 0 1 0 1, fR 1 1, fU 2 2 0 4095, fX 4 fun p => decide (u p 2 2 + (p.length - 4) / 4 ≤ 4096)],
    more := fun c _ => fbLoadErr c (c.words 4 4) (c.u 2 2) 4,
    run := fun c s =>
      let ws := (c.words 4 4).map (BitVec.ofNat 32)
      (s.onCore c.q c.i fun x =>
        if c.u 0 1 = 0 then { x with bank0 := tputs 0 x.bank0 (c.u 2 2) ws }
        else { x with bank1 := tputs 0 x.bank1 (c.u 2 2) ws }, .ok []) }

/-- FB_READ (R192). -/
def opFbRead : OpSpec :=
  { readOp [.fbcore] 8 (fun c s =>
      (tgets 0 (if c.u 0 1 = 0 then (c.core s).bank0 else (c.core s).bank1) (c.u 2 2) (c.u 4 2)).flatMap fun w =>
        leBytes 4 w.toNat) with
    state := synState,
    fields := fun _ _ => [fU 0 1 0 1, fR 1 1, fU 2 2 0 4095,
      fX 4 (fun p => decide (1 ≤ u p 4 2) && decide (u p 4 2 ≤ 1016) && decide (u p 2 2 + u p 4 2 ≤ 4096)), fR 6 2] }

/-- The words of a core's memory from an address on as the host writes them: the core's own store of that cycle stands (R165). -/
def FbCore.hostWrite (c : FbCore) (y : Bool) (a cycle : Nat) (ws : List (BitVec 16)) : FbCore :=
  let x := if y then { c with ymem := tputs 0 c.ymem a ws } else { c with xmem := tputs 0 c.xmem a ws }
  match c.lastSt with
  | some (t, m, k, _) => if t = cycle ∧ m = y ∧ a ≤ k ∧ k < a + ws.length then x.setMem y k (c.memAt y k) else x
  | none => x

/-- The words as the host reads them: of the core's own store of that cycle the old value (R165). -/
def FbCore.hostRead (c : FbCore) (y : Bool) (a cycle n : Nat) : List (BitVec 16) :=
  let x := match c.lastSt with
    | some (t, m, k, old) => if t = cycle ∧ m = y then c.setMem y k old else c
    | none => c
  tgets 0 (if y then x.ymem else x.xmem) a n

/-- FB_MEM_WRITE (R165, R193). -/
def opFbMemWrite : OpSpec :=
  { cls := [.fbcore], len := none, lenMin := 8, lenOk := fun n => decide (8 ≤ n) && decide (n ≤ 4064) && n % 4 == 0,
    state := synState,
    fields := fun _ _ => [fU 0 1 0 1, fR 1 1, fU 2 2 0 8191, fX 4 fun p => decide (u p 2 2 + (p.length - 4) / 2 ≤ 8192)],
    run := fun c s =>
      let ws := (c.words 4 2).map (BitVec.ofNat 16)
      (s.onCore c.q c.i fun x => x.hostWrite (c.u 0 1 == 1) (c.u 2 2) (cycleOf s.now) ws, .ok []) }

/-- FB_MEM_READ (R165, R193). -/
def opFbMemRead : OpSpec :=
  { readOp [.fbcore] 8 (fun c s =>
      ((c.core s).hostRead (c.u 0 1 == 1) (c.u 2 2) (cycleOf s.now) (c.u 4 2)).flatMap fun w => leBytes 2 w.toNat) with
    state := synState,
    fields := fun _ _ => [fU 0 1 0 1, fR 1 1, fU 2 2 0 8191,
      fX 4 (fun p => decide (2 ≤ u p 4 2) && decide (u p 4 2 ≤ 2032) && u p 4 2 % 2 == 0 &&
        decide (u p 2 2 + u p 4 2 ≤ 8192)), fR 6 2] }

/-- The channels that an FB_CONFIG names (R194, R499). -/
def fbCfgFields (c : Cmd) : List EvField :=
  ((List.range 4).map fun i => evField i false (c.u (4 + 2 * i) 2)) ++
  ((List.range 4).map fun i => evField (4 + i) true (c.u (12 + 2 * i) 2)) ++ [evField 8 true (c.u 20 2)]

/-- FB_CONFIG (R194). -/
def opFbConfig : OpSpec :=
  { cls := [.fbcore], len := some 24,
    state := fun c s => firstErr [synState c s, failIf (c.core s).live (fsErr Status.fbRunning)],
    fields := fun _ _ => (List.range 9).map (fun i => fCh (4 + 2 * i)) ++ [fR 22 2],
    reg := fun c s => s.evFieldsCheck c.port c.obj.id (fbCfgFields c),
    run := fun c s =>
      ((s.evFieldsApply c.port c.obj.id (fbCfgFields c)).onCore c.q c.i fun x =>
        { x with cfg := { fmask := BitVec.ofNat 32 (c.u 0 4), evi := (List.range 4).map fun i => c.u (4 + 2 * i) 2,
                          evo := (List.range 4).map fun i => c.u (12 + 2 * i) 2, alarm := c.u 20 2 } }, .ok []) }

/-- The start of the first cycle after an instant. -/
def nextCycle (t : Nat) : Nat := (cycleOf t + 1) * uCycle

/-- FB_ROUTE_SET (R195): in the first cycle after execution. -/
def opFbRouteSet : OpSpec :=
  { cls := [.quire], len := some 8, state := synState,
    fields := fun _ _ => [fU 0 1 0 15, fP 1 1 (fun v => decide (v ≤ 4) || v == 0xFF), fU 2 1 0 15, fU 3 1 0 15,
      fU 4 4 0 0x3FFFE],
    more := fun c s =>
      let own := c.u 4 4 == s.dev.addr
      failIf ((c.u 1 1 == 0 && !own) || (decide (1 ≤ c.u 1 1) && decide (c.u 1 1 ≤ 4) && own)) (fsErr Status.fbRouteInvalid),
    run := fun c s =>
      let r : FbRoute :=
        { FbRoute.reset with port := c.u 1 1, dq := c.u 2 1, dcore := bits (c.u 3 1) 0 2, group := bits (c.u 3 1) 2 2,
                             addr := c.u 4 4 }
      (s.delay (nextCycle s.now) (.route c.q (c.u 0 1) r), .ok []) }

/-- FB_ROUTE_GET (R195). -/
def opFbRouteGet : OpSpec :=
  { readOp [.quire] 4 (fun c s =>
      let r := (s.fbq c.q).route (c.u 0 1)
      leBytes 1 (c.u 0 1) ++ leBytes 1 r.port ++ leBytes 1 r.dq ++ leBytes 1 (r.dcore + 4 * r.group) ++ leBytes 4 r.addr ++
        leBytes 4 r.sent ++ leBytes 4 r.lost) with
    state := synState, fields := fun _ _ => [fU 0 1 0 15, fR 1 3] }

/-- FB_FLAG_OWNER_SET (R196): in the first cycle after execution. -/
def opFbFlagOwnerSet : OpSpec :=
  { cls := [.quire], len := some 64, state := synState,
    fields := fun _ _ => (List.range 64).map fun i => fP i 1 fun v => decide (v ≤ 5) || v == 0xFF,
    run := fun c s => (s.delay (nextCycle s.now) (.owners c.q ((List.range 64).map fun i => c.u i 1)), .ok []) }

/-- FB_FLAG_SET (R197): at the first cycle at or after the first coarse tick after execution, or after its TIMED time. -/
def opFbFlagSet : OpSpec :=
  { cls := [.quire], timed := true, fast := true, len := some 16, state := synState,
    more := fun c s =>
      let b := s.fbq c.q
      failIf ((List.range 64).any fun i => bitOf (c.u 0 8) i && lget 0xFF b.owners i != 5) (fsErr Status.fbNotOwner),
    run := fun c s =>
      let t := if c.timed then s.now else tickAfter s.now
      (s.delay (cycleAt t * uCycle) (.flags c.q (BitVec.ofNat 64 (c.u 0 8)) (BitVec.ofNat 64 (c.u 8 8))), .ok []) }

/-- FB_FLAG_GET (R197). -/
def opFbFlagGet : OpSpec :=
  { readOp [.quire] 0 (fun c s =>
      let b := s.fbq c.q
      leBytes 8 ((List.range 64).foldl (fun n i => n + (b.flag i).val * 2 ^ i) 0) ++ b.owners.flatMap (leBytes 1) ++
        leBytes 4 b.flagCollide ++ leBytes 4 b.remoteDenied) with state := synState }

/-- The cores that a CORES mask names. -/
def coresOf (m : Nat) : List Nat := (List.range 4).filter fun k => bitOf m k

/-- FB_START (R198): all named cores issue ENTRY in the same cycle. -/
def opFbStart : OpSpec :=
  { cls := [.quire], timed := true, wild := true, fast := true, len := some 8,
    state := fun c s => firstErr [synState c s, stateIf s (s.pers c.q == .service),
      failIf ((coresOf (c.u 0 1)).any fun k => (s.core c.q k).live) (fsErr Status.fbRunning)],
    fields := fun _ _ => [fU 0 1 1 15, fU 1 1 0 1, fU 2 2 0 4095, fU 4 1 0 1, fR 5 3],
    run := fun c s =>
      let t := cycleAt (if c.timed then s.now else tickAfter s.now) * uCycle
      ((coresOf (c.u 0 1)).foldl (fun a k => a.delay t (.coreStart c.q k (c.u 1 1) (c.u 2 2) (c.u 4 1 == 1))) s, .ok []) }

/-- FB_STOP (R199). -/
def opFbStop : OpSpec :=
  { cls := [.quire], timed := true, wild := true, fast := true, len := some 4, state := synState,
    fields := fun _ _ => [fU 0 1 1 15, fU 1 1 0 1, fR 2 2],
    run := fun c s =>
      ((coresOf (c.u 0 1)).foldl (fun a k => a.onCore c.q k fun x =>
        if !x.live then x else if c.u 1 1 = 1 then x.stop .halted 2 else { x with stopSafe := true }) s, .ok []) }

/-- FB_SWAP (R190, R200): armed on a core that runs, at once on one that does not. -/
def opFbSwap : OpSpec :=
  { cls := [.fbcore], len := some 4, state := synState,
    fields := fun _ _ => [fU 0 2 0 4095, fU 2 1 0 1, fR 3 1],
    run := fun c s =>
      let keep := c.u 2 1 == 1
      if (c.core s).live then
        (s.onCore c.q c.i fun x => { x with swap := some (c.u 0 2, keep, cycleOf s.now) }, .accepted [wait .fbSwap c.obj.id 0] false none)
      else
        (s.onCore c.q c.i fun x =>
          let y := if keep then x else
            { x with d := FbCore.reset.d, a0 := 0, a1 := 0, x := FbCore.reset.x, y := FbCore.reset.y,
                     wx := FbCore.reset.wx, wy := FbCore.reset.wy }
          { y with active := !x.active, pc := c.u 0 2 }, .ok []) }

/-- STATE of FB_STATUS (R176); GATED outside CONTROL and SERVICE (R162). -/
def CState.code : CState → Nat
  | .idle => 0 | .running => 1 | .waiting => 2 | .halted => 3 | .fault => 4

/-- The 64 bytes of FB_STATUS (R201). -/
def FbCore.status (c : FbCore) (gated : Bool) : List Byte :=
  leBytes 1 (if gated then 5 else c.st.code) ++ leBytes 1 c.cause ++ leBytes 1 (ofBool c.active) ++
    leBytes 1 (ofBool c.swap.isSome) ++ leBytes 2 (min c.pc 4095) ++ leBytes 2 c.srWord ++
    [c.rfDrop, c.ifDrop, c.sendDrop, c.flagDenied, c.eiOvr, c.framesSent, c.framesRecv].flatMap (leBytes 4) ++
    leBytes 1 c.rfifo.length ++ leBytes 1 c.ififo.length ++ zeros 2 ++ leBytes 8 c.issued ++
    c.d.flatMap fun v => leBytes 2 v.toNat

/-- FB_STATUS (R201). -/
def opFbStatus : OpSpec :=
  { readOp [.fbcore] 0 (fun c s => (c.core s).status (s.pers c.q != .control && s.pers c.q != .service)) with
    state := synState }

end Sys2Proof.Machine
end

