-- ==== Sys2Proof/Machine/RfCal.lean ====
section
/-! DEFINITION. Calibration of the converter lines (08, R289, R290, R298): the background calibration of a DAC line, the reference
calibration of an ADC line and the opcodes 0x0707 and 0x0708. A measurement is the correction that it asks for: gain, offset and
timing, in units of 1/720,720 of the STEP of R480. -/
namespace Sys2Proof.Machine

/-- The repeat tolerances of R480 in STEPs: 0.01 dB, 4 codes (2 LSB for an ADC line) and 0.5 ps. -/
def dacTol : List Nat := [10, 4, 10]
def adcTol : List Nat := [10, 2, 0]

/-- Two measurements agree in every quantity. -/
def calAgree (tol : List Nat) (m1 m2 : List Int) : Bool :=
  (List.range 3).all fun k => decide ((lget 0 m1 k - lget 0 m2 k).natAbs ≤ lget 0 tol k * calUnit)

/-- A calibration of a line ends at the present: accepted as a target, or discarded (R290, R478). -/
def LineCal.judge (x : LineCal) (ok : Bool) (m1 m2 : List Int) (now : Nat) : LineCal :=
  let y := { x with until' := none, due := false }
  if ok then { y with count := inc32 y.count, last := now, target := (List.range 3).map fun k => (lget 0 m1 k + lget 0 m2 k) / 2 }
  else { y with disagree := inc32 y.disagree }

/-- The controller's part of the same, and the reply to a CONV_CAL_RUN. -/
def State.lineJudged (s : State) (obj : Nat) (ok : Bool) : State :=
  let w := wait .convCal obj 0
  if s.bsc.cal.suspended then s.failWait w (err Status.calSuspended 0)
  else if ok then (s.onCal fun c => { c with accepted := inc32 c.accepted, lastAccept := s.now }).resolve w []
  else s.calDisagrees.failWait w (err Status.calDisagree 0)

/-- DAC_BACKGROUND_CAL: the observation converter has measured a line twice, for a CONV_CAL_RUN or because PERIOD has expired under
POLICY 2 (R289). -/
def execDacBackgroundCal (n : Fin 40) (m1 m2 : List Int) (s : State) : Host.Outcome State Fault Refusal :=
  let c := (s.dac n).cal
  let ok := calAgree dacTol m1 m2 && !s.bsc.cal.suspended
  let fin := fun (a : State) => (a.onDac n fun d => { d with cal := d.cal.judge ok m1 m2 a.now }).lineJudged (dacId n) ok
  if !s.runs ∨ s.dacOut n ∨ s.dacRetired n then .next s
  else match c.until' with
    | some _ => .next (fin s)
    | none =>
      if c.policy ≠ 2 then .next s
      else
        let s1 := s.advanceTo (c.from' + c.period * uS)
        .next (fin (s1.onDac n fun d => { d with cal := { d.cal with from' := s1.now } }))

/-- The time of a reference calibration: two measurements of 12.00 µs (R290). -/
def refCalTime : Nat := 24 * uUs

/-- ADC_CAL_DUE: a PERIOD has elapsed: a calibration is due, or one that was due is missed; POLICY 2 runs it at once (R290). -/
def execAdcCalDue (n : Fin 16) (s : State) : Host.Outcome State Fault Refusal :=
  let c := (s.adc n).cal
  if !s.runs ∨ s.adcOut n ∨ s.adcRetired n ∨ c.policy = 0 then .next s
  else
    let s1 := s.advanceTo (c.from' + c.period * uS)
    let s2 := if c.policy = 2 ∧ c.until'.isNone then s1.onAdc n fun a => a.gap s1.now (some (s1.now + refCalTime)) else s1
    .next (s2.onAdc n fun a => { a with cal :=
      { a.cal with from' := s1.now, missed := if c.due then inc32 c.missed else c.missed, due := true,
                   until' := if c.policy = 2 ∧ c.until'.isNone then some (s1.now + refCalTime) else c.until' } })

/-- A Folio lets a reference calibration run: it is at a sequence boundary, and of a boundary wait at least 30 µs remain (R113, R290). -/
def Folio.allowsCal (fo : Folio) (now : Nat) : Bool :=
  fo.atBoundary now && match fo.wait with
    | some (.until n _) => fo.st != .waiting || decide (now + 30 * uUs ≤ outTime n)
    | _ => true

/-- Every Quire that receives a line is in CONTROL and at a sequence boundary, or has its wait before it. -/
def State.calAllowed (s : State) (n : Nat) : Bool :=
  (s.receivers n).all fun q => s.pers q == .control && (s.synq q).folios.all fun e => e.2.allowsCal s.now

/-- REFERENCE_CALIBRATION: a calibration in progress ends; else one that is due under POLICY 1 begins at the next coarse tick, where
every receiver allows it (R290). -/
def execReferenceCalibration (n : Fin 16) (m1 m2 : List Int) (s : State) : Host.Outcome State Fault Refusal :=
  let c := (s.adc n).cal
  let ok := calAgree adcTol m1 m2 && !s.bsc.cal.suspended
  if s.dev.st == .off then .next s
  else match c.until' with
    | some t =>
      let s1 := s.advanceTo t
      .next ((s1.onAdc n fun a => { a with cal := a.cal.judge ok m1 m2 s1.now }).lineJudged (adcId n) ok)
    | none =>
      let s1 := s.advanceTo (tickAt s.now)
      if c.due ∧ c.policy = 1 ∧ s1.calAllowed n then
        .next (s1.onAdc n fun a => { a.gap s1.now (some (s1.now + refCalTime)) with cal := { a.cal with until' := some (s1.now + refCalTime) } })
      else .next s

/-- A line's calibration, and the checks of R293, whichever its kind. -/
def State.lineCal (s : State) (o : Obj) : LineCal := if o.cls = .dacline then (s.dac o.index).cal else (s.adc o.index).cal
def State.onLineCal (s : State) (o : Obj) (g : LineCal → LineCal) : State :=
  if o.cls = .dacline then s.onDac o.index fun d => { d with cal := g d.cal } else s.onAdc o.index fun a => { a with cal := g a.cal }
def State.lineErr (s : State) (o : Obj) : Option Err := if o.cls = .dacline then s.dacErr o.index else s.adcErr o.index
def State.lineUsers (s : State) (o : Obj) : List Nat := if o.cls = .dacline then s.dacUsers o.index else s.adcUsers o.index

/-- CONV_CAL_POLICY_SET (R290, R298). -/
def opConvCalPolicySet : OpSpec :=
  { cls := [.dacline, .adcline], len := some 8, ctl := fun c s => s.lineUsers c.obj,
    state := fun c s => firstErr [s.lineErr c.obj, stateIf s (c.obj.cls == .adcline && c.u 0 1 == 1 &&
      (s.receivers c.i).any fun q => s.pers q == .correlate || s.pers q == .beamform)],
    fields := fun c _ => [fP 0 1 (fun v => v == 0 || v == 2 || (v == 1 && c.obj.cls == .adcline)), fR 1 1, fU 2 2 1 3600, fR 4 4],
    run := fun c s =>
      (s.onLineCal c.obj fun x => { x with policy := c.u 0 1, period := c.u 2 2, from' := s.now, due := x.due && c.u 0 1 != 0 }, .ok []) }

/-- CONV_CAL_RUN (R289, R290, R298): E_BUSY while a calibration of the line is in progress. -/
def opConvCalRun : OpSpec :=
  { cls := [.dacline, .adcline], timed := true, len := some 4, ctl := fun c s => s.lineUsers c.obj, state := fun c s => s.lineErr c.obj,
    fields := fun _ _ => [fR 0 4], more := fun _ s => s.calErr,
    busy := fun c s => match (s.lineCal c.obj).until' with | some t => some (eBusy (s.usUntil t)) | none => none,
    run := fun c s =>
      let t0 := if c.timed then tickAt (c.execTime s) else tickAfter s.now
      let s1 := if c.obj.cls = .adcline then s.onAdc c.i fun a => a.gap t0 (some (t0 + refCalTime)) else s
      (s1.onLineCal c.obj fun x => { x with until' := some (t0 + refCalTime) }, .accepted [wait .convCal c.obj.id 0] true none) }

end Sys2Proof.Machine
end

