-- ==== Sys2Proof/Machine/RoOps.lean ====
section
/-! DEFINITION. The read-out opcodes 0x0300 to 0x030D (04, R153 to R161). -/
namespace Sys2Proof.Machine

namespace Status
def kernelRange : Nat := 0x1030
def sourceUnrouted : Nat := 0x1031
def weaveArrayBusy : Nat := 0x1032
def streamBound : Nat := 0x1033
end Status

/-- A routing keeps the limit of four Quires a line (R16). -/
def State.routeFits (s : State) (q a b : Nat) : Bool :=
  [a, b].all fun l => decide (16 ≤ l) || decide (s.lineQuires q l < 4)

/-- RO_ROUTE_SET (R130, R154). -/
def opRoRouteSet : OpSpec :=
  { cls := [.quire], len := some 4, state := synState,
    fields := fun _ _ => [fP 0 1 (fun v => decide (v ≤ 15) || v == 0xFF),
      fX 1 (fun p => (decide (u p 1 1 ≤ 15) || u p 1 1 == 0xFF) && (u p 1 1 != u p 0 1 || u p 1 1 == 0xFF)), fR 2 2],
    cap := fun c s => failIf (!s.routeFits c.q (c.u 0 1) (c.u 1 1)) eCapacity,
    run := fun c s =>
      if s.folioBusy c.q then
        (s.onRo c.q fun r => { r with pendRoute := some (c.u 0 1, c.u 1 1) }, .accepted [wait .roRoute c.obj.id 0] false none)
      else (s.onRo c.q fun r => { r with slot0 := c.u 0 1, slot1 := c.u 1 1 }, .ok []) }

/-- RO_ROUTE_GET (R154). -/
def opRoRouteGet : OpSpec :=
  { readOp [.quire] 0 (fun c s => leBytes 1 (s.roq c.q).slot0 ++ leBytes 1 (s.roq c.q).slot1 ++ zeros 2) with
    state := synState }

/-- The read-out set that an RSET_SET carries (R155). -/
def rsetOf (p : List Byte) : RSet :=
  { RSet.reset with
    src := u p 1 1, cut := u p 2 1 == 1, weave := u p 3 1 == 1, dfw := BitVec.ofNat 48 (u p 4 6),
    dphase := BitVec.ofNat 32 (u p 12 4), depoch := BitVec.ofNat 48 (sampleAt ((dtOf (slice p 16 12)).getD 0)),
    kbase := u p 28 4, len := u p 32 2, dshift := u p 34 1, dest := u p 35 1, evDone := u p 36 2, evMatch := u p 38 2,
    matchMask := u p 40 1 }

/-- The registrations of a read-out set (R145, R499). -/
def rsetFields (c : Cmd) : List EvField :=
  [evField (2 * c.u 0 1) true (c.u 36 2), evField (2 * c.u 0 1 + 1) true (c.u 38 2)]

/-- RSET_SET (R137, R155). -/
def opRsetSet : OpSpec :=
  { cls := [.demod], timed := true, wild := true, len := some 48, state := synState,
    fields := fun _ _ => [fU 0 1 0 7, fU 1 1 0 1, fU 2 1 0 1, fU 3 1 0 1, fwField 4, fT 16, fU 28 4 0 262143,
      fU 32 2 4 2048, fU 34 1 0 31, fU 35 1 0 3, fCh 36, fCh 38, fU 40 1 0 15, fR 41 7],
    more := fun c s => firstErr
      [failIf ((s.roq c.q).slot (c.u 1 1)).isNone (fsErr Status.sourceUnrouted),
       failIf (decide (262144 < c.u 28 4 + c.u 32 2)) (fsErr Status.kernelRange)],
    reg := fun c s => s.evFieldsCheck c.port c.obj.id (rsetFields c),
    run := fun c s =>
      ((s.evFieldsApply c.port c.obj.id (rsetFields c)).atTick c c.q c.f (.rset c.q c.f (c.u 0 1) (rsetOf c.p)), .ok []) }

/-- The 48 bytes of RSET_GET (R155). DEPOCH is the start time of the stored sample count: R155 does not say whether the time written comes back.
DESIGN CHOICE. -/
def RSet.bytes (x : RSet) (n : Nat) : List Byte :=
  leBytes 1 n ++ leBytes 1 x.src ++ leBytes 1 (ofBool x.cut) ++ leBytes 1 (ofBool x.weave) ++
    leBytes 8 (ofSigned 64 (toSigned 48 x.dfw.toNat)) ++ leBytes 4 x.dphase.toNat ++ dtBytes (outTime x.depoch.toNat) ++
    leBytes 4 x.kbase ++ leBytes 2 x.len ++ leBytes 1 x.dshift ++ leBytes 1 x.dest ++ leBytes 2 x.evDone ++
    leBytes 2 x.evMatch ++ leBytes 1 x.matchMask ++ zeros 7

/-- A read-out set of a demodulator. -/
def State.rset (s : State) (q f n : Nat) : RSet := tget RSet.reset (s.demod q f).sets n

/-- RSET_GET (R155). -/
def opRsetGet : OpSpec :=
  { readOp [.demod] 4 (fun c s => (s.rset c.q c.f (c.u 0 1)).bytes (c.u 0 1)) with
    state := synState, fields := fun _ _ => [fU 0 1 0 7, fR 1 3] }

/-- The discriminator that a DISC_SET carries (R156). -/
def discOf (p : List Byte) : Disc :=
  { nstates := u p 1 1, a0 := sfld p 4 2, b0 := sfld p 6 2, a1 := sfld p 8 2, b1 := sfld p 10 2, a2 := sfld p 12 2,
    b2 := sfld p 14 2, c0 := sfld p 16 8, c1 := sfld p 24 8, c2 := sfld p 32 8, margin := u p 40 8 }

/-- A score constant of 44 bits, which is 0 for a state that is not scored. -/
def scoreField (off : Nat) (third : Bool) : Field :=
  fX off fun p => decide (-(2 ^ 43 - 1) ≤ sfld p off 8) && decide (sfld p off 8 ≤ 2 ^ 43 - 1) &&
    (!third || u p 1 1 == 3 || sfld p off 8 == 0)

/-- DISC_SET (R137, R156). -/
def opDiscSet : OpSpec :=
  { cls := [.demod], timed := true, wild := true, fast := true, len := some 48, state := synState,
    fields := fun _ _ => [fU 0 1 0 7, fU 1 1 2 3, fR 2 2, fX 12 (fun p => u p 1 1 == 3 || u p 12 2 == 0),
      fX 14 (fun p => u p 1 1 == 3 || u p 14 2 == 0), scoreField 16 false, scoreField 24 false, scoreField 32 true,
      fU 40 8 0 (2 ^ 46)],
    run := fun c s => (s.atTick c c.q c.f (.disc c.q c.f (c.u 0 1) (discOf c.p)), .ok []) }

/-- The 48 bytes of DISC_GET (R156). -/
def Disc.bytes (d : Disc) (n : Nat) : List Byte :=
  leBytes 1 n ++ leBytes 1 d.nstates ++ zeros 2 ++
    [d.a0, d.b0, d.a1, d.b1, d.a2, d.b2].flatMap (fun v => leBytes 2 (ofSigned 16 v)) ++
    [d.c0, d.c1, d.c2].flatMap (fun v => leBytes 8 (ofSigned 64 v)) ++ leBytes 8 d.margin

/-- DISC_GET (R156). -/
def opDiscGet : OpSpec :=
  { readOp [.demod] 4 (fun c s => (s.rset c.q c.f (c.u 0 1)).disc.bytes (c.u 0 1)) with
    state := synState, fields := fun _ _ => [fU 0 1 0 7, fR 1 3] }

/-- The kernel library written from an address on: what a recent fetch may still have seen is kept (R141). -/
def RoQuire.writeKern (r : RoQuire) (now a : Nat) : List Nat → RoQuire
  | [] => r
  | w :: ws =>
    { r with kern := tput 0 r.kern a w,
             kernOld := { time := now, addr := a, old := tget 0 r.kern a } :: r.kernOld }.writeKern now (a + 1) ws

/-- The taps of windows that may still be fetched or summed from earlier values: 25 µs, more than a window and its
path. -/
def kernKeep : Nat := 25 * uUs

/-- KERNEL_WRITE (R157). -/
def opKernelWrite : OpSpec :=
  { cls := [.quire], len := none, lenMin := 12, lenOk := fun n => decide (12 ≤ n) && decide (n ≤ 4064) && n % 4 == 0,
    state := synState,
    fields := fun _ _ => [fU 0 4 0 262143, fR 4 4, fX 8 fun p => decide (u p 0 4 + (p.length - 8) / 4 ≤ 262144)],
    run := fun c s => (s.onRo c.q fun r =>
      { r with kernOld := r.kernOld.filter fun e => decide (s.now ≤ e.time + kernKeep) }.writeKern s.now (c.u 0 4)
        (c.words 8 4), .ok []) }

/-- KERNEL_READ (R157). -/
def opKernelRead : OpSpec :=
  { readOp [.quire] 8 (fun c s => (tgets 0 (s.roq c.q).kern (c.u 0 4) (c.u 4 4)).flatMap (leBytes 4)) with
    state := synState,
    fields := fun _ _ => [fU 0 4 0 262143,
      fX 4 fun p => decide (1 ≤ u p 4 4) && decide (u p 4 4 ≤ 1016) && decide (u p 0 4 + u p 4 4 ≤ 262144)] }

/-- RO_STREAM_SET (R146, R158): a channel is bound, or with 0xFF the Quire's channel is unbound. -/
def opRoStreamSet : OpSpec :=
  { cls := [.quire], len := some 4, state := synState,
    fields := fun _ _ => [fP 0 1 (fun v => decide (v ≤ 15) || v == 0xFF), fR 1 3],
    more := fun c s => failIf (c.u 0 1 != 0xFF && (s.dmaCh (c.u 0 1)).stream.isSome) (fsErr Status.streamBound),
    busy := fun c s => failIf (c.u 0 1 != 0xFF && (s.dmaCh (c.u 0 1)).busy) (eBusy hintUnknown),
    run := fun c s =>
      let s1 := match (s.roq c.q).channel with | some n => (if s.hostUp then s.roPush c.q 1 else s).dmaUnbind n | none => s
      if c.u 0 1 = 0xFF then (s1.onRo c.q fun r => { r with channel := none }, .ok [])
      else (((s1.dmaBind (c.u 0 1) (.readout c.q)).onRo c.q fun r => { r with channel := some (c.u 0 1) }).roDrain c.q,
        .ok []) }

/-- The 32 bytes of RO_STATUS (R159). -/
def Demod.status (d : Demod) : List Byte :=
  leBytes 8 d.last ++ [d.winCount, d.ovlDrop, d.ovlCut, d.cancel, d.satCount, d.srcErr].flatMap (leBytes 4)

/-- RO_STATUS (R159). -/
def opRoStatus : OpSpec := { readOp [.demod] 0 (fun c s => (s.demod c.q c.f).status) with state := synState }

/-- The weave values that a WEAVE_SET carries (R160). -/
def weaveOf (p : List Byte) : Weave :=
  { enable := u p 0 1 == 1, shift := u p 1 1, members := u p 4 4,
    msets := (List.range 32).map fun j => u p (8 + j) 1,
    w := tputs 0 [] 0 ((List.range 1024).map fun k => u p (40 + 2 * k) 2) }

/-- A member-set field (R160, R161): 0 to 7, and 0 for a non-member of the mask at `mo`. -/
def msetField (off mo j : Nat) (zero : Bool) : Field :=
  fX (off + j) fun p => decide (u p (off + j) 1 ≤ 7) && (!zero || bitOf (u p mo 4) j || u p (off + j) 1 == 0)

/-- WEAVE_SET (R150, R151, R160, R525): at once where no Folio runs, else at the next sequence boundary. -/
def opWeaveSet : OpSpec :=
  { cls := [.quire], len := some 2088,
    state := fun c s => firstErr [synState c s,
      failIf (c.u 0 1 == 1 && (s.roq c.q).covar.isSome) (fsErr Status.weaveArrayBusy)],
    fields := fun _ _ => [fU 0 1 0 1, fU 1 1 0 15, fR 2 2, fX 4 (fun p => u p 4 4 != 0 || u p 0 1 == 0)] ++
      (List.range 32).map (fun j => msetField 8 4 j true) ++
      (List.range 1024).map fun k => fX (40 + 2 * k) fun p =>
        (bitOf (u p 4 4) (k / 32) && bitOf (u p 4 4) (k % 32)) || u p (40 + 2 * k) 2 == 0,
    cap := fun c s => failIf (c.u 0 1 == 1 && bitOf (s.qb c.q).clost 5) eCapacity,
    run := fun c s =>
      let w := weaveOf c.p
      if s.folioBusy c.q then
        (s.onRo c.q fun r => { r with weavePend := some w, weaveBank := w }, .accepted [wait .weave c.obj.id 0] false none)
      else (s.onRo c.q fun r => { r with weave := w, weaveBank := r.weave }, .ok []) }

/-- The 2,088 bytes of WEAVE_GET (R160). -/
def Weave.bytes (w : Weave) : List Byte :=
  leBytes 1 (ofBool w.enable) ++ leBytes 1 w.shift ++ zeros 2 ++ leBytes 4 w.members ++ w.msets.flatMap (leBytes 1) ++
    (tgets 0 w.w 0 1024).flatMap (leBytes 2)

/-- WEAVE_GET (R150, R160): the values in force. -/
def opWeaveGet : OpSpec := { readOp [.quire] 0 (fun c s => (s.roq c.q).weave.bytes) with state := synState }

/-- COVAR_RUN (R151, R161). -/
def opCovarRun : OpSpec :=
  { cls := [.quire], len := some 52,
    state := fun c s => firstErr [synState c s,
      failIf ((s.roq c.q).weave.enable || (s.roq c.q).covar.isSome) (fsErr Status.weaveArrayBusy)],
    fields := fun _ s => [fX 0 (fun p => u p 0 4 != 0)] ++ (List.range 32).map (fun j => msetField 4 0 j false) ++
      [fX 36 (fun p => match dtOf (slice p 36 12) with
        | some t => decide (t ≤ s.now + 1000 * uS)
        | none => false), fU 48 4 1024 (2 ^ 30)],
    more := fun c s => c.late s 36 (2 * uUs),
    run := fun c s =>
      let start := roundUp (sampleAt (c.time 36)) 8
      (s.onRo c.q fun r =>
        { r with cov := [], covar := some { mems := s.membersNow c.q (c.u 0 4) ((List.range 32).map fun j => c.u (4 + j) 1), start := start,
                                            nsamp := c.u 48 4 } },
        .accepted [wait .covar c.obj.id 0] false (some (outTime (start + 8 * c.u 48 4)))) }

/-- COVAR_READ (R161). -/
def opCovarRead : OpSpec :=
  { readOp [.quire] 4 (fun c s => (List.range 32).flatMap fun j =>
      let v := tget (0, 0) (s.roq c.q).cov (32 * c.u 0 1 + j)
      leBytes 8 (ofSigned 64 v.1) ++ leBytes 8 (ofSigned 64 v.2)) with
    state := synState, fields := fun _ _ => [fU 0 1 0 31, fR 1 3],
    busy := fun c s => match (s.roq c.q).covar with
      | some k => some (eBusy (s.usUntil (outTime (k.start + 8 * k.nsamp))))
      | none => none }

end Sys2Proof.Machine
end

