-- ==== Sys2Proof/Machine/TimeOps.lean ====
section
/-! DEFINITION. Device time (10): the TIME frames, the exchanges, steps, TRIG pins, launch slots and the opcodes 0x0900 to 0x090E. -/
namespace Sys2Proof.Machine

namespace Status
def stepNone : Nat := 0x1090
def stepChanged : Nat := 0x1091
def slotBusy : Nat := 0x1092
def timeGrid : Nat := 0x1093
end Status

/-! ### TIME frames (R349 to R352) -/

/-- The vector that an ANNOUNCE carries. -/
def vecOf (b : List Byte) : TVec := { prio := u b 7 1, cls := u b 8 1, gm := u b 4 3, steps := u b 10 2 }

/-- An exchange of a port begins: a new bin table of its delay line takes effect (R445). It moves a stamp by no more than a boundary of the two tables differs. -/
def State.threadTable (s : State) (p : Nat) : State :=
  let x := tget TinIn.reset s.cap.lines (16 + p)
  match x.tablePend with
  | none => s
  | some t =>
    let diff := match x.table with
      | some o => ((cumul t).zip (cumul o)).foldl (fun (m : Nat) e => max m ((e.1 - e.2) + (e.2 - e.1))) 0
      | none => 0
    let s1 := s.onCap fun c => { c with lines := tmod .reset c.lines (16 + p) fun x => { x with table := some t, tablePend := none } }
    if s.tmu.up = some p then s1.onTmu fun u => { u with grace := (max u.grace.1 (diff / 64 + 1), 8) } else s1

/-- A TIME message reaches Thread: `b` its payload, `stamp` when it came. A port that is DOWN has no timing lane, and its ANNOUNCE is discarded (R348, R362). -/
def State.timeMessage (s : State) (p : Nat) (b : List Byte) (stamp : Nat) : State :=
  let mtype := u b 0 1
  let mseq := u b 1 1
  if !s.threadOn p || !s.portUp p then s
  else if mtype = 1 then (s.onPort p fun x => { x with vec := some (vecOf b), vecAt := s.now }).timeSelect
  else if mtype = 4 then
    if s.portRole p = 2 then (s.sendTime p (timeMsg 5 mseq (dtBytes (ofStamp stamp)))).1 else s
  else if s.tmu.up ≠ some p then s
  else if mtype = 2 then
    let s1 := (if (s.port p).exch.isSome then s.exchDrop p else s).threadTable p
    s1.onPort p fun x => { x with exch := some { mseq := mseq, since := s.now, t1 := none, t2 := some stamp, t3 := none } }
  else match (s.port p).exch with
    | none => s
    | some x =>
      if x.mseq ≠ mseq then s.exchDrop p
      else match dtOf (slice b 4 12) with
        | none => s.exchDrop p
        | some t =>
          if mtype = 3 then
            if x.t1.isSome then s.exchDrop p
            else
              let k := ((s.port p).mseq + 1) % 256
              match (s.onPort p fun y => { y with mseq := k }).sendTime p (timeMsg 4 k []) with
              | (s1, some t3) => s1.onPort p fun y => { y with exch := some { x with mseq := k, t1 := some (stampOf t), t3 := some (stampOf t3) } }
              | (s1, none) => if (s1.port p).exch.isSome then s1.exchDrop p else s1
          else match x.t1, x.t2, x.t3 with
            | some t1, some t2, some t3 => s.exchDone p t1 t2 t3 (stampOf t)
            | _, _, _ => s.exchDrop p

/-- A TIME frame of a row arrives; an MTYPE that is none is counted, that of another row belongs to that row. -/
def State.timeFrame (s : State) (p : Nat) (x : TimeFrame) (row : Nat) : State :=
  if !s.hears p then s
  else match s.frameIn p x.whole x.bytes with
    | (s1, none) => s1
    | (s1, some h) =>
      let b := slice x.bytes 8 16
      let m := u b 0 1
      if h.cls ≠ 1 then s
      else if h.dest ≠ s.dev.addr then s1.countPort p .notNeighbour
      else if m = 0 ∨ 6 ≤ m then s1.onPort p fun y => { y with timeBad := inc32 y.timeBad }
      else if m ≠ row then s
      else s1.timeMessage p b x.stamp

/-- ANNOUNCE, SYNC, FOLLOW_UP, DELAY_REQ and DELAY_RESP arrive on a port (R349, R350). -/
def execTimeAnnounce (p : Fin 4) (x : TimeFrame) (s : State) : Host.Outcome State Fault Refusal := .next (s.timeFrame p x 1)
def execTimeSync (p : Fin 4) (x : TimeFrame) (s : State) : Host.Outcome State Fault Refusal := .next (s.timeFrame p x 2)
def execTimeFollowUp (p : Fin 4) (x : TimeFrame) (s : State) : Host.Outcome State Fault Refusal := .next (s.timeFrame p x 3)
def execTimeDelayReq (p : Fin 4) (x : TimeFrame) (s : State) : Host.Outcome State Fault Refusal := .next (s.timeFrame p x 4)
def execTimeDelayResp (p : Fin 4) (x : TimeFrame) (s : State) : Host.Outcome State Fault Refusal := .next (s.timeFrame p x 5)

/-- SYNC_INTERVAL: the next multiple of 2^SYNC_LOG2 µs, at which a DOWNSTREAM port gets SYNC and then FOLLOW_UP (R350). -/
def execSyncInterval (p : Fin 4) (s : State) : Host.Outcome State Fault Refusal :=
  if s.dev.st == .off then .next s
  else
    let per := 2 ^ s.tmu.cfg.syncLog2 * uUs
    let s1 := s.advanceTo ((s.now / per + 1) * per)
    if !(s1.portUp p && s1.portRole p == 2) then .next s1
    else
      let k := ((s1.port p).mseq + 1) % 256
      .next (match ((s1.threadTable p).onPort p fun y => { y with mseq := k }).sendTime p (timeMsg 2 k []) with
        | (s2, some t1) => (s2.sendTime p (timeMsg 3 k (dtBytes t1))).1
        | (s2, none) => s2)

/-- ANNOUNCE_INTERVAL: once per 1 ms every enabled port sends ANNOUNCE (R350). -/
def execAnnounceInterval (s : State) : Host.Outcome State Fault Refusal :=
  if s.dev.st == .off then .next s else .next (s.advanceTo ((s.now / uMs + 1) * uMs)).announceAll

/-- MASTER_TIMEOUT: 3 ms after a port's last ANNOUNCE its entry expires (R350, R355). -/
def execMasterTimeout (p : Fin 4) (s : State) : Host.Outcome State Fault Refusal :=
  if (s.port p).vec.isNone then .next s
  else .next ((s.advanceTo ((s.port p).vecAt + 3 * uMs)).onPort p fun x => { x with vec := none }).timeSelect

/-- WITHDRAW_IGNORE_END: the 4 ms for which a withdrawn grandmaster is ignored have passed (R355). -/
def execWithdrawIgnoreEnd (p : Fin 4) (s : State) : Host.Outcome State Fault Refusal :=
  match (s.port p).ignore with
  | [] => .next s
  | (_, t) :: _ => .next ((s.advanceTo t).onPort p fun x => { x with ignore := x.ignore.tail }).timeSelect

/-- EXCH_LOST: an exchange is not complete 100 µs after its SYNC (R350). -/
def execExchLost (p : Fin 4) (s : State) : Host.Outcome State Fault Refusal :=
  match (s.port p).exch with
  | none => .next s
  | some x => .next ((s.advanceTo (x.since + 100 * uUs)).exchDrop p)

/-! ### Steps (R360, R361) -/

/-- What every step does besides moving the time. -/
def State.stepped (s : State) (slew : Int) : State :=
  (s.onTmu fun t => { t with step := none, pending := none, est := slew, slew := slew, rest := slew, slewAt := s.now, stepCount := inc32 t.stepCount, lastStep := s.now }).fireObj
    s.tmu.cfg.evStep deviceId

/-- Time moves by −PENDING, to whole coarse ticks; the rest is slewed out. -/
def State.stepPending (s : State) (p : Int) : State :=
  let n := roundDiv (5 * p) 4194304
  let rest := roundDiv (5 * p - n * 4194304) 5
  (((s.stepTime (-(n * (uTick : Int)))).stepped rest).setRole (if s.tmu.up.isSome then .follower else s.tmu.role)).timeSelect

/-- STEP_APPLY: the step that comes next is applied: that of a TIME_SET at its AT, one by −PENDING, or it is found to have changed (R360, R372, R375). -/
def execStepApply (s : State) : Host.Outcome State Fault Refusal :=
  match s.tmu.setTo.filter (fun a => s.tmu.step.all fun x => decide (a.1 ≤ x.time)), s.tmu.step with
  | some (at', t), _ =>
    let s1 := (s.advanceTo at').onTmu fun u => { u with setTo := none }
    .next (((s1.stepTime ((t : Int) - (at' : Int))).stepped 0).onTmu fun u => { u with timeSet := true }).timeSelect
  | none, none => .next s
  | none, some x =>
    let s1 := (s.advanceTo x.time).onTmu fun t => { t with step := none }
    .next (match x.maxAbs, s1.tmu.pending with
      | some m, some p =>
        if p.natAbs ≤ 4 * m then (s1.stepPending p).resolve (wait .timeStep 0 0) [] else s1.failWait (wait .timeStep 0 0) (err Status.stepChanged 0)
      | some _, none => s1.failWait (wait .timeStep 0 0) (err Status.stepChanged 0)
      | none, some p => s1.stepPending p
      | none, none => s1)

/-! ### TRIG pins (R365 to R367) -/

def State.trig (s : State) (n : Nat) : Trig := lget .reset s.link.trigs n
def State.onTrig (s : State) (n : Nat) (g : Trig → Trig) : State := s.onLink fun l => { l with trigs := lput l.trigs n (g (lget .reset l.trigs n)) }

/-- TRIG_PULSE: the next pulse of an output's schedule becomes active, unless the old pulse still is or no reference is coherent. -/
def execTrigPulse (n : Fin 16) (s : State) : Host.Outcome State Fault Refusal :=
  let t := s.trig n
  if !t.scheduled || !s.runs then .next s
  else
    let edge := t.pulse t.next + t.fine * 16384
    let s1 := s.advanceTo edge
    let skip := decide (edge < t.activeTo) || !(s1.clk.coherent || s1.rf.allow)
    .next (if skip then s1.onTrig n fun t => { t with next := t.next + 1, missed := inc32 t.missed }
      else ((s1.onTrig n fun t => { t with next := t.next + 1, issued := (t.issued + 1) % 2 ^ 64, activeTo := edge + t.width * uSample }).emit
        (.trig n edge)).fireObj t.ev (trigId n))

/-- TRIG_INPUT_EDGE: an edge that first crossed at an instant has passed an input's glitch filter (R366). -/
def execTrigInputEdge (n : Fin 16) (high : Bool) (time : Nat) (s : State) : Host.Outcome State Fault Refusal :=
  let t := s.trig n
  if t.mode ≠ 0 ∨ s.dev.st == .off ∨ !(if high then t.edge % 2 == 1 else decide (2 ≤ t.edge)) then .next s
  else
    let s1 := s.advanceTo (time + t.filter * uNs)
    .next ((s1.onTrig n fun t =>
      if 16 ≤ t.stamps.length then { t with inOvf := true }
      else { t with stamps := t.stamps ++ [(time / uSample * uSample, !s1.clk.coherent)] }).fireObj t.ev (trigId n))

/-! ### Launch slots (R368, R369) -/

def LinkPort.slot (p : LinkPort) (j : Nat) : Slot := lget .reset p.slots j
def State.onSlot (s : State) (p j : Nat) (g : Slot → Slot) : State := s.onPort p fun x => { x with slots := lput x.slots j (g (x.slot j)) }

/-- The frame of an armed slot leaves on the timing lane, at the first character boundary at or after T outside any bracket, or is LOST (R368). From T minus
the time of 4,150 characters on no frame starts that would end after T: those that brackets have pushed that far give way. -/
def State.launch (s : State) (p j : Nat) : State :=
  let x := (s.port p).slot j
  match s.timingLane p, s.partner p with
  | some n, some _ =>
    let ct := s.charOf n
    let f := x.frame
    let b := withCrc (leBytes 1 (u f 0 1 % 16) ++ slice f 1 3 ++ leBytes 3 s.dev.addr ++ leBytes 1 0 ++ leBytes 4 (s.port p).pseqTx ++ f.drop 12)
    let cs := frameChars (u f 0 1 % 16) b
    let l := s.lane n
    let late := l.frames.filter fun y => decide (x.time < y.start + y.cs.length * ct) && y.kind != .set
    let l1 := { l with frames := l.frames.filter fun y => !late.contains y }
    let at' := l.charAt ct (max x.time (max (l1.txFree ct) ((l.pres.filter fun y => decide (y.start ≤ x.time)).foldl (fun (m : Nat) y => max m y.stop) 0)))
    let g := fun (l : LaneSt) => late.foldl (fun (l : LaneSt) y => l.frame ct y.kind (max y.start (l.txFree ct)) y.cs)
      (({ l with frames := l.frames.filter fun y => !late.contains y } : LaneSt).frame ct .frame at' cs)
    let s1 := (((s.onPort p fun y => { y with pseqTx := (y.pseqTx + 1) % 2 ^ 32 }).onTx n g).countPort p .framesTx).emitLine n
      (late.length + (l.pres.filter fun y => decide (at' ≤ y.start)).length) cs
    (s1.onPort p fun y =>
      if 16 ≤ y.txts.length then { y with txtsOvf := true } else { y with txts := y.txts ++ [{ msgid := 0x8000 + 256 * j + x.tag, time := at' }] }).onSlot p j
      fun y => { y with st := .sent }
  | _, _ => (s.onPort p fun y => { y with slotLost := inc32 y.slotLost }).onSlot p j fun y => { y with st := .lost }

/-- LAUNCH: the time of an armed slot has come; lower slots with the same time go first (R369). -/
def execSlotLaunch (p j : Fin 4) (s : State) : Host.Outcome State Fault Refusal :=
  let x := (s.port p).slot j
  if x.st ≠ .armed then .next s
  else
    let due := (List.range (j.val + 1)).filter fun k => ((s.port p).slot k).st == .armed && ((s.port p).slot k).time == x.time
    .next (due.foldl (fun a k => a.launch p k) (s.advanceTo x.time))

/-! ### Opcodes (R370 to R381) -/

/-- HFLAGS (R371). -/
def State.hflags (s : State) : Nat :=
  ofBool s.tmu.pending.isSome + 2 * ofBool (s.link.ports.any fun p => p.txtsOvf) + 4 * ofBool s.tmu.timeSet + 8 * ofBool (s.clk.sel == srcRec)

/-- TIME_GET. -/
def opTimeGet : OpSpec :=
  { readOp [.device] 0 (fun _ s => dtBytes s.now ++ leBytes 1 s.tmu.role.code ++ leBytes 1 s.hflags ++ zeros 2) with ep := fun _ => true }

/-- A time on a 16 ns boundary. -/
def onGrid16 (t : Nat) : Bool := t % (16 * uNs) == 0

/-- A step that is already on its way holds the time unit. -/
def State.stepBusy (s : State) : Option Err := ((s.tmu.step.map (·.time)).toList ++ (s.tmu.setTo.map (·.1)).toList).max?.map fun t => eBusy (s.usUntil t)

/-- TIME_SET (R361, R372). -/
def opTimeSet : OpSpec :=
  { cls := [.device], priv := fun _ => .owner, token := fun _ _ => true, len := some 24, keys := fun _ => [devKey 0x901],
    state := fun _ s => stateIf s (s.tmu.role == .follower || s.tmu.role == .holdover),
    fields := fun _ s => [fX 0 (fun p => match dtOf (slice p 0 12) with | some t => decide (t ≤ s.now + 1000 * uS) | none => false), fT 12],
    more := fun c s => firstErr [failIf (!(onGrid16 (c.time 0) && onGrid16 (c.time 12))) (err Status.timeGrid 0), c.late s 0 (10 * uUs)],
    busy := fun _ s => s.stepBusy,
    run := fun c s => (s.onTmu fun t => { t with setTo := some (c.time 0, c.time 12) }, .ok []) }

/-- The registrations of Thread's events. -/
def timeEvents (p : List Byte) : List EvField := [evField 0x900 true (u p 10 2), evField 0x901 true (u p 12 2)]

/-- TIME_CFG_SET (R347, R373). -/
def opTimeCfgSet : OpSpec :=
  { cls := [.device], priv := fun _ => .owner, ep := fun _ => true, len := some 16, keys := fun _ => [devKey 0x902],
    fields := fun _ _ => [fU 1 1 4 10, fU 2 1 0 15, fU 3 1 0 1, fU 4 4 100 1000000, fU 8 2 1 1000, fCh 10, fCh 12, fR 14 2],
    reg := fun c s => s.evFieldsCheck c.port deviceId (timeEvents c.p),
    run := fun c s =>
      let s1 := (s.evFieldsApply c.port deviceId (timeEvents c.p)).onTmu fun t =>
        { t.slewTo s.now with cfg := { prio := c.u 0 1, syncLog2 := c.u 1 1, ports := c.u 2 1, autoFirst := c.u 3 1 == 1, stepThr := c.u 4 4, slewPpb := c.u 8 2,
                                       evState := c.u 10 2, evStep := c.u 12 2 } }
      let s2 := s1.timeSelect
      (if (c.u 0 1 = 255 ∧ s2.bestVec.isNone) ∨ (c.u 2 1 = 0 ∧ s2.dev.st = .endpaper) then
        (s2.onTmu fun t => { t with sel := .none, pending := none }).setRole .freerun else s2, .ok []) }

/-- TIME_CFG_GET. -/
def opTimeCfgGet : OpSpec :=
  { readOp [.device] 0 (fun _ s =>
      let c := s.tmu.cfg
      leBytes 1 c.prio ++ leBytes 1 c.syncLog2 ++ leBytes 1 c.ports ++ leBytes 1 (ofBool c.autoFirst) ++ leBytes 4 c.stepThr ++ leBytes 2 c.slewPpb ++
        leBytes 2 c.evState ++ leBytes 2 c.evStep ++ zeros 2) with
    ep := fun _ => true }

/-- The vector that TIME_STATUS shows (R374). -/
def State.shownVec (s : State) : TVec :=
  if s.tmu.role = .freerun then .none else if s.tmu.role = .grandmaster then s.ownVec.getD s.tmu.sel else s.tmu.sel

/-- TIME_STATUS (R374). -/
def opTimeStatus : OpSpec :=
  { readOp [.device] 0 (fun _ s =>
      let t := s.tmu
      let v := s.shownVec
      leBytes 1 t.role.code ++ leBytes 1 (if t.role = .freerun then 0xFF else match t.up with | some p => p + 1 | none => 0xFF) ++ leBytes 2 v.steps ++ leBytes 4 v.gm ++ leBytes 1 v.prio ++
        leBytes 1 v.cls ++ leBytes 1 s.ownClass ++ leBytes 1 (s.hflags + 16 * ofBool t.tlaneChanged) ++ leBytes 8 (ofSigned 64 (roundDiv t.est 4)) ++
        leBytes 8 (roundDiv t.upDelay 2).toNat ++ leBytes 2 t.stepId ++ zeros 2 ++ leBytes 8 (ofSigned 64 (roundDiv (t.pending.getD 0) 4)) ++
        leBytes 4 t.stepCount ++ leBytes 4 t.exchLost ++ leBytes 4 t.refused ++ dtBytes t.lastStep) with
    ep := fun _ => true }

/-- TIME_STEP_AUTH (R375). -/
def opTimeStepAuth : OpSpec :=
  { cls := [.device], token := fun _ _ => true, len := some 12, keys := fun _ => [devKey 0x905], fields := fun _ _ => [fR 2 2, fU 4 8 1 (2 ^ 63 - 1)],
    more := fun c s => firstErr [failIf s.tmu.pending.isNone (err Status.stepNone 0), failIf (s.tmu.stepId != c.u 0 2) (err Status.stepChanged 0)],
    busy := fun _ s => s.stepBusy,
    run := fun c s =>
      (s.onTmu fun t => { t with step := some { time := s.stepAt, maxAbs := some (c.u 4 8) } }, .accepted [wait .timeStep 0 0] false (some s.stepAt)) }

/-- TIME_ASYM_SET (R376): an exchange in progress is dropped, as the constant applies from the next one and the set starts anew. -/
def opTimeAsymSet : OpSpec :=
  { cls := [.arrayport], ctx := [0], priv := fun _ => .owner, ep := fun _ => true, len := some 8, fields := fun _ _ => [fS 0 8 (-65536000) 65536000],
    run := fun c s => (s.onPort c.i fun p => { p with asym := c.sg 0 8, thetas := [], done := 0, exch := none }, .ok []) }

/-- TIME_PORT_STATUS (R377). -/
def opTimePortStatus : OpSpec :=
  { readOp [.arrayport] 0 (fun c s =>
      let v := (s.heardVec c.i).getD { TVec.none with steps := 0 }
      let p := s.port c.i
      leBytes 1 (s.portRole c.i) ++ zeros 3 ++ leBytes 4 v.gm ++ leBytes 1 v.prio ++ leBytes 1 v.cls ++ leBytes 2 v.steps ++ leBytes 8 (ofSigned 64 p.asym) ++
        leBytes 8 (roundDiv p.delay 2).toNat ++ leBytes 4 p.timeBad) with
    ep := fun _ => true, ctx := [0] }

/-- The 16 bytes of an entry of a transmit timestamp queue (R363). -/
def TxStamp.bytes (x : TxStamp) (p : Nat) : List Byte := leBytes 2 x.msgid ++ leBytes 1 (p + 1) ++ zeros 1 ++ dtBytes x.time

/-- TIME_TXTS_READ (R378): the entries read leave the queue. -/
def opTimeTxtsRead : OpSpec :=
  { cls := [.arrayport], ctx := [0], len := some 4, keys := fun _ => [], fields := fun _ _ => [fU 0 1 1 16, fR 1 3],
    run := fun c s =>
      let p := s.port c.i
      let xs := p.txts.take (c.u 0 1)
      (s.onPort c.i fun p => { p with txts := p.txts.drop (c.u 0 1), txtsOvf := false },
        .ok (leBytes 1 xs.length ++ leBytes 1 (ofBool p.txtsOvf) ++ zeros 2 ++ xs.flatMap fun x => x.bytes c.i)) }

/-- The registration of a pin's event. -/
def trigEvents (p : List Byte) : List EvField := [evField 0x909 true (u p 30 2)]

/-- TRIG_SET (R365, R379). -/
def opTrigSet : OpSpec :=
  { cls := [.trig], len := some 32,
    fields := fun _ _ =>
      let m := fun (p : List Byte) => u p 0 1
      let one := fun (p : List Byte) => u p 12 4 == 1
      [fU 0 1 0 2, fU 1 1 0 1, fX 2 (fun p => decide (u p 2 1 ≤ if m p = 0 then 0 else 63)),
       fX 3 (fun p => if m p = 0 then decide (1 ≤ u p 3 1) && decide (u p 3 1 ≤ 3) else u p 3 1 == 0),
       fX 4 (fun p => if m p = 0 || one p then u p 4 4 == 0 else decide (10 ≤ u p 4 4)),
       fX 8 (fun p => if m p = 0 then u p 8 4 == 0 else if one p then decide (1 ≤ u p 8 4) && decide (u p 8 4 ≤ 16777215)
         else decide (1 ≤ u p 8 4) && decide (u p 8 4 < u p 4 4)),
       fX 16 (fun p => if m p = 0 then allZero (slice p 16 12) else (dtOf (slice p 16 12)).isSome), fR 29 1, fCh 30],
    more := fun c s => if c.u 0 1 = 1 then c.late s 16 (2 * uUs) else none,
    reg := fun c s => s.evFieldsCheck c.port (trigId c.i) (trigEvents c.p),
    run := fun c s =>
      ((s.evFieldsApply c.port (trigId c.i) (trigEvents c.p)).onTrig c.i fun t =>
        { t with mode := c.u 0 1, pol := c.u 1 1, fine := c.u 2 1, edge := c.u 3 1, period := c.u 4 4, width := c.u 8 4, count := c.u 12 4,
                 start := c.time 16, filter := c.u 28 1, ev := c.u 30 2, next := 0 }, .ok []) }

/-- TRIG_GET (R379). -/
def opTrigGet : OpSpec :=
  readOp [.trig] 0 fun c s =>
    let t := s.trig c.i
    [t.mode, t.pol, t.fine, t.edge].flatMap (leBytes 1) ++ leBytes 4 t.period ++ leBytes 4 t.width ++ leBytes 4 t.count ++ dtBytes t.start ++
      leBytes 1 t.filter ++ zeros 1 ++ leBytes 2 t.ev ++ leBytes 8 t.issued ++ leBytes 4 t.missed ++ zeros 4

/-- The 12 bytes of an input's stamp. The NC mark that R367 gives a stamp has no place in R380's 12 bytes. -/
def opTrigInRead : OpSpec :=
  { cls := [.trig], priv := fun _ => .observer, changes := false, len := some 4, keys := fun _ => [], fields := fun _ _ => [fU 0 1 1 16, fR 1 3],
    run := fun c s =>
      let t := s.trig c.i
      let xs := t.stamps.take (c.u 0 1)
      (s.onTrig c.i fun t => { t with stamps := t.stamps.drop (c.u 0 1), inOvf := false },
        .ok (leBytes 1 xs.length ++ leBytes 1 (ofBool t.inOvf) ++ zeros 2 ++ xs.flatMap fun x => dtBytes x.1)) }

/-- LAUNCH_SET (R368, R369, R381). -/
def opLaunchSet : OpSpec :=
  { cls := [.arrayport], ctx := [0], len := none, lenMin := 48, lenOk := fun n => decide (48 ≤ n) && decide (n ≤ 4064),
    fields := fun _ _ =>
      [fU 0 1 0 3, fR 2 2, fT 4,
       fX 16 fun p =>
         let c := u p 16 1 % 16
         decide (3 ≤ c) && decide (c ≤ 5) && bits (u p 16 1) 6 2 == 0 && decide (u p 17 3 ≤ bcastAddr) && u p 30 2 == 0 && lenOfClass c (u p 28 2) &&
           decide (u p 28 2 ≤ 4032) && p.length == 32 + u p 28 2 && (u p 17 3 != bcastAddr || c != 5)],
    more := fun c s => firstErr [failIf (((s.port c.i).slot (c.u 0 1)).st == .armed) (err Status.slotBusy 0), c.late s 4 (2 * uUs)],
    run := fun c s =>
      (s.onSlot c.i (c.u 0 1) fun _ => { st := .armed, tag := c.u 1 1, time := c.time 4, frame := c.p.drop 16 }, .ok []) }

/-- LAUNCH_CANCEL (R381). -/
def opLaunchCancel : OpSpec :=
  { cls := [.arrayport], ctx := [0], len := some 4, fields := fun _ _ => [fU 0 1 0 3, fR 1 3],
    more := fun c s =>
      let x := (s.port c.i).slot (c.u 0 1)
      if x.st = .empty then none else failIf (x.st != .armed || decide (x.time ≤ s.now)) (eLate s.now x.time),
    run := fun c s => (s.onSlot c.i (c.u 0 1) fun _ => .reset, .ok []) }

/-- STATE of a slot (R381). -/
def SlotSt.code : SlotSt → Nat
  | .empty => 0 | .armed => 1 | .sent => 2 | .lost => 3 | .late => 4

/-- LAUNCH_STATUS (R381). -/
def opLaunchStatus : OpSpec :=
  { readOp [.arrayport] 0 (fun c s =>
      let p := s.port c.i
      p.slots.flatMap (fun x => leBytes 1 x.st.code ++ leBytes 1 x.tag ++ zeros 2) ++ leBytes 4 p.slotLost ++ leBytes 4 p.slotLate ++ zeros 8) with
    ctx := [0] }

end Sys2Proof.Machine
end

