-- ==== Sys2Proof/Machine/SpecBase.lean ====
section
/-! DEFINITION. The opcodes by their code (R71), but for CONFIG_APPLY, PERS_SET and the hand-over, which rest on this table; and the checks of
a command that need no port (R40 steps 6, 7 and 11). -/
namespace Sys2Proof.Machine

/-- Opcodes 0x00xx. -/
def specs00 : List (Option OpSpec) :=
  [some opDevNop, some opDevInfo, some opDevStatus, some opSessionOpen, some opSessionClose, some opDevDeadlineSet, some opDevDeadlineGet,
   some opDevRestart, some opDevEndpaperEnter, some opDevAddrSet, some opCmdAbort, some opPortStatsGet]

/-- Opcodes 0x01xx. -/
def specs01 : List (Option OpSpec) :=
  [some opImageInfo, some opImageWriteBegin, some opImageWriteData, some opImageCommit, some opImageErase]

/-- Opcodes 0x02xx. -/
def specs02 : List (Option OpSpec) :=
  [some opSynLinesSet, some opSynLinesGet, some opCtxSet, some opCtxGet, some opCtxPhaseShift, some opEnvWrite, some opEnvRead,
   some opParamWrite, some opParamRead, some opSeqLoad, some opSeqRead, some opSeqConfig, some opSeqRingSet, some opSeqArm, some opSeqGo,
   some opSeqStop, some opSeqStatus, some opFolioRegSet]

/-- Opcodes 0x03xx. -/
def specs03 : List (Option OpSpec) :=
  [some opRoRouteSet, some opRoRouteGet, some opRsetSet, some opRsetGet, some opDiscSet, some opDiscGet, some opKernelWrite,
   some opKernelRead, some opRoStreamSet, some opRoStatus, some opWeaveSet, some opWeaveGet, some opCovarRun, some opCovarRead]

/-- Opcodes 0x04xx. -/
def specs04 : List (Option OpSpec) :=
  [some opFbLoad, some opFbRead, some opFbMemWrite, some opFbMemRead, some opFbConfig, some opFbRouteSet, some opFbRouteGet,
   some opFbFlagOwnerSet, some opFbFlagSet, some opFbFlagGet, some opFbStart, some opFbStop, some opFbSwap, some opFbStatus]

/-- Opcodes 0x05xx. -/
def specs05 : List (Option OpSpec) :=
  [some opIntakeSrcSet, some opIntakeSrcGet, some opIntakeDelaySet, some opChanSet, some opChanGet, some opChanCoefWrite,
   some opChanCoefRead, some opGainWrite, some opGainRead, some opCtSet, some opCtGet, some opIntakeStatsGet]

/-- Opcodes 0x06xx. -/
def specs06 : List (Option OpSpec) :=
  [some opCorrPlanSet, some opCorrPlanGet, some opCorrExportSet, some opCorrStart, some opCorrStop, some opBeamPlanSet, some opBeamPlanGet,
   some opBeamExportSet, some opBeamWeightCommit, some opBeamStart, some opBeamStop, some opPlanStatus]

/-- Opcodes 0x07xx. -/
def specs07 : List (Option OpSpec) :=
  [some opDacLineSet, some opDacLineGet, some opRfMuteSet, some opRfUnmute, some opRfMutePolicySet, some opAdcLineSet, some opAdcLineGet,
   some opConvCalPolicySet, some opConvCalRun, some opConvStatus]

/-- Opcodes 0x08xx. -/
def specs08 : List (Option OpSpec) :=
  [some opLaneCfgSet, some opLaneStatus, some opLaneEqSet, some opLaneTest, some opLaneSwap, some opPortCfgSet, some opPortStatus,
   some opLinkTopoSet, some opLinkTopoGet, some opPeerCmdSend, some opBulkRxSet, some opBulkRxStatus]

/-- Opcodes 0x09xx. -/
def specs09 : List (Option OpSpec) :=
  [some opTimeGet, some opTimeSet, some opTimeCfgSet, some opTimeCfgGet, some opTimeStatus, some opTimeStepAuth, some opTimeAsymSet,
   some opTimePortStatus, some opTimeTxtsRead, some opTrigSet, some opTrigGet, some opTrigInRead, some opLaunchSet, some opLaunchCancel,
   some opLaunchStatus]

/-- Opcodes 0x0Axx. -/
def specs0A : List (Option OpSpec) :=
  [some opRefCfgSet, some opRefStatus, some opFreqMeasure, some opIslandStatus, some opDvfsSet, some opDvfsGet, some opEnergyRead,
   some opWorkRead, some opSupplyCfgSet, some opSupplyStatus]

/-- Opcodes 0x0Bxx. -/
def specs0B : List (Option OpSpec) :=
  [some opCapConfig, some opCapConfigGet, some opCapTrigSet, some opCapMaskWrite, some opCapArm, some opCapForce, some opCapStop,
   some opCapStatus, some opCapHdrRead]

/-- Opcodes 0x0Cxx. -/
def specs0C : List (Option OpSpec) :=
  [some opTinInputSet, some opTinInputGet, some opTinCalRun, some opTinCalRead, some opTinMeasSet, some opTinMeasStart, some opTinMeasStop,
   some opTinStatsRead, some opTinStampRead, some opTinStatus]

/-- Opcodes 0x0Dxx. -/
def specs0D : List (Option OpSpec) :=
  [some opBiasSet, some opBiasGet, some opBiasRangeSet, some opBiasGenSet, some opBiasTableWrite, some opBiasSafetySet, some opBiasStatus,
   some opBiasCalRun]

/-- Opcodes 0x0Exx. -/
def specs0E : List (Option OpSpec) :=
  [some opMonChSet, some opMonChGet, some opMonSeqWrite, some opMonSeqRun, some opMonRead, some opMonInject, some opMonSyscal,
   some opCalCfgSet, some opCalStatus, some opMonStatus]

/-- Opcodes 0x0Fxx. -/
def specs0F : List (Option OpSpec) :=
  [some opEvChanSet, some opEvChanGet, some opEvRouteAdd, some opEvRouteDel, some opEvFire, some opEvStatus, some opEvCoincRead]

/-- Opcodes 0x10xx. -/
def specs10 : List (Option OpSpec) :=
  [some opFaultLogRead, some opFaultPolicySet, some opSpareStatus, some opSelftestRun, some opUnitReadmit, some opUnitRetire,
   some opQuireMigrate, none, none, some opMemAlloc, some opMemFree, some opMemInfo]

/-- Opcodes 0x11xx. -/
def specs11 : List (Option OpSpec) :=
  [some opIdCertGet, some opTrustNonceGet, some opColophonGet, some opCfgLogRead, some opOwnerKeySet, some opOwnerKeyRevoke,
   some opOwnerKeyGet, some opOwnerRelease, some opPrivSet, some opPrivGet, some opCtrAdvance, some opCtrGet, some opDebugUnlock,
   some opDebugLock]

/-- The opcode with a code, if this firmware knows it (R71). -/
def specBase (code : Nat) : Option OpSpec :=
  let row := lget [] [specs00, specs01, specs02, specs03, specs04, specs05, specs06, specs07, specs08, specs09, specs0A, specs0B, specs0C, specs0D, specs0E, specs0F, specs10, specs11] (code / 256)
  lget none row (code % 256)

/-! ### Checks that need no port -/

/-- The own parameters have the length of the opcode (R40 step 6). -/
def OpSpec.fits (sp : OpSpec) (n : Nat) : Bool :=
  match sp.len with
  | some k => n == k
  | none => decide (sp.lenMin ≤ n) && sp.lenOk n

/-- The object is one that the opcode takes (R4 to R8). -/
def OpSpec.takes (sp : OpSpec) (o : Obj) : Bool :=
  sp.cls.contains o.cls && o.ok && (sp.wild || !o.wild) && (sp.ctx.isEmpty || sp.ctx.contains o.ctx) && (o.wild || sp.objOk o)

/-- The first parameter out of range, or what the checks of the opcode find beyond them (R40 step 11). -/
def OpSpec.paramErr (sp : OpSpec) (c : Cmd) (s : State) : Option Err := firstErr [c.range (sp.fields c s), sp.more c s]

end Sys2Proof.Machine
end

