-- ==== Sys2Proof/Machine/Pers.lean ====
section
/-! DEFINITION. Personalities, the owner configuration images and what acts at a Quire's boundaries (R27, R51, R77, R78, R113, R130, R150,
R265, R285, R394, R398). -/
namespace Sys2Proof.Machine

/-! ### Sections of an owner configuration image (R77). The body's layout is not in the spec (`Config.imageSection`) -/

/-- The newest valid copy of owner configuration image `slot`. -/
def State.cfgImage (s : State) (slot : Nat) : Option ImgCopy := s.newest (0x10 + slot)

/-- The settings of a section: 16 is the device's, `q` that of logical Quire q. -/
def ImgCopy.section' (x : ImgCopy) (n : Nat) : List (Nat × Nat × List Byte) := Config.imageSection (x.read.drop 128) n

/-- A setting as a command of the port that applies the image. -/
def settingCmds (src : Src) (live : List Nat) (t : Nat × Nat × List Byte) : List Cmd :=
  let p : Pkt := { code := t.1, req := { src := src, flags := 0, tag := 0, object := BitVec.ofNat 32 t.2.1, seq := 0, params := t.2.2 } }
  match Obj.ofId t.2.1 with
  | some o => (o.expand live).map fun o => { pkt := p, obj := o, p := t.2.2, timed := false, signed := false }
  | none => []

/-- What is wrong with a setting; with `full` its object's state, too, has to allow it. -/
def State.settingErr (s : State) (src : Src) (full : Bool) (t : Nat × Nat × List Byte) : Option Err :=
  match specBase t.1 with
  | none => some (err Status.eOpcode 0)
  | some sp =>
    if !sp.fits t.2.2.length then some (err Status.eLength (sp.len.getD 0))
    else match Obj.ofId t.2.1 with
      | none => some (err Status.eObject 0)
      | some o =>
        let cs := settingCmds src s.live t
        if !sp.takes o || cs.isEmpty then some (err Status.eObject 0)
        else if cs.any fun c => sp.token c s then some (err Status.eAuth 1)
        else firstErr (cs.map fun c => firstErr [if full then sp.state c s else none, sp.cap c s, sp.paramErr c s])

/-- A setting takes effect. -/
def State.runSetting (s : State) (src : Src) (t : Nat × Nat × List Byte) : State :=
  match specBase t.1 with
  | some sp => (settingCmds src s.live t).foldl (fun (b : State) c => (sp.run c b).1) s
  | none => s

/-- The first setting that is wrong, each held against what those before it make of the state. -/
def State.settingsErr (s : State) (src : Src) (full : Bool) : List (Nat × Nat × List Byte) → Option Err
  | [] => none
  | t :: ts => match s.settingErr src full t with
    | some e => some e
    | none => (s.runSetting src t).settingsErr src full ts

/-- The check of a whole section: the slot is valid, the image asks for no newer firmware (R556), and every setting is right. The state of the
objects is judged at the instant at which the section takes effect (`full`). DESIGN CHOICE. -/
def State.sectionErr (s : State) (src : Src) (slot n : Nat) (full : Bool) : Option Err :=
  match s.cfgImage slot with
  | none => some (eState s)
  | some x =>
    if s.fwVersion s.dev.fwRunning < x.u 16 4 then some (err Status.eVersion (s.fwVersion s.dev.fwRunning))
    else s.settingsErr src full (x.section' n)

/-- A section takes effect, and is recorded (R570). -/
def State.runSection (s : State) (src : Src) (slot n obj : Nat) : State :=
  match s.cfgImage slot with
  | none => s
  | some x => ((x.section' n).foldl (fun (a : State) t => a.runSetting src t) s).recordApply slot obj x.read

/-! ### What acts at a sequence boundary -/

/-- A source that stands for a port, for settings applied after their command (R77). -/
def portSrc (port : Nat) : Src := (Src.ofNums port 0).getD .mgmt

/-- A pending CONFIG_APPLY of a Quire takes effect (R77): the section is checked again as it stands now; one that has become wrong has no effect, and the
command ends with that status. -/
def State.configAct (s : State) (q : Nat) : State :=
  match (s.qb q).pendConfig with
  | none => s
  | some k =>
    match s.sectionErr (portSrc (s.qb q).pendPort) k q true with
    | some e => s.failWhole (wait .configApply q 0) e
    | none => ((s.onQb q fun b => { b with pendConfig := none }).runSection (portSrc (s.qb q).pendPort) k q (quireId q)).resolve (wait .configApply q 0) []

/-- A pending route and a pending weave bank come into force (R130, R150). -/
def State.routeAct (s : State) (q : Nat) : State :=
  let s1 := match (s.roq q).pendRoute with
    | some (a, b) => (s.onRo q fun r => { r with slot0 := a, slot1 := b, pendRoute := none }).resolve (wait .roRoute (quireId q) 0) []
    | none => s
  match (s1.roq q).weavePend with
  | some w => (s1.onRo q fun r => { r with weave := w, weaveBank := r.weave, weavePend := none }).resolve (wait .weave (quireId q) 0) []
  | none => s1

/-- The pending fields of an ADC line apply at the first tick at which every Quire that receives it is at a sequence boundary, and
then the DEFERRED OK goes out (R287). -/
def State.adcAct (s : State) : State :=
  (List.range 16).foldl (fun (a : State) n => match (a.adc n).pend with
    | some _ => if (a.receivers n).all fun q => a.pers q != .control || a.seqBoundary q then a.delay (tickAt a.now) (.adcBound n) else a
    | none => a) s

/-- The crossing leaves pinned mode at a sequence boundary after its need has ended (R394). -/
def State.unpin (s : State) (q : Nat) : State :=
  if s.needsPin q then s else s.onClk fun c => { c with pinned := c.pinned.filter fun x => x != q }

/-- What acts at a sequence boundary of a CONTROL Quire that stays in CONTROL. -/
def State.seqActions (s : State) (q : Nat) : State := (((s.routeAct q).configAct q).adcAct).unpin q

/-! ### Personality changes (R27) -/

/-- The transitions of R27. -/
def persAllowed (cur new : Pers) : Bool :=
  match cur with
  | .off | .service => true
  | _ => new == .off || new == .service

/-- A service action of a Quire is in progress (R27): a test of one of its units, a covariance run, or a calibration of a line that it uses. -/
def State.serviceAction (s : State) (q : Nat) : Bool :=
  (s.svc.tests.any fun t => t.unit.inQuire && t.unit.pq == s.pq q) || (s.roq q).covar.isSome ||
    ([(s.roq q).slot0, (s.roq q).slot1].any fun n => decide (n < 16) && (s.adc n).cal.until'.isSome) ||
    (s.synq q).lines.any fun l => (s.dac l.line).cal.until'.isSome

/-- A pending change may take effect at the present instant. -/
def State.persDue (s : State) (q : Nat) : Bool :=
  match s.pers q, (s.qb q).pendPers with
  | _, none => false
  | .control, some _ => s.seqBoundary q
  | .correlate, some _ | .beamform, some _ => !s.inPlan q || (s.atBlock && s.atIntegration q)
  | .off, some x => decide ((s.coreIsl (s.pq q)).use ≤ s.needOf q x)
  | .service, some x => decide ((s.coreIsl (s.pq q)).use ≤ s.needOf q x) && !s.serviceAction q

/-- A member leaves its plans (R265). Its channeliser goes on to the end of the block that ends now, whose last rows are still to come. -/
def State.leavePlans (s : State) (q : Nat) : State :=
  if s.inPlan q then
    ((s.onCorrRun fun r => { r with members := r.members.filter fun m => m != q }).onBeamRun fun r =>
      { r with members := r.members.filter fun m => m != q }).redeal.onChan q fun x => { x with until' := some s.ct.nextB }
  else s

/-- Every Folio and every feedback core of a Quire is IDLE. -/
def State.idleQuire (s : State) (q : Nat) : State :=
  let s1 := (List.range 32).foldl (fun (a : State) f => if (a.folio q f).st = .idle then a else a.onFolio q f fun x => { x with st := .idle, wait := none }) s
  (List.range 4).foldl (fun (a : State) k => if (a.core q k).st = .idle then a else a.onCore q k fun c => { c with st := .idle, wait := none }) s1

/-- What the personality of a Quire runs ends (R27). -/
def State.leavePers (s : State) (q : Nat) : State :=
  match s.pers q with
  | .control => (s.leaveControl q 6).covarLost q
  | .correlate | .beamform => s.leavePlans q
  | _ => s

/-- A Quire starts in a personality with a controlling port; in CONTROL every Folio and core is IDLE, and every condition flag 0 (R27, R51, R176). -/
def State.enterPers (s : State) (q : Nat) (x : Pers) (port : Option Nat) : State :=
  let s1 := s.onQb q fun b => { b with pers := x, pendPers := none, pendSlot := none, ctrl := port }
  if x = .control then (s1.idleQuire q).onFb q fun b => b.writeFlags s1.now (BitVec.allOnes 64) 0
  else if x = .correlate ∨ x = .beamform then s1.onChan q fun c => { c with until' := none } else s1

/-- A Quire of a wildcard PERS_SET has changed its personality; what it had is kept until the command ends. -/
def State.noteUndo (s : State) (w : Wait) (e : Nat × Pers × Option Nat) : State :=
  s.onDev fun d => { d with held := d.held.map fun h => if h.waits.contains w then { h with undo := e :: h.undo } else h }

/-- A wildcard PERS_SET ends without its effect on every Quire: those that have changed get back their personality and their controlling port (R55).
Settings that its section has made, and what the old personality ran, do not come back. DESIGN CHOICE. -/
def State.persBack (s : State) (h : Held) : State :=
  h.undo.foldl (fun (a : State) e => ((a.leavePers e.1).enterPers e.1 e.2.1 e.2.2).govern fun k => k == e.1) s

/-- A pending personality change takes effect (a Quire that enters CONTROL has all its condition flags 0, R176): what the old personality ran ends, the
named section is applied, the new personality runs and its port controls the Quire (R27, R51, R78). The section is checked again for the new
personality; where it has become wrong, neither it nor the change takes effect. A Quire that has lost capacity meanwhile gets E_CAPACITY once where it
cannot carry its load (R28). -/
def State.persChange (s : State) (q : Nat) : State :=
  match (s.qb q).pendPers with
  | none => s
  | some x =>
    let b := s.qb q
    let w := wait .persChange q 0
    let port := match x with | .off => none | .service => b.ctrl | _ => some b.pendPort
    let s3 := ((if b.pers = .control then s.seqActions q else s).leavePers q).enterPers q x port
    match (match b.pendSlot with | some k => s3.sectionErr (portSrc b.pendPort) k q true | none => none) with
    | some e => (match s.heldOn w with | some h => s.persBack h | none => s).failWhole w e
    | none =>
      let s4 := match b.pendSlot with | some k => s3.runSection (portSrc b.pendPort) k q (quireId q) | none => s3
      let s5 := s4.onQb q fun y => { y with capOnce := y.capOnce || (b.pendLost && s4.cannotCarry q x), pendLost := false }
      ((s5.noteUndo w (q, b.pers, b.ctrl)).resolve w []).govern fun k => k == q

/-- PERS_CHANGE_COMPLETE: a change out of SERVICE or OFF is ready, or the boundary of another has come. -/
def execPersChangeComplete (q : Fin 16) (s : State) : Host.Outcome State Fault Refusal :=
  .next (if s.persDue q then s.persChange q else s)

/-- SEQUENCE_BOUNDARY: the 32 Folios of a CONTROL Quire are at a sequence boundary at once (R113). -/
def execSequenceBoundary (q : Fin 16) (s : State) : Host.Outcome State Fault Refusal :=
  if s.pers q == .control && s.seqBoundary q then
    let s1 := s.seqActions q
    .next (if (s1.qb q).pendPers.isSome then s1.persChange q else s1.govern fun k => k == q.val)
  else .next s

/-- BLOCK_BOUNDARY: the next block boundary arrives (R238): at an integration boundary the pending changes of the members act first (R27, R77),
then the plans; a slower point comes now (R398). -/
def execBlockBoundary (s : State) : Host.Outcome State Fault Refusal :=
  if !s.blocksCome then .next s
  else
    let m := s.ct.nextB
    let s1 := s.advanceTo (s.blockLabel m)
    let qs := (List.range 16).filter fun q => s1.inPlan q
    let s2 := (qs.filter fun q => s.integrationEdge q m).foldl (fun (a : State) q => if (a.qb q).pendPers.isSome then a.persChange q else a.configAct q) s1
    .next ((s2.planBoundary).govern fun q => qs.contains q)

/-! ### The opcodes -/

/-- A section applied to a Quire now takes effect at once: it is in SERVICE or OFF, or at its boundary (R77). -/
def State.appliesNow (s : State) (q : Nat) : Bool :=
  match s.pers q with
  | .service | .off => true
  | .control => s.seqBoundary q
  | _ => !s.inPlan q

/-- The test of a slot field of R78. -/
def slotOk (n : Nat) : Bool := decide (n ≤ 63) || n == 0xFFFF

/-- CONFIG_APPLY (R77): the device's section, and that of a Quire at a boundary, or in SERVICE or OFF, takes effect at once. -/
def opConfigApply : OpSpec :=
  { cls := [.device, .quire], len := some 4, keys := fun c => [if c.obj.cls = .device then devKey 0x105 else c.obj.id],
    state := fun c s => stateIf s (decide (c.u 0 2 ≤ 63) && (s.cfgImage (c.u 0 2)).isNone),
    fields := fun _ _ => [fU 0 2 0 63, fR 2 2],
    more := fun c s => s.sectionErr c.pkt.req.src (c.u 0 2) (if c.obj.cls = .device then 16 else c.q) (c.obj.cls == .device || s.appliesNow c.q),
    run := fun c s =>
      if c.obj.cls = .device then (s.runSection c.pkt.req.src (c.u 0 2) 16 deviceId, .accepted [] true none)
      else
        if s.appliesNow c.q then (s.runSection c.pkt.req.src (c.u 0 2) c.q (quireId c.q), .accepted [] true none)
        else (s.onQb c.q fun b => { b with pendConfig := some (c.u 0 2), pendPort := c.port }, .accepted [wait .configApply c.q 0] false none) }

/-- PERS_SET (R27, R78). -/
def opPersSet : OpSpec :=
  { cls := [.quire], wild := true, len := some 4,
    state := fun c s => stateIf s (decide (c.u 0 1 ≤ 4) && !persAllowed (s.pers c.q) (Pers.ofCode (c.u 0 1)) ||
      decide (c.u 2 2 ≤ 63) && (s.cfgImage (c.u 2 2)).isNone),
    fields := fun _ _ => [fU 0 1 0 4, fR 1 1, fP 2 2 slotOk],
    more := fun c s => if c.u 2 2 = 0xFFFF then none else s.sectionErr c.pkt.req.src (c.u 2 2) c.q false,
    run := fun c s =>
      (s.onQb c.q fun b =>
        { b with pendPers := some (Pers.ofCode (c.u 0 1)), pendSlot := if c.u 2 2 = 0xFFFF then none else some (c.u 2 2), pendPort := c.port, pendLost := false },
        .accepted [wait .persChange c.q 0] false none) }

/-- PERS_GET (R78). -/
def opPersGet : OpSpec :=
  readOp [.quire] 0 fun c s =>
    let b := s.qb c.q
    leBytes 4 b.word ++ leBytes 1 (b.ctrl.getD 0xFF) ++ leBytes 1 (match b.pendPers with | some x => x.code | none => 0xFF) ++ zeros 2

/-- QUIRE_RELEASE (R51, R78). -/
def opQuireRelease : OpSpec :=
  { cls := [.quire], wild := true, priv := fun _ => .owner, len := some 0, run := fun c s => (s.onQb c.q fun b => { b with ctrl := none }, .ok []) }

end Sys2Proof.Machine
end

