-- ==== Sys2Proof/Machine/Firmware.lean ====
section
/-! DEFINITION. The firmware hand-over (R545, R546, R552): activation, the pause and the trial. Commands that wait for the end of a pause are in
Receive. -/
namespace Sys2Proof.Machine

/-- FW_ACTIVATE (R545, R552): E_BUSY while a hand-over is in progress. -/
def opFwActivate : OpSpec :=
  { cls := [.image], priv := fun _ => .owner, ep := fun _ => true, token := fun _ _ => true, len := some 4, objOk := fun o => decide (o.index ≤ 1),
    keys := fun _ => [devKey 0x1007], fields := fun _ _ => [fU 0 2 10 3600, fR 2 2],
    state := fun c s => stateIf s (s.newest c.i).isNone,
    more := fun c s => failIf (s.dev.fwRunning == c.i) (err Status.imgSlotActive 0),
    busy := fun _ s => failIf (decide (s.svc.handover ≠ .idle)) (eBusy hintUnknown),
    run := fun c s =>
      (s.onSvc fun v => { v with handover := .staging c.i (c.u 0 2) }, .accepted [wait .fwActivate 0 0] false none) }

/-- FW_CONFIRM (R546, R559): the slot becomes the active one, and counter 0 advances to the version that is confirmed. -/
def opFwConfirm : OpSpec :=
  { cls := [.device], priv := fun _ => .owner, ep := fun _ => true, len := some 0, keys := fun _ => [devKey 0x1007],
    more := fun _ s => failIf s.svc.trial.isNone (err Status.fwNotOnTrial 0),
    run := fun _ s =>
      let n := svnOf (s.fwVersion s.dev.fwRunning)
      (((s.onSvc fun v => { v with trial := none }).onDev fun d => { d with fwActive := d.fwRunning }).onTrust fun x =>
        { x with counters := tput 0 x.counters 0 (max n (tget 0 x.counters 0)) }, .ok []) }

/-- FIRMWARE_STAGED: staging finishes; the new firmware can import the state record, or cannot. -/
def execFirmwareStaged (ok : Bool) (s : State) : Host.Outcome State Fault Refusal :=
  match s.svc.handover with
  | .staging slot confirm =>
    .next (if ok then s.onSvc fun v => { v with handover := .waitPause slot confirm }
      else (s.onSvc fun v => { v with handover := .idle }).failWait (wait .fwActivate 0 0) (err Status.fwStateIncompat 0))
  | _ => .next s

/-- Every Thread exchange in progress is lost (R545). -/
def State.dropExchanges (s : State) : State :=
  (List.range 4).foldl (fun (a : State) p => if (a.port p).exch.isSome then a.exchDrop p else a) s

/-- HANDOVER_PAUSE: at a command boundary command processing pauses. -/
def execHandoverPause (s : State) : Host.Outcome State Fault Refusal :=
  match s.svc.handover with
  | .waitPause slot confirm =>
    .next ((s.noting fun s => s.onSvc fun v => { v with handover := .pause slot confirm s.now (confirm == 0) }).dropExchanges)
  | _ => .next s

/-- The device hands back to the old slot by the same procedure, and logs the fact (R546). No unit of R528 stands for the firmware: UNITKIND is
0. DESIGN CHOICE. -/
def State.handBack (s : State) : State :=
  match s.svc.trial, s.svc.handover with
  | some (old, _), .idle => (s.onSvc fun v => { v with handover := .waitPause old 0 }).logFault { kind := 0, phys := 0 } 1 0 noObject 0
  | _, _ => s

/-- TRIAL_TIMEOUT: CONFIRM_S seconds have passed. -/
def execTrialTimeout (s : State) : Host.Outcome State Fault Refusal :=
  match s.svc.trial with
  | some (_, t) => .next (s.advanceTo t).handBack
  | none => .next s

/-- WATCHDOG_EXPIRY during a trial. -/
def execWatchdogExpiry (s : State) : Host.Outcome State Fault Refusal := .next s.handBack

/-- LOCKSTEP_MISMATCH during a trial. -/
def execLockstepMismatch (s : State) : Host.Outcome State Fault Refusal := .next s.handBack

end Sys2Proof.Machine
end

