-- ==== Sys2Proof/WellFormed.lean ====
section
/-! DEFINITION. Which commands are well formed: a packet keeps the form of R35 and R36, an SMBus block is no longer than R67 allows, and a row
of temperatures names every sensor. -/
namespace Sys2Proof

/-- The request flags are within the map and the parameters within the largest packet (R35, R36). -/
def Req.ok (r : Req) : Bool := decide (r.flags.toNat < 32) && decide (r.params.length ≤ 4064) && r.params.length % 4 == 0

/-- The opcode and the packet of a packet row (R71); no event row has one. -/
def Instr.packet? : Instr → Option (Nat × Req)
  | .devNop r => some (0x0000, r)
  | .devInfo r => some (0x0001, r)
  | .devStatus r => some (0x0002, r)
  | .sessionOpen r => some (0x0003, r)
  | .sessionClose r => some (0x0004, r)
  | .devDeadlineSet r => some (0x0005, r)
  | .devDeadlineGet r => some (0x0006, r)
  | .devRestart r => some (0x0007, r)
  | .devEndpaperEnter r => some (0x0008, r)
  | .devAddrSet r => some (0x0009, r)
  | .cmdAbort r => some (0x000A, r)
  | .portStatsGet r => some (0x000B, r)
  | .imageInfo r => some (0x0100, r)
  | .imageWriteBegin r => some (0x0101, r)
  | .imageWriteData r => some (0x0102, r)
  | .imageCommit r => some (0x0103, r)
  | .imageErase r => some (0x0104, r)
  | .configApply r => some (0x0105, r)
  | .persSet r => some (0x0106, r)
  | .persGet r => some (0x0107, r)
  | .quireRelease r => some (0x0108, r)
  | .synLinesSet r => some (0x0200, r)
  | .synLinesGet r => some (0x0201, r)
  | .ctxSet r => some (0x0202, r)
  | .ctxGet r => some (0x0203, r)
  | .ctxPhaseShift r => some (0x0204, r)
  | .envWrite r => some (0x0205, r)
  | .envRead r => some (0x0206, r)
  | .paramWrite r => some (0x0207, r)
  | .paramRead r => some (0x0208, r)
  | .seqLoad r => some (0x0209, r)
  | .seqRead r => some (0x020A, r)
  | .seqConfig r => some (0x020B, r)
  | .seqRingSet r => some (0x020C, r)
  | .seqArm r => some (0x020D, r)
  | .seqGo r => some (0x020E, r)
  | .seqStop r => some (0x020F, r)
  | .seqStatus r => some (0x0210, r)
  | .folioRegSet r => some (0x0211, r)
  | .roRouteSet r => some (0x0300, r)
  | .roRouteGet r => some (0x0301, r)
  | .rsetSet r => some (0x0302, r)
  | .rsetGet r => some (0x0303, r)
  | .discSet r => some (0x0304, r)
  | .discGet r => some (0x0305, r)
  | .kernelWrite r => some (0x0306, r)
  | .kernelRead r => some (0x0307, r)
  | .roStreamSet r => some (0x0308, r)
  | .roStatus r => some (0x0309, r)
  | .weaveSet r => some (0x030A, r)
  | .weaveGet r => some (0x030B, r)
  | .covarRun r => some (0x030C, r)
  | .covarRead r => some (0x030D, r)
  | .fbLoad r => some (0x0400, r)
  | .fbRead r => some (0x0401, r)
  | .fbMemWrite r => some (0x0402, r)
  | .fbMemRead r => some (0x0403, r)
  | .fbConfig r => some (0x0404, r)
  | .fbRouteSet r => some (0x0405, r)
  | .fbRouteGet r => some (0x0406, r)
  | .fbFlagOwnerSet r => some (0x0407, r)
  | .fbFlagSet r => some (0x0408, r)
  | .fbFlagGet r => some (0x0409, r)
  | .fbStart r => some (0x040A, r)
  | .fbStop r => some (0x040B, r)
  | .fbSwap r => some (0x040C, r)
  | .fbStatus r => some (0x040D, r)
  | .intakeSrcSet r => some (0x0500, r)
  | .intakeSrcGet r => some (0x0501, r)
  | .intakeDelaySet r => some (0x0502, r)
  | .chanSet r => some (0x0503, r)
  | .chanGet r => some (0x0504, r)
  | .chanCoefWrite r => some (0x0505, r)
  | .chanCoefRead r => some (0x0506, r)
  | .gainWrite r => some (0x0507, r)
  | .gainRead r => some (0x0508, r)
  | .ctSet r => some (0x0509, r)
  | .ctGet r => some (0x050A, r)
  | .intakeStatsGet r => some (0x050B, r)
  | .corrPlanSet r => some (0x0600, r)
  | .corrPlanGet r => some (0x0601, r)
  | .corrExportSet r => some (0x0602, r)
  | .corrStart r => some (0x0603, r)
  | .corrStop r => some (0x0604, r)
  | .beamPlanSet r => some (0x0605, r)
  | .beamPlanGet r => some (0x0606, r)
  | .beamExportSet r => some (0x0607, r)
  | .beamWeightCommit r => some (0x0608, r)
  | .beamStart r => some (0x0609, r)
  | .beamStop r => some (0x060A, r)
  | .planStatus r => some (0x060B, r)
  | .dacLineSet r => some (0x0700, r)
  | .dacLineGet r => some (0x0701, r)
  | .rfMuteSet r => some (0x0702, r)
  | .rfUnmute r => some (0x0703, r)
  | .rfMutePolicySet r => some (0x0704, r)
  | .adcLineSet r => some (0x0705, r)
  | .adcLineGet r => some (0x0706, r)
  | .convCalPolicySet r => some (0x0707, r)
  | .convCalRun r => some (0x0708, r)
  | .convStatus r => some (0x0709, r)
  | .laneCfgSet r => some (0x0800, r)
  | .laneStatus r => some (0x0801, r)
  | .laneEqSet r => some (0x0802, r)
  | .laneTest r => some (0x0803, r)
  | .laneSwap r => some (0x0804, r)
  | .portCfgSet r => some (0x0805, r)
  | .portStatus r => some (0x0806, r)
  | .linkTopoSet r => some (0x0807, r)
  | .linkTopoGet r => some (0x0808, r)
  | .peerCmdSend r => some (0x0809, r)
  | .bulkRxSet r => some (0x080A, r)
  | .bulkRxStatus r => some (0x080B, r)
  | .timeGet r => some (0x0900, r)
  | .timeSet r => some (0x0901, r)
  | .timeCfgSet r => some (0x0902, r)
  | .timeCfgGet r => some (0x0903, r)
  | .timeStatus r => some (0x0904, r)
  | .timeStepAuth r => some (0x0905, r)
  | .timeAsymSet r => some (0x0906, r)
  | .timePortStatus r => some (0x0907, r)
  | .timeTxtsRead r => some (0x0908, r)
  | .trigSet r => some (0x0909, r)
  | .trigGet r => some (0x090A, r)
  | .trigInRead r => some (0x090B, r)
  | .launchSet r => some (0x090C, r)
  | .launchCancel r => some (0x090D, r)
  | .launchStatus r => some (0x090E, r)
  | .refCfgSet r => some (0x0A00, r)
  | .refStatus r => some (0x0A01, r)
  | .freqMeasure r => some (0x0A02, r)
  | .islandStatus r => some (0x0A03, r)
  | .dvfsSet r => some (0x0A04, r)
  | .dvfsGet r => some (0x0A05, r)
  | .energyRead r => some (0x0A06, r)
  | .workRead r => some (0x0A07, r)
  | .supplyCfgSet r => some (0x0A08, r)
  | .supplyStatus r => some (0x0A09, r)
  | .capConfig r => some (0x0B00, r)
  | .capConfigGet r => some (0x0B01, r)
  | .capTrigSet r => some (0x0B02, r)
  | .capMaskWrite r => some (0x0B03, r)
  | .capArm r => some (0x0B04, r)
  | .capForce r => some (0x0B05, r)
  | .capStop r => some (0x0B06, r)
  | .capStatus r => some (0x0B07, r)
  | .capHdrRead r => some (0x0B08, r)
  | .tinInputSet r => some (0x0C00, r)
  | .tinInputGet r => some (0x0C01, r)
  | .tinCalRun r => some (0x0C02, r)
  | .tinCalRead r => some (0x0C03, r)
  | .tinMeasSet r => some (0x0C04, r)
  | .tinMeasStart r => some (0x0C05, r)
  | .tinMeasStop r => some (0x0C06, r)
  | .tinStatsRead r => some (0x0C07, r)
  | .tinStampRead r => some (0x0C08, r)
  | .tinStatus r => some (0x0C09, r)
  | .biasSet r => some (0x0D00, r)
  | .biasGet r => some (0x0D01, r)
  | .biasRangeSet r => some (0x0D02, r)
  | .biasGenSet r => some (0x0D03, r)
  | .biasTableWrite r => some (0x0D04, r)
  | .biasSafetySet r => some (0x0D05, r)
  | .biasStatus r => some (0x0D06, r)
  | .biasCalRun r => some (0x0D07, r)
  | .monChSet r => some (0x0E00, r)
  | .monChGet r => some (0x0E01, r)
  | .monSeqWrite r => some (0x0E02, r)
  | .monSeqRun r => some (0x0E03, r)
  | .monRead r => some (0x0E04, r)
  | .monInject r => some (0x0E05, r)
  | .monSyscal r => some (0x0E06, r)
  | .calCfgSet r => some (0x0E07, r)
  | .calStatus r => some (0x0E08, r)
  | .monStatus r => some (0x0E09, r)
  | .evChanSet r => some (0x0F00, r)
  | .evChanGet r => some (0x0F01, r)
  | .evRouteAdd r => some (0x0F02, r)
  | .evRouteDel r => some (0x0F03, r)
  | .evFire r => some (0x0F04, r)
  | .evStatus r => some (0x0F05, r)
  | .evCoincRead r => some (0x0F06, r)
  | .faultLogRead r => some (0x1000, r)
  | .faultPolicySet r => some (0x1001, r)
  | .spareStatus r => some (0x1002, r)
  | .selftestRun r => some (0x1003, r)
  | .unitReadmit r => some (0x1004, r)
  | .unitRetire r => some (0x1005, r)
  | .quireMigrate r => some (0x1006, r)
  | .fwActivate r => some (0x1007, r)
  | .fwConfirm r => some (0x1008, r)
  | .memAlloc r => some (0x1009, r)
  | .memFree r => some (0x100A, r)
  | .memInfo r => some (0x100B, r)
  | .idCertGet r => some (0x1100, r)
  | .trustNonceGet r => some (0x1101, r)
  | .colophonGet r => some (0x1102, r)
  | .cfgLogRead r => some (0x1103, r)
  | .ownerKeySet r => some (0x1104, r)
  | .ownerKeyRevoke r => some (0x1105, r)
  | .ownerKeyGet r => some (0x1106, r)
  | .ownerRelease r => some (0x1107, r)
  | .privSet r => some (0x1108, r)
  | .privGet r => some (0x1109, r)
  | .ctrAdvance r => some (0x110A, r)
  | .ctrGet r => some (0x110B, r)
  | .debugUnlock r => some (0x110C, r)
  | .debugLock r => some (0x110D, r)
  | _ => none

/-- A command is well formed. -/
def Instr.wf (i : Instr) : Bool :=
  match i.packet? with
  | some (_, r) => r.ok
  | none =>
    match i with
    | .blockWrite data _ => decide (data.length ≤ 255)
    | .temperatureShutdown milliC => decide (milliC.length = 26)
    | .hardwareThermalTrip milliC => decide (milliC.length = 26)
    | _ => true

end Sys2Proof
end

