-- ==== Sys2Proof/Machine/Receive.lean ====
section
/-! DEFINITION. The acceptance of a packet (02, R35 to R55): the stream's sequence, chains, the checks of R40, the start of a command, TIMED
commands and deadlines. -/
namespace Sys2Proof.Machine

/-! ### The opcodes (R71) -/

/-- The opcode with a code, if this firmware knows it. -/
def specOf (code : Nat) : Option OpSpec :=
  if code = 0x0105 then some opConfigApply else if code = 0x0106 then some opPersSet else if code = 0x0107 then some opPersGet
  else if code = 0x0108 then some opQuireRelease else if code = 0x1007 then some opFwActivate else if code = 0x1008 then some opFwConfirm
  else specBase code

/-- The FLAGS of R36. -/
def Pkt.timed (p : Pkt) : Bool := p.req.flags.getLsbD 1
def Pkt.fast (p : Pkt) : Bool := p.req.flags.getLsbD 2
def Pkt.signed (p : Pkt) : Bool := p.req.flags.getLsbD 3
def Pkt.chained (p : Pkt) : Bool := p.req.flags.getLsbD 4

/-- The bytes of the parameters that are not the opcode's own: the execution time and the token (R44, R46). -/
def Pkt.extra (p : Pkt) : Nat := (if p.timed then 12 else 0) + (if p.signed then 176 else 0)

/-- The opcode's own parameters. -/
def Pkt.own (p : Pkt) : List Byte :=
  let b := p.req.params.take (p.req.params.length - (if p.signed then 176 else 0))
  if p.timed then b.drop 12 else b

/-- The execution time of a TIMED packet; none where its NS field is out of range (R342). -/
def Pkt.time (p : Pkt) : Option Nat := dtOf (p.req.params.take 12)

/-- The time for which a TIMED packet is queued: RF_MUTE_SET acts no earlier than 16 ns after it has been taken (R281). -/
def Pkt.queueTime (p : Pkt) (s : State) : Nat :=
  let t := p.time.getD 0
  if p.code = 0x702 then max t (s.now + 16 * uNs) else t

/-- The commands of a packet, one for each object that it matches (R7). -/
def Pkt.cmds (p : Pkt) (live : List Nat) (o : Obj) : List Cmd :=
  (o.expand live).map fun o => { pkt := p, obj := o, p := p.own, timed := p.timed, signed := p.signed }

/-! ### Steps 1 to 3 of R40, on bytes from a transport -/

/-- The packet that bytes spell, taken as they are. -/
def pktOf (src : Src) (b : List Byte) : Pkt :=
  { code := u b 2 2, req := { src := src, flags := BitVec.ofNat 8 (u b 1 1), tag := BitVec.ofNat 16 (u b 4 2), object := BitVec.ofNat 32 (u b 8 4),
                              seq := BitVec.ofNat 32 (u b 12 4), params := (b.drop 16).take (b.length - 20) } }

/-- What steps 1 to 3 find. -/
def intakeErr (b : List Byte) : Option Nat :=
  if b.length < 20 ∨ leNat (b.drop (b.length - 4)) ≠ (crc32c (b.take (b.length - 4))).toNat then some Status.eCrc
  else if u b 0 1 ≠ 1 ∨ 32 ≤ u b 1 1 then some Status.eVersion
  else if u b 6 2 % 4 ≠ 0 ∨ 4064 < u b 6 2 ∨ b.length ≠ 20 + u b 6 2 then some Status.eLength
  else none

/-! ### The checks of R40 -/

/-- Where a packet stands when it is checked: in a chain, not the first of it, or its 16th with CHAIN = 1; and whether it is now to be executed
after it has waited for its time. -/
structure Place where
  inChain : Bool
  later : Bool
  full : Bool
  waited : Bool
  deriving DecidableEq, Repr

/-- Step 5: FAST matches, and CHAIN and TIMED are allowed (R44, R45, R47). -/
def Pkt.flagsOk (p : Pkt) (sp : OpSpec) (at' : Place) : Bool :=
  p.fast == sp.fast && !(sp.fast && (at'.inChain || p.signed)) && !(p.timed && (!sp.timed || at'.later)) && !at'.full

/-- Step 8: the port's privilege, and its control of the Quires whose objects the command changes (R50, R51). -/
def OpSpec.portErr (sp : OpSpec) (c : Cmd) (s : State) : Option Err :=
  let foreign := fun (q : Nat) => match (s.qb q).ctrl with
    | some k => if k = c.port ∨ s.isOwner c.port then none else some (err Status.ePrivilege k)
    | none => none
  firstErr [failIf (decide ((s.privOf c.port).code < (sp.priv c).code)) (err Status.ePrivilege 0xFF),
    if sp.changes then firstErr ((sp.ctl c s).map foreign) else none, sp.may c s]

/-- Step 9 (R46, R561, R563). The token of a packet is judged once for all its objects. -/
def OpSpec.tokenErr (sp : OpSpec) (c : Cmd) (s : State) : State × Option Err :=
  match (if sp.token c s then c.ownerErr s else none) with
  | some e => (s, some e)
  | none => if c.signed then (if sp.token c s then c.tokenCheck s else c.tokenIgnored s) else (s, failIf (sp.token c s) (err Status.eAuth 1))

/-- A Folio of the command's object has no physical Folio (R527). -/
def Cmd.lostFolio (c : Cmd) (s : State) : Bool := c.obj.usesFolio && (s.qb c.q).lostFolios.contains c.f

/-- The command's Quire cannot serve: it is unbound or stopped, or its next command gets E_CAPACITY (R21, R532). -/
def Cmd.noQuire (c : Cmd) (s : State) : Bool :=
  c.obj.usesQuire && ((s.qb c.q).pq == 31 || (s.qb c.q).stopped || (s.qb c.q).capOnce)

/-- Step 10 (R29): the device state, the object's state, retired units and capacity. -/
def OpSpec.stateErr (sp : OpSpec) (c : Cmd) (s : State) : Option Err :=
  firstErr [stateIf s (!s.runs && !(sp.ep c && (c.port == 0 || c.port == 5))), sp.state c s, failIf (c.lostFolio s) (err Status.eDegraded 0),
    failIf (c.noQuire s) eCapacity, sp.cap c s]

/-- Step 12 (R44). -/
def Pkt.timeErr (p : Pkt) (s : State) : Option Err :=
  match p.time with
  | none => some (err Status.eRange 0)
  | some t => if s.now + 1000 * uS < t then some (err Status.eRange 0) else failIf (decide (t ≤ s.now)) (eLate s.now t)

/-- The TIMED FAST commands that wait in the queue of a logical Quire, or (none) in that of the host interface; and the non-FAST ones of a port
(R44). -/
def State.fastQueue (s : State) (q : Option Nat) : List Timed :=
  s.dev.timed.filter fun t => t.fast && t.pkts.any fun p => match Obj.ofId p.req.object.toNat with
    | some o => (o.expand s.live).any fun x => x.quire? == q
    | none => false
def State.portQueue (s : State) (port : Nat) : List Timed :=
  s.dev.timed.filter fun t => !t.fast && t.pkts.any fun p => p.req.src.port == port

/-- E_BUSY where a TIMED queue is full: the hint is the time until its earliest entry executes. -/
def State.queueErr (s : State) (l : List Timed) (limit : Nat) : Option Err :=
  if l.length < limit then none else some (eBusy (s.usUntil (l.foldl (fun m t => min m t.time) ((l.head?.map (·.time)).getD 0))))

/-- Step 13 for a TIMED command that has to wait: a place in its queue. -/
def Cmd.roomErr (c : Cmd) (s : State) (fast : Bool) : Option Err :=
  if fast then s.queueErr (s.fastQueue c.obj.quire?) 16 else s.queueErr (s.portQueue c.port) 64

/-- The length that PLEN ought to have: with the time and the token that the flags announce; 0 for an opcode of variable length (R48). -/
def Pkt.lengthDue (p : Pkt) : Nat :=
  match specOf p.code with
  | some sp => (match sp.len with | some k => k + p.extra | none => 0)
  | none => 0

/-- The hint of R53 for a resource that a waiting command holds. -/
def State.heldErr (s : State) (keys : List Nat) : Option Err :=
  match s.dev.held.find? fun h => h.keys.any keys.contains with
  | some h => some (eBusy (match h.at? with | some t => s.usUntil t | none => hintUnknown))
  | none => none

/-- The resources that a packet would change. -/
def Pkt.keys (p : Pkt) (live : List Nat) : List Nat :=
  match specOf p.code, Obj.ofId p.req.object.toNat with
  | some sp, some o => if sp.changes then (p.cmds live o).flatMap sp.keys else []
  | _, _ => []

/-- When a TIMED entry is due: a FAST one at the first coarse tick at or after its time (R44). -/
def Timed.due (t : Timed) : Nat := if t.fast then tickAt t.time else t.time

/-- A TIMED command that waits for its time holds what it will change against commands that are not TIMED (R53): the hint is the time until then.
Other TIMED commands queue beside it (R44, DEDUCED). -/
def State.timedErr (s : State) (keys : List Nat) : Option Err :=
  match s.dev.timed.find? fun t => t.pkts.any fun p => (p.keys s.live).any keys.contains with
  | some t => some (eBusy (s.usUntil t.due))
  | none => none

/-- Another source has changed a resource in the present dispatch cycle (R32, R52). -/
def State.claimed (s : State) (keys : List Nat) (src : Src) : Bool :=
  s.sameCycle s.dev.claimsAt s.now && s.dev.claims.any fun e => keys.contains e.1 && e.2 != src.key

/-- The Quire is BUSY (R21): the hint is the time to the integration boundary at which the binding changes, where that is known. -/
def OpSpec.quireBusy (sp : OpSpec) (c : Cmd) (s : State) : Option Err :=
  failIf (!sp.fast && c.obj.usesQuire && (s.qb c.q).busy) (eBusy (match s.boundaryAt c.q with | some t => s.usUntil t | none => hintUnknown))

/-- One step of R40 over all matched objects: the first that fails it (R7). -/
def stepOver (wild : Bool) (cs : List Cmd) (f : Cmd → Option Err) : Option Err :=
  cs.findSome? fun c => (f c).map fun e => e.naming wild c.obj

/-- Merges what a command answers for several objects (R7). -/
def Res.merge : Res → Res → Res
  | .fail e, _ => .fail e
  | _, .fail e => .fail e
  | .ok a, .ok b => .ok (a ++ b)
  | .ok _, r => r
  | r, .ok _ => r
  | .accepted w p a, .accepted v q b => .accepted (w ++ v) (p || q) (if a = b then a else none)
  | .accepted w p a, .later v q b => .accepted (w ++ v) (p || q) (if a = b then a else none)
  | .later w p a, .accepted v q b => .accepted (w ++ v) (p || q) (if a = b then a else none)
  | .later w p a, .later v q b => .later (w ++ v) (p || q) (if a = b then a else none)

/-- What the command of one object answers: a failure of a wildcard names it (R49). -/
def Cmd.answer (c : Cmd) : Res → Res
  | .fail e => .fail (e.naming c.pkt.wild c.obj)
  | r => r

/-- The effect of a command on all its objects, in order. -/
def OpSpec.runAll (sp : OpSpec) (s : State) : List Cmd → State × Res
  | [] => (s, .ok [])
  | [c] => let a := sp.run c s; (a.1, c.answer a.2)
  | c :: cs =>
    let a := sp.run c s
    let b := sp.runAll a.1 cs
    (b.1, (c.answer a.2).merge b.2)

/-- The registrations of a command on all its objects, each judged on the tables that those before it leave (R7, R499). -/
def OpSpec.regOver (sp : OpSpec) (wild : Bool) (s : State) : List Cmd → Option Err
  | [] => none
  | c :: cs =>
    match sp.reg c s with
    | some e => some (e.naming wild c.obj)
    | none => if cs.isEmpty then none else sp.regOver wild (sp.run c s).1 cs

/-- A packet that has passed the checks. -/
structure Checked where
  sp : OpSpec
  cmds : List Cmd

/-- E_CAPACITY has been the answer to the next command of the Quires. -/
def State.capSpent (s : State) (cs : List Cmd) : State :=
  (cs.flatMap fun c => c.obj.quire?.toList).foldl (fun (a : State) q => if (a.qb q).capOnce then a.onQb q fun b => { b with capOnce := false } else a) s

/-- A failure that does not depend on the object names the first one (R7). -/
def nameFirst (wild : Bool) (cs : List Cmd) (e : Err) : Err := match cs with | c :: _ => e.naming wild c.obj | [] => e

/-- Steps 10 to 12 of R40 after the token. E_CAPACITY for the next command alone clears with that command. -/
def State.checkMid (s : State) (p : Pkt) (at' : Place) (sp : OpSpec) (wild : Bool) (cs : List Cmd) : State × Option Err :=
  match stepOver wild cs fun c => sp.stateErr c s with
  | some e => (if e.status = Status.eCapacity then s.capSpent cs else s, some e)
  | none =>
    let waits := p.timed && !at'.waited
    (s, firstErr [
      if waits then failIf p.time.isNone (nameFirst wild cs (err Status.eRange 0)) else none,
      stepOver wild cs fun c => c.range (sp.fields c s),
      stepOver wild cs fun c => sp.more c s,
      if at'.later then none else sp.regOver wild s cs,
      if waits then (p.timeErr s).map (nameFirst wild cs) else none])

/-- Steps 5 to 9 of R40. A packet that has waited for its time is checked again, but for its port, its token and its
time (DEDUCED). -/
def State.checkFirst (s : State) (p : Pkt) (at' : Place) : State × Except Err (OpSpec × Bool × List Cmd) :=
  match specOf p.code with
  | none => (s, .error (err Status.eOpcode 0))
  | some sp =>
    let n := p.req.params.length
    if !p.flagsOk sp at' || (p.quiet && !sp.bcast) then (s, .error (err Status.eOpcode 0))
    else if n < p.extra ∨ !sp.fits (n - p.extra) then (s, .error (err Status.eLength p.lengthDue))
    else match Obj.ofId p.req.object.toNat with
      | none => (s, .error (err Status.eObject 0))
      | some o =>
        let cs := p.cmds s.live o
        match (if sp.takes o then cs else []) with
        | [] => (s, .error (err Status.eObject 0))
        | c :: _ =>
          match firstErr [stepOver o.wild cs fun c => failIf (!sp.objOk c.obj) (err Status.eObject 0), if at'.waited then none else stepOver o.wild cs fun c => sp.portErr c s] with
          | some e => (s, .error e)
          | none =>
            match (if at'.waited then (s, none) else sp.tokenErr c s) with
            | (s1, some e) => (s1, .error (e.naming o.wild c.obj))
            | (s1, none) => (s1, .ok (sp, o.wild, cs))

/-- Steps 5 to 12 of R40. -/
def State.checkTo12 (s : State) (p : Pkt) (at' : Place) : State × Except Err (OpSpec × Bool × List Cmd) :=
  match s.checkFirst p at' with
  | (s1, .error e) => (s1, .error e)
  | (s1, .ok (sp, wild, cs)) =>
    match s1.checkMid p at' sp wild cs with
    | (s2, some e) => (s2, .error e)
    | (s2, none) => (s2, .ok (sp, wild, cs))

/-- The priority of a source (R52); that of the streams of HOST is their order. -/
def srcRank : Src → Nat
  | .mgmt => 0
  | .ring n => 1 + n.val
  | .mailbox => 9
  | .array p => 10 + p.val

/-- The transport of a source reaches the device: nothing does without VAUX, HOST not while the host interface is in reset, and the
array ports not in ENDPAPER (R29, R30, R402, R538). -/
def State.reaches (s : State) (src : Src) : Bool :=
  match src with
  | .mgmt => s.dev.st != .off
  | .ring _ | .mailbox => s.dev.st != .off && s.hifUp
  | .array _ => s.dev.st != .off && s.dev.st != .endpaper

/-- The packet that bytes spell, if they pass steps 1 to 3 of R40; what lies beyond its PLEN is not part of it. -/
def packetIn (src : Src) (b : List Byte) : Option Pkt :=
  let b := b.take (20 + u b 6 2)
  if (intakeErr b).isSome || bitOf (u b 1 1) 7 then none else some (pktOf src b)

/-- The packets that a row brings over a transport, if the row is one of the ports: no time passes in these. `req` is the mailbox's request buffer as the
rows before it leave it. Of an SMBus request that is assembled from several blocks only the last block counts, on what has been assembled already. -/
def State.rowPackets (s : State) (req : List (Nat × Byte)) : Instr → Option (List (Nat × Byte) × List Pkt)
  | .sqTail n _ entries => some (req, if (s.ring n).en then entries.filterMap fun e => e.bind (packetIn (.ring n)) else [])
  | .post => some (req, if s.dev.mbox.busy || s.dev.mbox.ready then [] else (packetIn .mailbox (tgets 0 req 0 4096)).toList)
  | .regWrite off data => some (if 0x8000 ≤ off ∧ off < 0x9000 then tputs 0 req (off - 0x8000) (data.take (0x9000 - off)) else req, [])
  | .blockWrite data pecOk =>
    let c := u data 0 1
    let b := s.dev.smbus
    let whole := pecOk && bitOf c 6 && (if bitOf c 7 then c % 64 == 0 && decide (b.replies.length < 4) else b.assembling && c % 64 == b.next)
    some (req, if whole then (packetIn .mgmt ((if bitOf c 7 then [] else b.partialReq) ++ data.drop 1)).toList else [])
  | .cmdFrameReceive p whole b =>
    let h := hdrOf b
    let mine := (s.frameDrop p whole b).isNone && s.hears p && h.cls == 3 && h.dest == s.dev.addr
    some (req, if mine then (packetIn (.array p) ((b.drop 16).take (b.length - 20))).toList else [])
  | .cqHead .. | .ringCfg .. | .readyClear | .winCtl .. | .bar2Access .. | .blockRead | .readByte | .alertResponse | .eventFrameReceive .. => some (req, [])
  | i => i.packet?.map fun (e : Nat × Req) => (req, [{ code := e.1, req := e.2 }])

/-- The packets that the rows of the ports at the front of the queue bring; time passes only in other rows. -/
def State.arriving (s : State) (req : List (Nat × Byte)) : List Instr → List Pkt
  | [] => []
  | i :: is => match s.rowPackets req i with
    | none => []
    | some (req', ps) => ps ++ s.arriving req' is

/-- Those that come with the sequence number that their stream will expect; `seen` are the streams of the packets before. -/
def State.inTurn (s : State) (seen : List Nat) : List Pkt → List Pkt
  | [] => []
  | p :: ps =>
    if p.req.seq == (s.stream p.req.src).expect + BitVec.ofNat 32 (seen.count p.req.src.key) then p :: s.inTurn (p.req.src.key :: seen) ps
    else s.inTurn seen ps

/-- The packets that arrive in the same dispatch cycle after this one, from sources of higher priority, over whichever transport, and are neither
FAST nor TIMED nor in a chain (R32, R52). -/
def State.rivals (s : State) (src : Src) : List Pkt :=
  (s.inTurn [] (s.arriving s.dev.mbox.request s.pending)).filter fun p =>
    decide (srcRank p.req.src < srcRank src) && !p.fast && !p.timed && !p.chained && s.reaches p.req.src

/-- A packet of a source of higher priority changes one of the resources in the same cycle (R52); the hint is that of R53 for the command that
wins. -/
def State.rivalErr (s : State) (keys : List Nat) (src : Src) : Option Err :=
  (s.rivals src).findSome? fun p =>
    if !(p.keys s.live).any keys.contains then none
    else match (s.checkTo12 p { inChain := false, later := false, full := false, waited := false }).2 with
      | .error _ => none
      | .ok (sp, _, cs) => some (eBusy (match (sp.runAll s cs).2 with
        | .accepted _ _ (some t) | .later _ _ (some t) => s.usUntil t
        | .accepted .. | .later .. => hintUnknown
        | _ => 1))

/-- Step 13: the Quire is not BUSY (R21), and what the command changes is free (R52, R53). -/
def OpSpec.busyErr (sp : OpSpec) (c : Cmd) (s : State) : Option Err :=
  firstErr [sp.quireBusy c s, if sp.changes then s.heldErr (sp.keys c) else none,
    if sp.changes && !c.timed then s.timedErr (sp.keys c) else none,
    failIf (sp.changes && !sp.fast && s.claimed (sp.keys c) c.pkt.req.src) (eBusy 1),
    if sp.changes && !sp.fast then s.rivalErr (sp.keys c) c.pkt.req.src else none, sp.busy c s]

/-- Step 13 for a TIMED command that has to wait: a place in its queue, and what it changes is free now (R21, R44, R53). -/
def OpSpec.waitErr (sp : OpSpec) (c : Cmd) (s : State) : Option Err :=
  firstErr [c.roomErr s sp.fast, sp.quireBusy c s, if sp.changes then s.heldErr (sp.keys c) else none, sp.busy c s]

/-- Step 13 over all objects. -/
def State.checkBusy (s : State) (p : Pkt) (at' : Place) (sp : OpSpec) (wild : Bool) (cs : List Cmd) : Option Err :=
  let waits := p.timed && !at'.waited
  let mail := p.req.src == .mailbox && decide (8 ≤ s.dev.mbox.places) && match (sp.runAll s cs).2 with | .accepted .. => true | _ => false
  firstErr [if waits then stepOver wild cs fun c => sp.waitErr c s else stepOver wild cs fun c => sp.busyErr c s,
    failIf (!waits && mail) (nameFirst wild cs (eBusy hintUnknown))]

/-- Steps 5 to 13 of R40. -/
def State.check (s : State) (p : Pkt) (at' : Place) : State × Except Err Checked :=
  match s.checkTo12 p at' with
  | (s1, .error e) => (s1, .error e)
  | (s1, .ok (sp, wild, cs)) =>
    match s1.checkBusy p at' sp wild cs with
    | some e => (s1, .error e)
    | none => (s1, .ok { sp := sp, cmds := cs })

/-! ### Starting a command -/

/-- The resources that a command changes. -/
def Checked.keys (k : Checked) : List Nat := if k.sp.changes then k.cmds.flatMap k.sp.keys else []

/-- A non-FAST command claims what it changes for the rest of the cycle (R52). -/
def State.claim (s : State) (k : Checked) (src : Src) : State :=
  if k.sp.fast || k.keys.isEmpty then s
  else s.onDev fun d =>
    { d with claimsAt := s.now, claims := (k.keys.map fun x => (x, src.key)) ++ if s.sameCycle d.claimsAt s.now then d.claims else [] }

/-- A command that has not finished yet is held. -/
def State.hold (s : State) (p : Pkt) (accepted : Bool) (keys : List Nat) (waits : List Wait) (pnr : Bool) (at? : Option Nat) : State :=
  (s.onDev fun d => { d with held := d.held ++ [{ pkt := p, accepted := accepted, keys := keys, waits := waits, pnr := pnr, since := s.now, at? := at?, undo := [] }] }).syncMail

/-- What a command's start answers (R39, R61, R63). -/
def State.respond (s : State) (p : Pkt) (keys : List Nat) : Res → State
  | .ok data => s.reply p Status.ok false data
  | .fail e => s.replyErr p false e
  | .later waits pnr at? => s.hold p false keys waits pnr at?
  | .accepted waits pnr at? =>
    let s1 := (s.reserve p.req.src true).reply p Status.accepted false []
    if waits.isEmpty then s1.reply p Status.ok true [] else s1.hold p true keys waits pnr at?

/-- Starts a command that has passed the checks. -/
def State.start (s : State) (p : Pkt) (k : Checked) : State :=
  if s.dev.st == .endpaper && !p.isEp then s.replyErr p false (s.naming p (eState s))
  else
    let s0 := s.claim k p.req.src
    if k.sp.first then (k.sp.runAll (s0.reply p Status.ok false []) k.cmds).1
    else
      let r := k.sp.runAll s0 k.cmds
      r.1.respond p k.keys r.2

/-! ### Chains and TIMED commands -/

/-- The place of the i-th of `n` packets. -/
def placeOf (n i : Nat) (p : Pkt) (waited : Bool) : Place :=
  { inChain := decide (2 ≤ n) || p.chained, later := i != 0, full := i == 15 && p.chained, waited := waited }

/-- Checks the packets of a chain, or one alone, from number `i` of `n` on, on one state; a failure comes with the number of its packet. -/
def State.checkAll (s : State) (n : Nat) (waited : Bool) : Nat → List Pkt → State × Except (Nat × Err) (List (Pkt × Checked))
  | _, [] => (s, .ok [])
  | i, p :: ps =>
    match s.check p (placeOf n i p waited) with
    | (s1, .error e) => (s1, .error (i, e))
    | (s1, .ok k) =>
      match s1.checkAll n waited (i + 1) ps with
      | (s2, .error e) => (s2, .error e)
      | (s2, .ok ks) => (s2, .ok ((p, k) :: ks))

/-- A chain goes beyond a capacity although no packet of it does alone (R15, R16), or makes registrations that its earlier packets do not leave room or the right
for (R47, R497, R500, R501, R511): each is held against the state that those before it would leave. -/
def State.chainCap (s : State) : Nat → List (Pkt × Checked) → Option (Nat × Err)
  | _, [] => none
  | i, (p, k) :: ks =>
    match firstErr [stepOver p.wild k.cmds fun c => k.sp.cap c s, k.sp.regOver p.wild s k.cmds] with
    | some e => some (i, e)
    | none => if ks.isEmpty then none else (k.sp.runAll s k.cmds).1.chainCap (i + 1) ks

/-- The check of one packet, or of a whole chain (R40, R47). -/
def State.checkChain (s : State) (waited : Bool) (ps : List Pkt) : State × Except (Nat × Err) (List (Pkt × Checked)) :=
  match s.checkAll ps.length waited 0 ps with
  | (s1, .error e) => (s1, .error e)
  | (s1, .ok ks) =>
    match (if 2 ≤ ps.length then s1.chainCap 0 ks else none) with
    | some e => (s1, .error e)
    | none => (s1, .ok ks)

/-- A packet of a chain has failed: it gets its own status, every other one CHAIN_ABORTED (R47). -/
def State.failAll (s : State) (i : Nat) (e : Err) : Nat → List Pkt → State
  | _, [] => s
  | j, p :: ps => (s.replyErr p false (if j = i then e else s.naming p (err Status.chainAborted 0))).failAll i e (j + 1) ps

/-- The source of a TIMED entry. -/
def Timed.rank (t : Timed) : Nat := match t.pkts with | p :: _ => srcRank p.req.src | [] => 0

/-- Puts a TIMED entry into the list: earlier ones first, then those of higher priority, then the older (R44, R52). -/
def insTimed (t : Timed) : List Timed → List Timed
  | [] => [t]
  | x :: l => if t.due < x.due ∨ (t.due = x.due ∧ t.rank < x.rank) then t :: x :: l else x :: insTimed t l

/-- A complete chain, or one packet alone: nothing executes unless every check passes. -/
def State.process (s : State) (ps : List Pkt) : State :=
  match s.checkChain false ps with
  | (s1, .error (i, e)) => s1.failAll i e 0 ps
  | (s1, .ok ks) =>
    match ps with
    | p :: _ =>
      if p.timed then s1.onDev fun d => { d with timed := insTimed { pkts := ps, time := p.queueTime s, fast := p.fast } d.timed }
      else ks.foldl (fun (a : State) k => a.start k.1 k.2) s1
    | [] => s1

/-- TIMED_EXECUTE: the earliest TIMED entry starts at its time (R44). -/
def execTimedExecute (s : State) : Host.Outcome State Fault Refusal :=
  match s.dev.timed with
  | [] => .next s
  | t :: rest =>
    let s1 := (s.onDev fun d => { d with timed := rest }).advanceTo t.due
    .next (match s1.checkChain true t.pkts with
      | (s2, .error (i, e)) => s2.failAll i e 0 t.pkts
      | (s2, .ok ks) => (ks.foldl (fun (a : State) k => a.start k.1 k.2) s2).raisePoints)

/-! ### Sequence streams (R41, R42) -/

/-- A packet has not been answered for good. -/
def State.inFlight (s : State) (p : Pkt) : Bool :=
  (s.dev.held.any fun h => h.pkt = p) || (s.dev.timed.any fun t => t.pkts.contains p) || (s.stream p.req.src).chain.contains p ||
    s.dev.paused.contains (p, true)

/-- A duplicate: the stored reply of a finished command is sent again; one that still runs is answered once, later. -/
def State.duplicate (s : State) (p : Pkt) : State :=
  match (if s.inFlight p then none else (s.stream p.req.src).stored) with
  | some b => s.deliver p.req.src false b
  | none => s.unreserve p.req.src false

/-- A packet is taken: it consumes its sequence number. A SESSION_OPEN ends a partly received chain first (R72). -/
def State.takeSeq (s : State) (p : Pkt) : State :=
  let src := p.req.src
  let s1 := s.onStream src fun t => { t with expect := p.req.seq + 1, last := some p.crc, stored := none, taken := inc32 t.taken }
  if p.code = 0x0003 then
    ((s1.stream src).chain.foldl (fun (a : State) x => a.replyErr x false (a.naming x (err Status.chainAborted 0))) s1).onStream src fun t => { t with chain := [] }
  else s1

/-- A packet that has been taken joins its stream's chain, ends it, or stands alone (R47). -/
def State.joinChain (s : State) (p : Pkt) : State :=
  let src := p.req.src
  let old := (s.stream src).chain
  if p.chained && decide (old.length < 15) then
    s.onStream src fun t => { t with chain := old ++ [p], chainAt := if old.isEmpty then s.now else t.chainAt }
  else (s.onStream src fun t => { t with chain := [] }).process (old ++ [p])

/-- Step 4 of R40 (R41), and what follows it: `go` is what becomes of a packet whose sequence number has been taken. -/
def State.sequence (s : State) (p : Pkt) (go : State → State) : State :=
  let t := s.stream p.req.src
  if p.req.seq = t.expect then go (s.takeSeq p)
  else if p.req.seq + 1 = t.expect ∧ t.last = some p.crc then s.duplicate p
  else if p.code = 0x0003 then go (s.takeSeq p)
  else s.bounce p Status.eSequence (leBytes 4 t.expect.toNat)

/-- A packet is handled from step 4 on. -/
def State.accept (s : State) (p : Pkt) : State :=
  if p.quiet then (s.process [p]).raisePoints else s.sequence p fun a => (a.joinChain p).raisePoints

/-- Command processing has not begun (R403), or is paused for a hand-over, in which the packets that hardware executes go on (R45, R545). -/
def State.pausedFor (s : State) (p : Pkt) : Bool :=
  !s.dev.fwUp || match s.svc.handover with
    | .pause .. => !(p.fast && match p.req.src with | .ring _ | .array _ => true | _ => false)
    | _ => false

/-- The host interface takes the sequence numbers of the packets of rings and array ports in a hand-over pause, so that a FAST command behind one
that has to wait runs (R43, R45). DEDUCED. -/
def State.takesNow (s : State) (p : Pkt) : Bool :=
  s.dev.fwUp && !p.quiet && match p.req.src with | .ring _ | .array _ => true | _ => false

/-- A packet that has passed steps 1 to 3 of R40 and holds a place for its reply. -/
def State.takeUp (s0 : State) (p : Pkt) : State :=
  let s := s0.stopDue
  if !s.pausedFor p then s.accept p
  else if s.takesNow p then s.sequence p fun a => a.onDev fun d => { d with paused := d.paused ++ [(p, true)] }
  else s.onDev fun d => { d with paused := d.paused ++ [(p, false)] }

/-- A packet with the opcode `code` reaches the device and has passed steps 1 to 3 of R40. -/
def State.receive (s : State) (code : Nat) (r : Req) : State :=
  if s.reaches r.src then (s.reserve r.src false).takeUp { code := code, req := r } else s

/-- The meaning of every packet row. -/
def receive (code : Nat) (r : Req) (s : State) : Host.Outcome State Fault Refusal := .next (s.receive code r)

/-! ### Packets as bytes from a transport -/

/-- A packet that arrives whole, as bytes; E_VERSION tells the highest version supported, E_LENGTH the PLEN expected (R48). -/
def State.intakeBytes (s : State) (src : Src) (quiet : Bool) (b : List Byte) : State :=
  let p := { pktOf src b with quiet := quiet }
  match intakeErr b with
  | some st => s.bounce p st (leBytes 4 (if st = Status.eVersion then 1 else if st = Status.eLength then p.lengthDue else 0))
  | none => s.takeUp p

/-- A packet at the start of a buffer: its PLEN tells where it ends, and E_LENGTH answers one that overruns the buffer (R60). -/
def State.intakeBuffer (s : State) (src : Src) (b : List Byte) : State :=
  if b.length < 20 + u b 6 2 then s.bounce (pktOf src b) Status.eLength (leBytes 4 (pktOf src b).lengthDue) else s.intakeBytes src false (b.take (20 + u b 6 2))

/-! ### Deadlines (R47, R54, R55) -/

/-- The command of a stream that is still unanswered and has a TAG and a SEQ. -/
def State.heldBy (s : State) (src : Src) (tag : BitVec 16) (seq : BitVec 32) (accepted : Bool) : Option Held :=
  s.dev.held.find? fun h => h.pkt.req.src == src && h.pkt.req.tag == tag && h.pkt.req.seq == seq && h.accepted == accepted

/-- The objects on which a command that times out has taken effect (R55): those of a wildcard that wait no longer, or the object of a command
that is past its point of no return. The list is that of their IDs. DESIGN CHOICE. -/
def State.tookEffect (s : State) (h : Held) : List Nat :=
  let ids := match Obj.ofId h.pkt.req.object.toNat with | some o => (o.expand s.live).map Obj.id | none => []
  if h.pkt.code / 256 ≤ 1 then []
  else if h.pkt.wild then ids.filter fun i => !(h.waits.any fun w => w.object == i)
  else if h.pnr then ids else []

/-- A command ends with E_TIMEOUT `ms` after its deadline began, and is rolled back; the result lists what took effect (R55). -/
def State.expire (s : State) (h : Held) (ms : Nat) : State :=
  let s1 := (s.advanceTo (h.since + ms * uMs)).persBack h
  s1.withdraw h { status := Status.eTimeout, word := ms, more := (s1.tookEffect h).flatMap (leBytes 4) }

/-- DEADLINE_EXPIRY: a command has no first reply by its deadline. The deadline is the one in force when it expires: DEV_DEADLINE_SET acts on the
commands that run already. DESIGN CHOICE. -/
def execDeadlineExpiry (src : Src) (tag : BitVec 16) (seq : BitVec 32) (s : State) : Host.Outcome State Fault Refusal :=
  match s.heldBy src tag seq false with
  | some h => .next (s.expire h (s.deadlines (h.pkt.code / 256)).1).raisePoints
  | none => .next s

/-- DEFERRAL_DEADLINE_EXPIRY: an ACCEPTED command has no DEFERRED reply by its deferral deadline. -/
def execDeferralDeadlineExpiry (src : Src) (tag : BitVec 16) (seq : BitVec 32) (s : State) : Host.Outcome State Fault Refusal :=
  match s.heldBy src tag seq true with
  | some h => .next (s.expire h (s.deadlines (h.pkt.code / 256)).2).raisePoints
  | none => .next s

/-- CHAIN_TIMEOUT: the last packet of a chain has not arrived 1 ms after the first. -/
def execChainTimeout (src : Src) (s : State) : Host.Outcome State Fault Refusal :=
  let t := s.stream src
  if t.chain.isEmpty then .next s
  else
    let s1 := (s.advanceTo (t.chainAt + uMs)).onStream src fun t => { t with chain := [] }
    .next (t.chain.foldl (fun (a : State) p => a.replyErr p false (a.naming p (err Status.eTimeout 1))) s1)

/-! ### The end of a pause (R545) -/

/-- The packets that have waited are handled, in their order. -/
def State.resume (s : State) : State :=
  let ps := s.dev.paused
  (ps.foldl (fun (a : State) p => if p.2 then (a.joinChain p.1).raisePoints else a.accept p.1) (s.dropExchanges.onDev fun d => { d with paused := [] })).syncMail

end Sys2Proof.Machine
end

