-- ==== Sys2Proof/Machine/Pcie.lean ====
section
/-! DEFINITION. The PCIe transport (02, R56 to R66): the rings, the mailbox, the BAR2 window, the DMA channels and the registers of BAR0. What host
memory holds where the device reads it comes as an operand. -/
namespace Sys2Proof.Machine

/-! ### Rings (R58 to R61) -/

/-- Completion entries that hold a reply or are reserved for one. One entry stays free, so that a full ring differs from an empty one (DEDUCED). -/
def Ring.used (r : Ring) : Nat := (r.cqTail + r.depth - r.hostHead) % r.depth + r.reserved

/-- One more completion entry can be reserved. -/
def Ring.room (r : Ring) : Bool := decide (r.used + 1 < r.depth)

/-- The device fetches submission entries while it can reserve completion entries for them (R61). In a hand-over pause the host interface goes on
fetching for the sake of the FAST commands, which it executes itself; what firmware has to execute waits (R45, R545). DEDUCED. `host` holds what host memory has at the entries from SQ_HEAD on; an entry that cannot be read is skipped and counted. -/
def State.fetchRing (s : State) (n : Fin 8) : List (Option (List Byte)) → State
  | [] => s
  | e :: es =>
    let r := s.ring n
    if !r.en || r.sqHead == r.hostTail || !s.reaches (.ring n) then s
    else if !r.room then s.onRing n fun r => { r with cqWait := true }
    else
      let s1 := s.onRing n fun r => { r with cqWait := false, sqHead := (r.sqHead + 1) % r.depth }
      match e with
      | none => (s1.onRing n fun r => { r with fetchErr := true, fetchErrs := inc32 r.fetchErrs }).fetchRing n es
      | some b => ((s1.reserve (.ring n) false).intakeBuffer (.ring n) (fit r.entry b)).fetchRing n es

/-- Fetching goes on as far as it can. -/
def State.fetchMore (s : State) (n : Fin 8) (host : List (Option (List Byte))) : State :=
  (s.onRing n fun r => { r with cqWait := false }).fetchRing n host

/-- SQ_TAIL: a doorbell value of depth or more is ignored (R59). -/
def execSqTail (n : Fin 8) (value : BitVec 32) (entries : List (Option (List Byte))) (s : State) : Host.Outcome State Fault Refusal :=
  if !s.reaches (.ring n) || !(s.ring n).en then .next s
  else if (s.ring n).depth ≤ value.toNat then .next (s.onRing n fun r => { r with dbErr := true })
  else .next ((s.onRing n fun r => { r with hostTail := value.toNat }).fetchMore n entries)

/-- CQ_HEAD: completion entries are free again: the replies that wait for them are written, and fetching that was held goes on. -/
def execCqHead (n : Fin 8) (value : BitVec 32) (entries : List (Option (List Byte))) (s : State) : Host.Outcome State Fault Refusal :=
  if !s.reaches (.ring n) || !(s.ring n).en then .next s
  else if (s.ring n).depth ≤ value.toNat then .next (s.onRing n fun r => { r with dbErr := true })
  else
    let s1 := s.onRing n fun r => { r with hostHead := value.toNat }
    .next ((s1.completeLate n (s1.ring n).late).fetchMore n entries)

/-- The ring's fields [15:4] and [0] and [16] from a RING_CFG value. -/
def Ring.cfgd (r : Ring) (v : Nat) : Ring := { r with depthLog2 := bits v 4 4, esize := bits v 8 2, vector := bits v 10 6, irqEn := bitOf v 16 }

/-- A ring pair starts: both rings are empty, and PHASE is 1 on the first pass. -/
def Ring.started (r : Ring) : Ring :=
  { r with en := true, sqHead := 0, hostTail := 0, hostHead := 0, cqTail := 0, phase := true, reserved := 0, cqWait := false, late := [] }

/-- A write to RING_CFG (R58). -/
def Ring.config (r : Ring) (v : Nat) : Ring :=
  if r.en then
    if decide (bits v 4 4 ≠ r.depthLog2) || decide (bits v 8 2 ≠ r.esize) || decide (bits v 10 6 ≠ r.vector) then { r with cfgErr := true }
    else { r with en := bitOf v 0, irqEn := bitOf v 16 }
  else if !bitOf v 0 then r.cfgd v
  else if 4 ≤ bits v 4 4 ∧ bits v 4 4 ≤ 12 then (r.cfgd v).started
  else { r.cfgd v with cfgErr := true }

/-- RING_CFG. -/
def execRingCfg (n : Fin 8) (value : BitVec 32) (s : State) : Host.Outcome State Fault Refusal :=
  if s.reaches (.ring n) then .next (s.onRing n fun r => r.config value.toNat) else .next s

/-! ### The mailbox (R63) -/

/-- POST: Endpaper takes the packet in the request buffer; a POST while BUSY or READY is 1 is ignored. -/
def execPost (s : State) : Host.Outcome State Fault Refusal :=
  if !s.reaches .mailbox || s.dev.mbox.busy || s.dev.mbox.ready then .next s
  else
    .next (s.intakeBuffer .mailbox (tgets 0 s.dev.mbox.request 0 4096)).syncMail

/-- READY_CLEAR: the reply buffer is free; the place of a DEFERRED reply that the host has taken is, too, and the next one appears. -/
def execReadyClear (s : State) : Host.Outcome State Fault Refusal :=
  if !s.reaches .mailbox || !s.dev.mbox.ready then .next s
  else .next (s.onDev fun d => { d with mbox := { d.mbox with ready := false, showsDeferred := false,
                                                                places := d.mbox.places - ofBool d.mbox.showsDeferred } }).mailboxShow

/-! ### The BAR2 window (R64) -/

/-- WIN_CTL: a write to WIN_CTL maps a region of HOST or a shared one, or leaves EN at 0; the low 16 bits of WIN_BASE are 0. -/
def execWinCtl (w : WinWrite) (s : State) : Host.Outcome State Fault Refusal :=
  if !s.reaches .mailbox then .next s
  else .next (match w with
    | .base v => s.onDev fun d => { d with winBase := v.toNat / 65536 * 65536 }
    | .ctl v =>
      let h := bits v.toNat 0 11
      let may := match s.region h with | some r => r.owner == 0 || r.shared | none => false
      s.onDev fun d => { d with winRegion := h, winEn := bitOf v.toNat 31 && may, winErr := d.winErr && !bitOf v.toNat 30 })

/-- BAR2_ACCESS: an access through the window. With EN at 0, and in ENDPAPER, reads are zero and writes are dropped (R539). -/
def execBar2Access (off : Nat) (acc : MemAccess) (s : State) : Host.Outcome State Fault Refusal :=
  let n := match acc with | .read k => k | .write b => b.length
  if 2 ^ 30 < off + n then .fault .bar2Hole
  else if !s.reaches .mailbox then .next s
  else
    let d := s.dev
    let mapped := d.winEn && s.dev.st != .endpaper
    let size := match s.region d.winRegion with | some r => r.size | none => 0
    let s1 := if mapped && decide (size < d.winBase + off + n) then s.onDev fun d => { d with winErr := true } else s
    .next (match acc with
      | .read k =>
        let here := if mapped then min k (size - (d.winBase + off)) else 0
        s1.emit (.bar2 (s1.memRead d.winRegion (d.winBase + off) here ++ zeros (k - here)))
      | .write b => if mapped then s1.memWrite d.winRegion (d.winBase + off) b else s1)

/-! ### DMA (R65, R66) -/

/-- What GO finds wrong: the region is invalid or not HOST's to name, the transfer goes beyond it, or something is misaligned. -/
def State.dmaGoErr (s : State) (x : Dma) : Option Nat :=
  match s.region x.region with
  | none => some 1
  | some r =>
    if !s.mayName 0 x.region then some 1
    else if r.size < x.regOffset + x.length then some 2
    else if x.hostAddr % 64 ≠ 0 ∨ x.regOffset % 64 ≠ 0 ∨ x.length % 64 ≠ 0 ∨ x.length < 64 ∨ 0xFFFFFFC0 < x.length then some 3 else none

/-- A write to DMA_CTL: while STREAM is 1 only IRQ_EN and STOP act. GO leaves DONE, ERR and ERR_CODE of an earlier transfer as they are. DESIGN
CHOICE. `data` is what the channel has moved of its present pass when it stops. -/
def State.dmaCtl (s : State) (n v : Nat) (data : List Byte) : State :=
  let x := s.dmaCh n
  let s1 := s.onDma n fun d => if d.stream.isSome then { d with irqEn := bitOf v 3 } else { d with dir := bitOf v 1, circ := bitOf v 2, irqEn := bitOf v 3 }
  let stop := fun (a : State) =>
    let k := min (data.length / 64 * 64) x.length
    let a1 := if x.stream.isSome then a
      else if x.dir then a.emit (.hostWrite x.hostAddr (a.memRead x.region x.regOffset k)) else a.memWrite x.region x.regOffset (data.take k)
    (a1.onDma n fun d => { d with moved := k }).dmaFail n 7
  let s2 := if bitOf v 5 && x.busy then stop s1 else s1
  if bitOf v 0 && !x.busy && x.stream.isNone then
    match s2.dmaGoErr (s2.dmaCh n) with
    | some c => s2.dmaFail n c
    | none => if s2.dev.st == .endpaper then s2.dmaFail n 6 else s2.onDma n fun d => { d with busy := true, moved := 0 }
  else s2

/-- GO: a write to DMA_CTL with GO. -/
def execDmaGo (n : Fin 16) (ctl : BitVec 32) (s : State) : Host.Outcome State Fault Refusal :=
  if s.reaches .mailbox then .next (s.dmaCtl n (ctl.toNat ||| 1) []) else .next s

/-- STOP: a write to DMA_CTL with STOP. -/
def execDmaStop (n : Fin 16) (ctl : BitVec 32) (data : List Byte) (s : State) : Host.Outcome State Fault Refusal :=
  if s.reaches .mailbox then .next (s.dmaCtl n (ctl.toNat ||| 32) data) else .next s

/-- DMA_PASS_COMPLETE: a pass of an ordinary channel ends; `data` is what host memory held, `hostOk` that it could be reached. -/
def execDmaPassComplete (n : Fin 16) (data : List Byte) (hostOk : Bool) (s : State) : Host.Outcome State Fault Refusal :=
  let x := s.dmaCh n
  if !x.busy || x.stream.isSome then .next s
  else if !hostOk then .next (s.dmaFail n 4)
  else
    let s1 := if x.dir then s.emit (.hostWrite x.hostAddr (s.memRead x.region x.regOffset x.length))
      else s.memWrite x.region x.regOffset (fit x.length data)
    let s2 := s1.dmaPass n
    .next (if x.circ then s2 else s2.onDma n fun d => { d with busy := false })

/-! ### Other registers (R11, R56) -/

/-- A register of `n` bytes at offset `base`, with bytes written from `off` on laid over it. -/
def overlay (cur n base off : Nat) (data : List Byte) : Nat :=
  leNat ((List.range n).map fun k =>
    if off ≤ base + k ∧ base + k < off + data.length then (data.drop (base + k - off)).headD 0 else BitVec.ofNat 8 (cur / 256 ^ k))

/-- A write of bytes at offset `o` of ring `n`'s block: SQ_BASE and CQ_BASE are 4 KiB-aligned, RING_STAT clears by ones. -/
def Ring.write (r : Ring) (o : Nat) (data : List Byte) : Ring :=
  let st := overlay 0 4 0x14 o data
  { r with sqBase := overlay r.sqBase 8 0 o data / 4096 * 4096, cqBase := overlay r.cqBase 8 8 o data / 4096 * 4096, cfgErr := r.cfgErr && !bitOf st 1,
           dbErr := r.dbErr && !bitOf st 2, fetchErr := r.fetchErr && !bitOf st 4 }

/-- A write of bytes at offset `o` of a DMA channel's block, but for DMA_CTL: DMA_STAT clears by ones. -/
def Dma.write (x : Dma) (o : Nat) (data : List Byte) : Dma :=
  if x.stream.isSome then x
  else
    let st := overlay 0 4 0x20 o data
    { x with hostAddr := overlay x.hostAddr 8 0 o data, region := overlay x.region 4 8 o data % 2048, regOffset := overlay x.regOffset 8 0x10 o data,
             length := overlay x.length 4 0x18 o data, done := x.done && !bitOf st 1, err := x.err && !bitOf st 2 }

/-- An MSI-X entry that is no longer masked sends what was pending. -/
def State.msixWrite (s : State) (v o : Nat) (data : List Byte) : State :=
  let s1 := s.onDev fun d => { d with msix := tmod { addr := 0, data := 0, ctrl := 0 } d.msix v fun x =>
    { addr := overlay x.addr 8 0 o data, data := overlay x.data 4 8 o data, ctrl := overlay x.ctrl 4 12 o data % 2 } }
  if s1.dev.msixPend.contains v && !bitOf (tget { addr := 0, data := 0, ctrl := 0 } s1.dev.msix v).ctrl 0 then
    (s1.onDev fun d => { d with msixPend := d.msixPend.filter fun x => x != v }).emit (.msix v)
  else s1

/-- A write to a register without a row of its own. Reserved space and read-only registers ignore it. -/
def State.regWrite (s : State) (off : Nat) (data : List Byte) : State :=
  if 0x0400 ≤ off ∧ off < 0x0600 then s.onRing ((off - 0x0400) / 64) fun r => r.write ((off - 0x0400) % 64) data
  else if 0x2000 ≤ off ∧ off < 0x2800 then
    let n := (off - 0x2000) / 128
    let o := (off - 0x2000) % 128
    let s1 := s.onDma n fun x => x.write o data
    if o ≤ 0x1C ∧ 0x1C < o + data.length then
      let x := s1.dmaCh n
      let cur := 2 * ofBool x.dir + 4 * ofBool x.circ + 8 * ofBool x.irqEn
      s1.dmaCtl n (overlay cur 4 0x1C o data / 2 % 16 * 2) []
    else s1
  else if 0x3000 ≤ off ∧ off < 0x3400 then s.msixWrite ((off - 0x3000) / 16) ((off - 0x3000) % 16) data
  else if 0x8000 ≤ off ∧ off < 0x9000 then s.onDev fun d => { d with mbox := { d.mbox with request := tputs 0 d.mbox.request (off - 0x8000) (data.take (0x9000 - off)) } }
  else s

/-- REG_WRITE (R11, R56). Doorbells, RING_CFG, MBX_CTL, the window, GO, STOP and the fire registers have rows of their own. -/
def execRegWrite (off : Nat) (data : List Byte) (s : State) : Host.Outcome State Fault Refusal :=
  if 65536 < off + data.length then .fault .bar0Hole
  else if s.reaches .mailbox then .next (s.regWrite off data) else .next s

/-! ### The end of a hand-over pause (R545) -/

/-- Command processing goes on: what has waited, then the rings. -/
def State.goOn (s : State) (host : List (List (Option (List Byte)))) : State :=
  [0, 1, 2, 3, 4, 5, 6, 7].foldl (fun (a : State) (n : Fin 8) => a.fetchMore n (lget [] host n.val)) s.resume

/-- NEW_FIRMWARE_READY: within 150 µs of the pause the new firmware is ready; it is on trial, or the old one is back. -/
def execNewFirmwareReady (host : List (List (Option (List Byte)))) (s : State) : Host.Outcome State Fault Refusal :=
  match s.svc.handover with
  | .pause slot confirm since back =>
    if since + 150 * uUs < s.now then .next s
    else
      let trial := if back then none else some (s.dev.fwRunning, s.now + confirm * uS)
      let s1 := s.noting fun s => (s.onSvc fun v => { v with handover := .idle, trial := trial }).onDev fun d => { d with fwRunning := slot }
      .next ((if back then s1 else s1.resolve (wait .fwActivate 0 0) []).goOn host)
  | _ => .next s

/-- HANDOVER_READY_TIMEOUT: the new firmware is not ready within 150 µs, and the one that ran resumes. -/
def execHandoverReadyTimeout (host : List (List (Option (List Byte)))) (s : State) : Host.Outcome State Fault Refusal :=
  match s.svc.handover with
  | .pause _ _ since back =>
    let s1 := (s.advanceTo (since + 150 * uUs)).noting fun s => s.onSvc fun v => { v with handover := .idle }
    .next ((if back then s1 else s1.timeoutWait (wait .fwActivate 0 0)).goOn host)
  | _ => .next s

end Sys2Proof.Machine
end

