-- ==== Sys2Proof/Machine/Smbus.lean ====
section
/-! DEFINITION. The SMBus transport of MGMT (02, R67, R68). -/
namespace Sys2Proof.Machine

/-- The state with the SMBus transport changed; ALERT_N and DEVSTAT follow the stored replies. -/
def State.onSmbus (s : State) (g : Smbus → Smbus) : State := s.noting fun s => s.onDev fun d => { d with smbus := g d.smbus }

/-- A partly assembled request is discarded, and the error is shown and counted (R68). -/
def State.asmError (s : State) : State :=
  (s.onSmbus fun b => { b with assembling := false, partialReq := [], next := 0, asmErr := true }).onStream .mgmt fun t =>
    { t with smbusErr := inc32 t.smbusErr }

/-- BLOCK_WRITE: one fragment of a request. While four replies are stored, a FIRST one is not acknowledged. A FIRST fragment that comes during
assembly begins anew (DEDUCED). A later fragment with no assembly open, and a block without its control byte, count as fragments out of order: they
set the assembly error bit. DESIGN CHOICE. -/
def execBlockWrite (data : List Byte) (pecOk : Bool) (s : State) : Host.Outcome State Fault Refusal :=
  if s.dev.st == .off then .next s
  else if !pecOk || data.isEmpty then .next s.asmError
  else
    let c := u data 0 1
    let first := bitOf c 7
    if first && decide (4 ≤ s.dev.smbus.replies.length) then .next (s.emit .smbusNack)
    else
      let s1 := if first && s.dev.smbus.assembling then s.asmError else s
      let b := s1.dev.smbus
      if (if first then c % 64 ≠ 0 else !b.assembling ∨ c % 64 ≠ b.next) then .next s1.asmError
      else
        let req := (if first then [] else b.partialReq) ++ data.drop 1
        if bitOf c 6 then .next ((s1.onSmbus fun b => { b with assembling := false, partialReq := [], next := 0 }).intakeBytes .mgmt false req)
        else .next (s1.onSmbus fun b => { b with assembling := true, partialReq := req, next := c % 64 + 1, since := s1.now })

/-- BLOCK_READ: the next fragment of the oldest reply, or 0x00 alone. A reply that has been read whole is no longer stored, and one that waits takes
its place. -/
def execBlockRead (s : State) : Host.Outcome State Fault Refusal :=
  if s.dev.st == .off then .next s
  else
    match s.dev.smbus.replies with
    | [] => .next (s.emit (.smbus [0]))
    | r :: rest =>
      let b := s.dev.smbus
      let part := (r.drop b.sentTo).take 254
      let last := decide (r.length ≤ b.sentTo + part.length)
      let ctl := 128 * ofBool (b.frag == 0) + 64 * ofBool last + b.frag % 64
      let s1 := s.emit (.smbus (leBytes 1 ctl ++ part))
      .next (s1.onSmbus fun b => if last then { b with replies := rest ++ b.late.take 1, late := b.late.drop 1, sentTo := 0, frag := 0 } else { b with sentTo := b.sentTo + part.length, frag := b.frag + 1 })

/-- READ_BYTE: reply pending, reply store full, assembly error; the read clears the error. -/
def execReadByte (s : State) : Host.Outcome State Fault Refusal :=
  if s.dev.st == .off then .next s
  else
    let b := s.dev.smbus
    .next ((s.emit (.smbus (leBytes 1 (ofBool (!b.replies.isEmpty) + 2 * ofBool (decide (4 ≤ b.replies.length)) + 4 * ofBool b.asmErr)))).onSmbus fun b =>
      { b with asmErr := false })

/-- ALERT_RESPONSE: while it asserts ALERT_N, the device answers 0x0C with its own address, which takes the upper seven bits of the byte
(PRESUMED, as SMBus has it). -/
def execAlertResponse (s : State) : Host.Outcome State Fault Refusal :=
  if s.dev.st == .off then .next s
  else .next (s.emit (if s.alert then .smbus (leBytes 1 (2 * s.dev.smbus.addr)) else .smbusNack))

/-- ASSEMBLY_TIMEOUT: the next fragment has not come within 100 ms. -/
def execAssemblyTimeout (s : State) : Host.Outcome State Fault Refusal :=
  if s.dev.smbus.assembling then .next (s.advanceTo (s.dev.smbus.since + 100 * uMs)).asmError else .next s

end Sys2Proof.Machine
end

