-- ==== Sys2Proof/Machine/Boot.lean ====
section
/-! DEFINITION. Power, reset and start-up (01, R29 to R31; 11, R402 to R404; 18, R589). -/
namespace Sys2Proof.Machine

/-! ### VAUX (R30, R345, R400, R401) -/

/-- What is left without VAUX: the flash, the owner's keys and counters, the active slot, the levels of the pins and the other rails. -/
def State.unpowered (s : State) : State :=
  let d := s.dev
  { State.reset with
    pending := s.pending, free := s.free, sent := s.sent, now := s.now,
    dev := { Dev.reset with st := .off, images := d.images.map fun e => (e.1, { e.2 with opened := none, begun := false }), imgAge := d.imgAge,
                            fwActive := d.fwActive, fwRunning := d.fwActive, perst := d.perst, rst := d.rst },
    trust := { Trust.reset with keys := s.trust.keys, counters := s.trust.counters, lastApply := s.trust.lastApply },
    clk := { Clk.reset with good := setBit s.clk.good 0 false, temps := s.clk.temps, dramHot := s.clk.dramHot },
    rf := { Rf.reset with pin := s.rf.pinRaw, pinRaw := s.rf.pinRaw }, bsc := { Bsc.reset with bclr := s.bsc.bclr } }

/-- VAUX_LOSS: the device goes OFF. -/
def execVauxLoss (s : State) : Host.Outcome State Fault Refusal := .next (if s.dev.st == .off then s else s.unpowered)

/-- The configuration image that the device applied last, if it is still valid. -/
def State.lastImage (s : State) : Option ImgCopy := match s.trust.lastApply with | some k => s.cfgImage k | none => none

/-- VAUX_GOOD: the device enters BOOT at device time 0. A rail that is good already counts from now. -/
def execVauxGood (s : State) : Host.Outcome State Fault Refusal :=
  if s.dev.st != .off then .next s
  else
    let s1 : State := { s with now := 0, dev := { s.dev with st := .boot }, clk := { s.clk with good := setBit s.clk.good 0 true } }
    let s2 := s1.onClk fun c => { c with sAt := if c.good = 2047 then some 0 else none }
    .next ((if s2.rf.pin then s2.setCauses allDacs mPin s2.rf.latch else s2).toBoot.timeSelect)

/-! ### Resets (R402) -/

/-- SYS_RST_N has been at a level for `p.ns` ns. Levels of less than its glitch filter of 1 µs count for nothing. Asserted, it resets every island but EPI, TMU and
BSC, once; the start-up goes on once it is released (DEDUCED). -/
def execSysRstN (p : PinSpan) (s : State) : Host.Outcome State Fault Refusal :=
  if p.ns < 1000 ∨ p.low = s.dev.rst then .next s
  else
    let s1 := s.onDev fun d => { d with rst := p.low }
    .next (if p.low && s.dev.st != .off then s1.sysReset else s1)

/-- PERST_N: asserted, it resets the host interface, which stays in reset until it is released. -/
def execPerstN (low : Bool) (s : State) : Host.Outcome State Fault Refusal :=
  let s1 := s.onDev fun d => { d with perst := low }
  .next (if low && s.dev.st != .off then s1.hifReset else s1)

/-! ### Start-up (R30, R403) -/

/-- FIRMWARE_VERIFIED: the active slot's firmware starts, else the other slot's; without a valid slot the device enters ENDPAPER. What has
arrived meanwhile is handled now. -/
def execFirmwareVerified (s : State) : Host.Outcome State Fault Refusal :=
  if s.dev.st != .boot || s.dev.fwUp || s.dev.rst then .next s
  else
    let a := s.dev.fwActive
    let pick := if (s.newest a).isSome then some a else if (s.newest (1 - a)).isSome then some (1 - a) else none
    match pick with
    | none => .next (s.toEndpaper 7 0 0)
    | some k =>
      let addr := match s.lastImage with | some x => (Config.smbusAddr x.read).map fun (a : BitVec 7) => a.toNat | none => none
      let s1 := s.noting fun s => s.onDev fun d => { d with fwUp := true, fwRunning := k, smbus := { d.smbus with addr := addr.getD d.smbus.addr } }
      .next (s1.calBoot.reloadSafety.resume)

/-- BOOT_SUPPLY_TIMEOUT: the supplies are not all good 10 s after BOOT began, or after the time that the configuration image sets. -/
def execBootSupplyTimeout (s : State) : Host.Outcome State Fault Refusal :=
  if s.dev.st != .boot || s.clk.sAt.isSome then .next s
  else
    let t := match s.lastImage with | some x => (Config.bootTimeout x.read).getD 10 | none => 10
    let rail := ((List.range 11).find? fun n => !bitOf s.clk.good n).getD 0
    .next ((s.advanceTo (s.dev.bootAt + t * uS)).toEndpaper 6 rail 0)

/-- The logical Quires are bound: each to the physical Quire of its number, one of a retired number to the spare, the rest to none (R18, R21). -/
def State.bindAll (s : State) : State :=
  let ok := fun (a : State) p => !a.svc.retired.contains p
  let s0 := s.onSvc fun v => { v with spq := if v.retired.contains 16 then none else some 16, spare2 := [] }
  (List.range 16).foldl (fun (a : State) q =>
    if ok a q then a.onQb q fun b => b.to' q (a.physQ q)
    else match a.svc.spq with
      | some t => (a.onQb q fun b => b.to' t (a.physQ t)).onSvc fun v => { v with spq := none }
      | none => a.unbind q) s0

/-- A unit has failed at the start: a Quire, or a core or a Stitch of one, is retired before the binding; any other unit is spared or retired. -/
def State.bootFail (s : State) (x : FUnit) : State := s.unitFail x ((s.boundTo x.pq).elim noObject quireId) 0 none 0 false none

/-- The failed unit takes its whole Quire with it. -/
def FUnit.sinks (x : FUnit) : Bool := x.kind == 9 || x.kind == 7 || (x.kind == 8 && x.inQuire)

/-- BOOT_SELFTEST_COMPLETE: the self-tests have ended, with these units failed; the Quires are loaded with microcode and bound, and the device
runs, with its full capacity or without (R30). It runs on whatever reference it holds (R404), which it does not before INT's PLL has locked or where the
selected source is lost; in RUN, REF_POLICY STOP applies to what it has found. -/
def execBootSelftestComplete (failed : List (Nat × Nat)) (s : State) : Host.Outcome State Fault Refusal :=
  if s.dev.st != .boot || !s.dev.fwUp || s.dev.rst || s.clk.sAt.isNone || s.clk.lostSel || s.clk.rootReset || !s.clk.regsBad.isEmpty then .next s
  else
    let us := (failed.map fun e => ({ kind := e.1, phys := e.2 } : FUnit)).filter FUnit.ok
    let s1 := (List.range 17).foldl (fun (a : State) p => a.onPhys p fun x => { x with mcode := s.microcode }) s
    let gone := us.filter FUnit.sinks
    let s2 := (gone.foldl (fun (a : State) x => a.retireQuire x.pq) s1).bindAll
    let s3 := gone.foldl (fun (a : State) x => a.logFault (quireUnit x.pq) (if a.pq x.pq = 31 then 3 else 2) 0 (if x.pq < 16 then quireId x.pq else noObject) 0) s2
    let s4 := (us.filter fun x => !x.sinks).foldl (fun (a : State) x => a.bootFail x) s3
    .next (((s4.bootLines.setDevSt (if s4.fullCapacity then .run else .reduced)).noncoh).refStop).raisePoints

/-! ### Temperatures (R589) -/

/-- The first sensor above a threshold among those that `p` admits: MON 58 to 81, then the DRAM stacks. -/
def hotSensor (t : List Int) (lim : Int) (p : Nat → Bool) : Option Nat := (List.range 26).find? fun i => p i && decide (lim < lget 0 t i)

/-- DETAIL of a temperature cause (R592). -/
def sensorDetail (i : Nat) : Nat := if i < 24 then 58 + i else 0xF0 + (i - 24)

/-- TEMPERATURE_SHUTDOWN: the readings of all sensors, in m°C, of which MON 75, on the die of the time unit, gives the junction temperature of R446 (DEDUCED); one above 115 °C for 1 ms is a cause of R30. -/
def execTemperatureShutdown (milliC : List Int) (s : State) : Host.Outcome State Fault Refusal :=
  if s.dev.st == .off then .next s
  else
    let s1 := (s.onClk fun c => { c with temps := (List.range 26).map fun i => lget 0 milliC i }).onCap fun c => { c with temp := lget 0 milliC 17 }
    .next (match hotSensor milliC 115000 fun _ => true with
      | some i => if s.runs || s.dev.st == .endpaper then s1.toEndpaper 2 (sensorDetail i) 0 else s1
      | none => s1)

/-- HARDWARE_THERMAL_TRIP: a sensor of the main die, a chiplet or a DRAM stack above 125 °C; that of BSC (MON 80) is no such one. -/
def execHardwareThermalTrip (milliC : List Int) (s : State) : Host.Outcome State Fault Refusal :=
  if s.dev.st == .off then .next s
  else
    let s1 := (s.onClk fun c => { c with temps := (List.range 26).map fun i => lget 0 milliC i }).onCap fun c => { c with temp := lget 0 milliC 17 }
    .next (match hotSensor milliC 125000 fun i => i != 22 with
      | some i => s1.toEndpaper 3 (sensorDetail i) 0
      | none => s1)

/-- DRAM_REFRESH_DOUBLE: a stack crosses 85 °C, up or down. -/
def execDramRefreshDouble (stack : Fin 2) (above : Bool) (s : State) : Host.Outcome State Fault Refusal :=
  .next (s.onClk fun c => { c with dramHot := (c.dramHot.filter fun n => n != stack.val) ++ if above then [stack.val] else [] })

end Sys2Proof.Machine
end

