-- ==== Sys2Proof/Machine/LinkRows.lean ====
section
/-! DEFINITION. What arrives on the array ports but for Thread's frames (09, R317, R318, R321, R322, R326 to R329): commands and the replies of
peers, feedback frames, events and bulk records. -/
namespace Sys2Proof.Machine

/-! ### Peer commands (R327, R339) -/

/-- A peer's reply, matched by its SEQ. After E_SEQUENCE the session is reopened and the packet sent once more; any other first reply ends the
command, which carries the reply packet. -/
def State.peerReply (s : State) (p : Nat) (b : List Byte) : State :=
  match (s.port p).peers.find? fun x => x.seq == u b 12 4 with
  | none => s
  | some x =>
    if u b 2 2 = Status.eSequence ∧ !x.resent then
      let s1 := s.openSession p
      let k := (s1.port p).peerSeq
      let again := resequence x.packet k
      let r := s1.sendFrame p 3 x.addr s1.dev.addr 0 again
      r.1.onPort p fun y => { y with peerSeq := (k + 1) % 2 ^ 32, peers := y.peers.map fun z =>
        if z.id = x.id then { z with packet := again, seq := k, sentAt := r.2, resent := true } else z }
    else (s.onPort p fun y => { y with peers := y.peers.filter fun z => z.id != x.id }).resolve (wait .peerCmd p x.id) (b.take 4064)

/-- PEER_DEADLINE: the peer command with this SEQ has had no reply within the peer deadline of its transmission. -/
def execPeerDeadline (p : Fin 4) (index : BitVec 32) (s : State) : Host.Outcome State Fault Refusal :=
  match (s.port p).peers.find? fun x => x.seq == index.toNat with
  | none => .next s
  | some x =>
    let s1 := (s.advanceTo (x.sentAt + (s.port p).peerMs * uMs)).countPort p .peerTimeout
    .next ((s1.onPort p fun y => { y with peers := y.peers.filter fun z => z.id != x.id }).failWait (wait .peerCmd p x.id) (err Status.ePeerDown (p + 1)))

/-! ### Delivery (R318, R322) -/

/-- The packet of a CMD frame: a reply goes to the command that awaits it, a request to the port's stream, or to no stream where it came to
every device (R328). -/
def State.cmdPacket (s : State) (p : Nat) (quiet : Bool) (b : List Byte) : State :=
  match Src.ofNums (p + 1) 0 with
  | none => s
  | some src =>
    if bitOf (u b 1 1) 7 then (if quiet || decide (b.length < 20) || intakeErr b == some Status.eCrc then s else s.peerReply p b)
    else if s.reaches src then s.intakeBytes src quiet b else s

/-- The payload of a frame acts on this device. -/
def State.consumeFrame (s : State) (p : Nat) (h : Hdr) (payload : List Byte) : State :=
  if h.cls = 3 then s.cmdPacket p (h.dest == bcastAddr) payload
  else if h.cls = 4 then s.importEvent p h.src payload
  else if h.cls = 5 then s.bulkRecord p h.src payload
  else s

/-- A frame that came in on port `p` goes where its DEST says. -/
def State.routeFrame (s : State) (p : Nat) (b : List Byte) : State :=
  let h := hdrOf b
  let payload := (b.drop 16).take (b.length - 20)
  if h.dest = s.dev.addr then s.consumeFrame p h payload
  else if h.dest = bcastAddr then (s.consumeFrame p h payload).bcastOn p h payload
  else if h.cls = 3 then s.countPort p .notNeighbour
  else s.relay p h payload

/-! ### Link order (R317) -/

/-- The frames that follow the expected PSEQ without a gap are delivered; one without bytes has arrived but was dropped. -/
def State.flushHeld (s : State) (p : Nat) : Nat → State
  | 0 => s
  | k + 1 =>
    match (s.port p).held.find? fun x => some x.pseq == (s.port p).pseqRx with
    | none => s
    | some x =>
      let s1 := s.onPort p fun y => { y with pseqRx := some ((x.pseq + 1) % 2 ^ 32), held := y.held.filter fun z => z.pseq != x.pseq }
      (if x.bytes.isEmpty then s1 else s1.routeFrame p x.bytes).flushHeld p k

/-- A frame arrives with its PSEQ: it is delivered in order, waits for its predecessor, or comes too late. -/
def State.inOrder (s : State) (p : Nat) (pseq : Nat) (b : List Byte) : State :=
  let want := (s.port p).pseqRx.getD pseq
  if 2 ^ 31 ≤ (pseq + 2 ^ 32 - want) % 2 ^ 32 then s
  else
    let s1 := s.onPort p fun y => { y with pseqRx := some want, held := (y.held.filter fun z => z.pseq != pseq) ++ [{ pseq := pseq, at' := s.now, bytes := b }] }
    s1.flushHeld p (s1.port p).held.length

/-- The held frame that comes first in link order. -/
def LinkPort.firstHeld (x : LinkPort) : Option HeldFrame :=
  let want := x.pseqRx.getD 0
  let gap := fun (f : HeldFrame) => (f.pseq + 2 ^ 32 - want) % 2 ^ 32
  x.held.foldl (fun b f => match b with | none => some f | some g => if gap f < gap g then some f else some g) none

/-- REORDER_HOLD_EXPIRY: a frame has waited 20 µs for its predecessor: the missing ones count in LOST, and the frames held are delivered. -/
def execReorderHoldExpiry (p : Fin 4) (s : State) : Host.Outcome State Fault Refusal :=
  match (s.port p).firstHeld with
  | none => .next s
  | some f =>
    let oldest := (s.port p).held.foldl (fun (t : Nat) x => min t x.at') f.at'
    let s1 := s.advanceTo (oldest + 20 * uUs)
    let n := (f.pseq + 2 ^ 32 - ((s1.port p).pseqRx.getD f.pseq)) % 2 ^ 32
    let s2 := s1.onPort p fun y =>
      { y with counts := lput y.counts PCount.lost.idx (satAdd 32 (lget 0 y.counts PCount.lost.idx) n), pseqRx := some f.pseq }
    .next (s2.flushHeld p (s2.port p).held.length)

/-- A frame that keeps link order arrives: it is checked, counted, and put in its order. One whose header or rights fail still takes its place
(DEDUCED); that of a class of another row belongs to that row. -/
def State.linkFrame (s : State) (p : Nat) (cls : Nat) (whole : Bool) (b : List Byte) : State :=
  if !s.hears p then s
  else match s.frameIn p whole b with
    | (s1, none) =>
      if whole && decide (20 ≤ b.length) && leNat (b.drop (b.length - 4)) == (crc32c (b.take (b.length - 4))).toNat && !preClass (hdrOf b).cls then
        s1.inOrder p (u b 8 4) []
      else s1
    | (s1, some h) => if h.cls = cls then s1.inOrder p (u b 8 4) b else s

/-- CMD_FRAME_RECEIVE. -/
def execCmdFrameReceive (p : Fin 4) (whole : Bool) (bytes : List Byte) (s : State) : Host.Outcome State Fault Refusal :=
  .next (s.linkFrame p 3 whole bytes)

/-- EVENT_FRAME_RECEIVE. -/
def execEventFrameReceive (p : Fin 4) (whole : Bool) (bytes : List Byte) (s : State) : Host.Outcome State Fault Refusal :=
  .next (s.linkFrame p 4 whole bytes)

/-- BULK_FRAME_RECEIVE. -/
def execBulkFrameReceive (p : Fin 4) (whole : Bool) (bytes : List Byte) (s : State) : Host.Outcome State Fault Refusal :=
  .next (s.linkFrame p 5 whole bytes)

/-- FEEDBACK_FRAME_LINK: to the feedback lane, where it reaches Quire DQ 14 cycles later (R24, R186), or on to another device. -/
def execFeedbackFrameLink (p : Fin 4) (whole : Bool) (bytes : List Byte) (s : State) : Host.Outcome State Fault Refusal :=
  if !s.hears p then .next s
  else match s.frameIn p whole bytes with
    | (s1, none) => .next s1
    | (s1, some h) =>
      let payload := slice bytes 8 16
      let q := u payload 0 1
      if h.cls ≠ 2 then .next s
      else if h.dest ≠ s.dev.addr then .next (s1.relay p h payload)
      else if 16 ≤ q then .next s1
      else .next (s1.onFb q fun b =>
        { b with inbound := insFlight { arrive := cycleAt s1.now + 14, order := 16, remote := true, payload := payload } b.inbound })

end Sys2Proof.Machine
end

