-- ==== Sys2Proof/Machine/Packets.lean ====
section
/-! DEFINITION. The meaning of every packet row (R71): the packet is received with the row's opcode (02), and that opcode's effect is its entry of
`specOf`. -/
namespace Sys2Proof.Machine

/-- DEV_NOP (R72): `opDevNop`. Returns its parameters unchanged as the result. -/
def execDevNop (r : Req) (s : State) : Host.Outcome State Fault Refusal := receive 0x0000 r s

/-- DEV_INFO (R72): `opDevInfo`. Returns BAR0 identification bytes 0x00 to 0x3F. -/
def execDevInfo (r : Req) (s : State) : Host.Outcome State Fault Refusal := receive 0x0001 r s

/-- DEV_STATUS (R72): `opDevStatus`. Returns the device status block: DEVSTAT, CAUSE, the time snapshot, QBIND and QSTAT. -/
def execDevStatus (r : Req) (s : State) : Host.Outcome State Fault Refusal := receive 0x0002 r s

/-- SESSION_OPEN (R72): `opSessionOpen`. Takes the packet with any SEQ, sets the stream's expected SEQ, discards the stored reply and aborts any
partial chain. -/
def execSessionOpen (r : Req) (s : State) : Host.Outcome State Fault Refusal := receive 0x0003 r s

/-- SESSION_CLOSE (R72): `opSessionClose`. Returns the sequence stream to its reset state. -/
def execSessionClose (r : Req) (s : State) : Host.Outcome State Fault Refusal := receive 0x0004 r s

/-- DEV_DEADLINE_SET (R54): `opDevDeadlineSet`. Sets the deadline and the deferral deadline of one opcode class. -/
def execDevDeadlineSet (r : Req) (s : State) : Host.Outcome State Fault Refusal := receive 0x0005 r s

/-- DEV_DEADLINE_GET (R72): `opDevDeadlineGet`. Returns the deadline and the deferral deadline of one opcode class. -/
def execDevDeadlineGet (r : Req) (s : State) : Host.Outcome State Fault Refusal := receive 0x0006 r s

/-- DEV_RESTART (R30): `opDevRestart`. In ENDPAPER with every safety cause cleared, restarts the device into BOOT. -/
def execDevRestart (r : Req) (s : State) : Host.Outcome State Fault Refusal := receive 0x0007 r s

/-- DEV_ENDPAPER_ENTER (R72): `opDevEndpaperEnter`. Puts the device into ENDPAPER and records REASON in CAUSE with KIND 9. -/
def execDevEndpaperEnter (r : Req) (s : State) : Host.Outcome State Fault Refusal := receive 0x0008 r s

/-- DEV_ADDR_SET (R72): `opDevAddrSet`. Sets the device address until VAUX is lost. -/
def execDevAddrSet (r : Req) (s : State) : Host.Outcome State Fault Refusal := receive 0x0009 r s

/-- CMD_ABORT (R72): `opCmdAbort`. Ends a TIMED or ACCEPTED command that has not reached its point of no return, or a chain that has not started. -/
def execCmdAbort (r : Req) (s : State) : Host.Outcome State Fault Refusal := receive 0x000A r s

/-- PORT_STATS_GET (R72): `opPortStatsGet`. Returns the eight packet counters of one port and stream. -/
def execPortStatsGet (r : Req) (s : State) : Host.Outcome State Fault Refusal := receive 0x000B r s

/-- IMAGE_INFO (R74): `opImageInfo`. Returns the validity, length, version, signer and hash of a flash slot. -/
def execImageInfo (r : Req) (s : State) : Host.Outcome State Fault Refusal := receive 0x0100 r s

/-- IMAGE_WRITE_BEGIN (R75): `opImageWriteBegin`. Erases the target slot, or the older copy of a two-copy slot, and opens it for writing. -/
def execImageWriteBegin (r : Req) (s : State) : Host.Outcome State Fault Refusal := receive 0x0101 r s

/-- IMAGE_WRITE_DATA (R75): `opImageWriteData`. Writes image bytes at an offset in the open slot. -/
def execImageWriteData (r : Req) (s : State) : Host.Outcome State Fault Refusal := receive 0x0102 r s

/-- IMAGE_COMMIT (R558): `opImageCommit`. Checks the image's hash, signature and rollback counter and marks the slot valid. -/
def execImageCommit (r : Req) (s : State) : Host.Outcome State Fault Refusal := receive 0x0103 r s

/-- IMAGE_ERASE (R75): `opImageErase`. Erases a one-copy flash slot. -/
def execImageErase (r : Req) (s : State) : Host.Outcome State Fault Refusal := receive 0x0104 r s

/-- CONFIG_APPLY (R77): `opConfigApply`. Checks and applies the device or Quire section of an owner configuration image and locks its RWL fields. -/
def execConfigApply (r : Req) (s : State) : Host.Outcome State Fault Refusal := receive 0x0105 r s

/-- PERS_SET (R27): `opPersSet`. Requests a personality change of a logical Quire, optionally together with a configuration slot. -/
def execPersSet (r : Req) (s : State) : Host.Outcome State Fault Refusal := receive 0x0106 r s

/-- PERS_GET (R78): `opPersGet`. Returns the QBIND entry, the controlling port and the pending personality. -/
def execPersGet (r : Req) (s : State) : Host.Outcome State Fault Refusal := receive 0x0107 r s

/-- QUIRE_RELEASE (R78): `opQuireRelease`. Clears the controlling port of a Quire. -/
def execQuireRelease (r : Req) (s : State) : Host.Outcome State Fault Refusal := receive 0x0108 r s

/-- SYN_LINES_SET (R116): `opSynLinesSet`. Declares a Quire's DAC lines and their line-sum shifts. -/
def execSynLinesSet (r : Req) (s : State) : Host.Outcome State Fault Refusal := receive 0x0200 r s

/-- SYN_LINES_GET (R116): `opSynLinesGet`. Returns the declared lines and their saturation counters. -/
def execSynLinesGet (r : Req) (s : State) : Host.Outcome State Fault Refusal := receive 0x0201 r s

/-- CTX_SET (R117): `opCtxSet`. Sets the masked fields of a context, applied at the next coarse tick. -/
def execCtxSet (r : Req) (s : State) : Host.Outcome State Fault Refusal := receive 0x0202 r s

/-- CTX_GET (R117): `opCtxGet`. Returns the fields of a context. -/
def execCtxGet (r : Req) (s : State) : Host.Outcome State Fault Refusal := receive 0x0203 r s

/-- CTX_PHASE_SHIFT (R118): `opCtxPhaseShift`. Adds DELTA to a context's PHASE. -/
def execCtxPhaseShift (r : Req) (s : State) : Host.Outcome State Fault Refusal := receive 0x0204 r s

/-- ENV_WRITE (R119): `opEnvWrite`. Writes samples into the envelope library. -/
def execEnvWrite (r : Req) (s : State) : Host.Outcome State Fault Refusal := receive 0x0205 r s

/-- ENV_READ (R119): `opEnvRead`. Reads samples from the envelope library. -/
def execEnvRead (r : Req) (s : State) : Host.Outcome State Fault Refusal := receive 0x0206 r s

/-- PARAM_WRITE (R120): `opParamWrite`. Writes parameter-list entries of a Folio. -/
def execParamWrite (r : Req) (s : State) : Host.Outcome State Fault Refusal := receive 0x0207 r s

/-- PARAM_READ (R120): `opParamRead`. Reads parameter-list entries of a Folio. -/
def execParamRead (r : Req) (s : State) : Host.Outcome State Fault Refusal := receive 0x0208 r s

/-- SEQ_LOAD (R121): `opSeqLoad`. Checks step words one by one and writes them into the static region. -/
def execSeqLoad (r : Req) (s : State) : Host.Outcome State Fault Refusal := receive 0x0209 r s

/-- SEQ_READ (R121): `opSeqRead`. Reads step words. -/
def execSeqRead (r : Req) (s : State) : Host.Outcome State Fault Refusal := receive 0x020A r s

/-- SEQ_CONFIG (R122): `opSeqConfig`. Sets a Folio's sequencer mode, policies, trigger and event channels. -/
def execSeqConfig (r : Req) (s : State) : Host.Outcome State Fault Refusal := receive 0x020B r s

/-- SEQ_RING_SET (R112): `opSeqRingSet`. Sets a Folio's ring region and step stream, at once or at the next wrap. -/
def execSeqRingSet (r : Req) (s : State) : Host.Outcome State Fault Refusal := receive 0x020C r s

/-- SEQ_ARM (R124): `opSeqArm`. Checks the reachable static words, clears the Folio's counters, refills the ring and leaves the Folio ARMED. -/
def execSeqArm (r : Req) (s : State) : Host.Outcome State Fault Refusal := receive 0x020D r s

/-- SEQ_GO (R125): `opSeqGo`. Starts ARMED Folios so that their first step begins at START. -/
def execSeqGo (r : Req) (s : State) : Host.Outcome State Fault Refusal := receive 0x020E r s

/-- SEQ_STOP (R126): `opSeqStop`. Halts Folios with cause 2 at the next boundary or coarse tick. -/
def execSeqStop (r : Req) (s : State) : Host.Outcome State Fault Refusal := receive 0x020F r s

/-- SEQ_STATUS (R127): `opSeqStatus`. Returns a Folio's status, program counter and counters. -/
def execSeqStatus (r : Req) (s : State) : Host.Outcome State Fault Refusal := receive 0x0210 r s

/-- FOLIO_REG_SET (R128): `opFolioRegSet`. Writes one of FR0 to FR3 at a coarse tick. -/
def execFolioRegSet (r : Req) (s : State) : Host.Outcome State Fault Refusal := receive 0x0211 r s

/-- RO_ROUTE_SET (R130): `opRoRouteSet`. Changes a Quire's source slots, at once or at the next sequence boundary. -/
def execRoRouteSet (r : Req) (s : State) : Host.Outcome State Fault Refusal := receive 0x0300 r s

/-- RO_ROUTE_GET (R154): `opRoRouteGet`. Returns the source slots in force. -/
def execRoRouteGet (r : Req) (s : State) : Host.Outcome State Fault Refusal := receive 0x0301 r s

/-- RSET_SET (R155): `opRsetSet`. Writes a read-out set of a demodulator. -/
def execRsetSet (r : Req) (s : State) : Host.Outcome State Fault Refusal := receive 0x0302 r s

/-- RSET_GET (R155): `opRsetGet`. Returns a read-out set. -/
def execRsetGet (r : Req) (s : State) : Host.Outcome State Fault Refusal := receive 0x0303 r s

/-- DISC_SET (R156): `opDiscSet`. Writes the discriminator parameters of a read-out set. -/
def execDiscSet (r : Req) (s : State) : Host.Outcome State Fault Refusal := receive 0x0304 r s

/-- DISC_GET (R156): `opDiscGet`. Returns the discriminator parameters of a read-out set. -/
def execDiscGet (r : Req) (s : State) : Host.Outcome State Fault Refusal := receive 0x0305 r s

/-- KERNEL_WRITE (R157): `opKernelWrite`. Writes taps into the kernel library. -/
def execKernelWrite (r : Req) (s : State) : Host.Outcome State Fault Refusal := receive 0x0306 r s

/-- KERNEL_READ (R157): `opKernelRead`. Reads taps from the kernel library. -/
def execKernelRead (r : Req) (s : State) : Host.Outcome State Fault Refusal := receive 0x0307 r s

/-- RO_STREAM_SET (R158): `opRoStreamSet`. Binds or unbinds a DMA channel to the Quire's result stream. -/
def execRoStreamSet (r : Req) (s : State) : Host.Outcome State Fault Refusal := receive 0x0308 r s

/-- RO_STATUS (R159): `opRoStatus`. Returns a demodulator's latest result and window counters. -/
def execRoStatus (r : Req) (s : State) : Host.Outcome State Fault Refusal := receive 0x0309 r s

/-- WEAVE_SET (R150): `opWeaveSet`. Writes the inactive weave bank, which takes effect at the next sequence boundary. -/
def execWeaveSet (r : Req) (s : State) : Host.Outcome State Fault Refusal := receive 0x030A r s

/-- WEAVE_GET (R160): `opWeaveGet`. Returns the weave settings in force. -/
def execWeaveGet (r : Req) (s : State) : Host.Outcome State Fault Refusal := receive 0x030B r s

/-- COVAR_RUN (R151): `opCovarRun`. Starts a covariance measurement of the member streams on array 5. -/
def execCovarRun (r : Req) (s : State) : Host.Outcome State Fault Refusal := receive 0x030C r s

/-- COVAR_READ (R161): `opCovarRead`. Returns one row of the covariance sums. -/
def execCovarRead (r : Req) (s : State) : Host.Outcome State Fault Refusal := receive 0x030D r s

/-- FB_LOAD (R189): `opFbLoad`. Checks and writes program words into a core's program bank. -/
def execFbLoad (r : Req) (s : State) : Host.Outcome State Fault Refusal := receive 0x0400 r s

/-- FB_READ (R192): `opFbRead`. Reads program words. -/
def execFbRead (r : Req) (s : State) : Host.Outcome State Fault Refusal := receive 0x0401 r s

/-- FB_MEM_WRITE (R193): `opFbMemWrite`. Writes words into X or Y memory through the host port. -/
def execFbMemWrite (r : Req) (s : State) : Host.Outcome State Fault Refusal := receive 0x0402 r s

/-- FB_MEM_READ (R193): `opFbMemRead`. Reads words from X or Y memory. -/
def execFbMemRead (r : Req) (s : State) : Host.Outcome State Fault Refusal := receive 0x0403 r s

/-- FB_CONFIG (R194): `opFbConfig`. Sets a core's FMASK and event bindings. -/
def execFbConfig (r : Req) (s : State) : Host.Outcome State Fault Refusal := receive 0x0404 r s

/-- FB_ROUTE_SET (R195): `opFbRouteSet`. Writes a feedback route entry. -/
def execFbRouteSet (r : Req) (s : State) : Host.Outcome State Fault Refusal := receive 0x0405 r s

/-- FB_ROUTE_GET (R195): `opFbRouteGet`. Returns a route entry and its counters. -/
def execFbRouteGet (r : Req) (s : State) : Host.Outcome State Fault Refusal := receive 0x0406 r s

/-- FB_FLAG_OWNER_SET (R196): `opFbFlagOwnerSet`. Sets the owners of the 64 condition flags. -/
def execFbFlagOwnerSet (r : Req) (s : State) : Host.Outcome State Fault Refusal := receive 0x0407 r s

/-- FB_FLAG_SET (R197): `opFbFlagSet`. Writes HOST-owned condition flags at a coarse tick. -/
def execFbFlagSet (r : Req) (s : State) : Host.Outcome State Fault Refusal := receive 0x0408 r s

/-- FB_FLAG_GET (R197): `opFbFlagGet`. Returns flag values, owners and counters. -/
def execFbFlagGet (r : Req) (s : State) : Host.Outcome State Fault Refusal := receive 0x0409 r s

/-- FB_START (R198): `opFbStart`. Starts the named cores at ENTRY in the same cycle. -/
def execFbStart (r : Req) (s : State) : Host.Outcome State Fault Refusal := receive 0x040A r s

/-- FB_STOP (R199): `opFbStop`. Halts the named cores at the next eligible SAFE, or at once. -/
def execFbStop (r : Req) (s : State) : Host.Outcome State Fault Refusal := receive 0x040B r s

/-- FB_SWAP (R190): `opFbSwap`. Arms a program-bank swap, or performs it at once on a stopped core. -/
def execFbSwap (r : Req) (s : State) : Host.Outcome State Fault Refusal := receive 0x040C r s

/-- FB_STATUS (R201): `opFbStatus`. Returns a core's state, counters and registers. -/
def execFbStatus (r : Req) (s : State) : Host.Outcome State Fault Refusal := receive 0x040D r s

/-- INTAKE_SRC_SET (R208): `opIntakeSrcSet`. Binds a lane source or an internal ADC source to an input, or unbinds it. -/
def execIntakeSrcSet (r : Req) (s : State) : Host.Outcome State Fault Refusal := receive 0x0500 r s

/-- INTAKE_SRC_GET (R228): `opIntakeSrcGet`. Returns an input's binding. -/
def execIntakeSrcGet (r : Req) (s : State) : Host.Outcome State Fault Refusal := receive 0x0501 r s

/-- INTAKE_DELAY_SET (R215): `opIntakeDelaySet`. Sets an input's DELAY and FRAC from a time label. -/
def execIntakeDelaySet (r : Req) (s : State) : Host.Outcome State Fault Refusal := receive 0x0502 r s

/-- CHAN_SET (R230): `opChanSet`. Configures a Quire's channeliser. -/
def execChanSet (r : Req) (s : State) : Host.Outcome State Fault Refusal := receive 0x0503 r s

/-- CHAN_GET (R230): `opChanGet`. Returns the channeliser configuration. -/
def execChanGet (r : Req) (s : State) : Host.Outcome State Fault Refusal := receive 0x0504 r s

/-- CHAN_COEF_WRITE (R231): `opChanCoefWrite`. Writes filter-bank coefficients. -/
def execChanCoefWrite (r : Req) (s : State) : Host.Outcome State Fault Refusal := receive 0x0505 r s

/-- CHAN_COEF_READ (R231): `opChanCoefRead`. Reads filter-bank coefficients. -/
def execChanCoefRead (r : Req) (s : State) : Host.Outcome State Fault Refusal := receive 0x0506 r s

/-- GAIN_WRITE (R221): `opGainWrite`. Writes requantiser gains that take effect at the next block. -/
def execGainWrite (r : Req) (s : State) : Host.Outcome State Fault Refusal := receive 0x0507 r s

/-- GAIN_READ (R232): `opGainRead`. Returns the gains in force. -/
def execGainRead (r : Req) (s : State) : Host.Outcome State Fault Refusal := receive 0x0508 r s

/-- CT_SET (R225): `opCtSet`. Sets the corner-turn configuration, or defers a change of B or ALIGN to the next wrap. -/
def execCtSet (r : Req) (s : State) : Host.Outcome State Fault Refusal := receive 0x0509 r s

/-- CT_GET (R233): `opCtGet`. Returns the corner-turn configuration and block number. -/
def execCtGet (r : Req) (s : State) : Host.Outcome State Fault Refusal := receive 0x050A r s

/-- INTAKE_STATS_GET (R234): `opIntakeStatsGet`. Returns, and optionally clears, input or lane counters. -/
def execIntakeStatsGet (r : Req) (s : State) : Host.Outcome State Fault Refusal := receive 0x050B r s

/-- CORR_PLAN_SET (R267): `opCorrPlanSet`. Sets the correlation plan. -/
def execCorrPlanSet (r : Req) (s : State) : Host.Outcome State Fault Refusal := receive 0x0600 r s

/-- CORR_PLAN_GET (R267): `opCorrPlanGet`. Returns the correlation plan. -/
def execCorrPlanGet (r : Req) (s : State) : Host.Outcome State Fault Refusal := receive 0x0601 r s

/-- CORR_EXPORT_SET (R268): `opCorrExportSet`. Sets the export paths and order of the correlation plan. -/
def execCorrExportSet (r : Req) (s : State) : Host.Outcome State Fault Refusal := receive 0x0602 r s

/-- CORR_START (R269): `opCorrStart`. Checks and starts the correlation plan at the first integration boundary at or after START. -/
def execCorrStart (r : Req) (s : State) : Host.Outcome State Fault Refusal := receive 0x0603 r s

/-- CORR_STOP (R270): `opCorrStop`. Stops the correlation plan at the next integration or block boundary. -/
def execCorrStop (r : Req) (s : State) : Host.Outcome State Fault Refusal := receive 0x0604 r s

/-- BEAM_PLAN_SET (R271): `opBeamPlanSet`. Sets the beam plan. -/
def execBeamPlanSet (r : Req) (s : State) : Host.Outcome State Fault Refusal := receive 0x0605 r s

/-- BEAM_PLAN_GET (R271): `opBeamPlanGet`. Returns the beam plan. -/
def execBeamPlanGet (r : Req) (s : State) : Host.Outcome State Fault Refusal := receive 0x0606 r s

/-- BEAM_EXPORT_SET (R272): `opBeamExportSet`. Assigns beam ranges to export paths. -/
def execBeamExportSet (r : Req) (s : State) : Host.Outcome State Fault Refusal := receive 0x0607 r s

/-- BEAM_WEIGHT_COMMIT (R273): `opBeamWeightCommit`. Makes a weight bank active at the next block boundary. -/
def execBeamWeightCommit (r : Req) (s : State) : Host.Outcome State Fault Refusal := receive 0x0608 r s

/-- BEAM_START (R269): `opBeamStart`. Checks and starts the beam plan at the first block boundary at or after START. -/
def execBeamStart (r : Req) (s : State) : Host.Outcome State Fault Refusal := receive 0x0609 r s

/-- BEAM_STOP (R270): `opBeamStop`. Stops the beam plan at the next block boundary. -/
def execBeamStop (r : Req) (s : State) : Host.Outcome State Fault Refusal := receive 0x060A r s

/-- PLAN_STATUS (R274): `opPlanStatus`. Returns a plan's state and counters. -/
def execPlanStatus (r : Req) (s : State) : Host.Outcome State Fault Refusal := receive 0x060B r s

/-- DAC_LINE_SET (R279): `opDacLineSet`. Sets DAC line fields from a coarse tick. -/
def execDacLineSet (r : Req) (s : State) : Host.Outcome State Fault Refusal := receive 0x0700 r s

/-- DAC_LINE_GET (R294): `opDacLineGet`. Returns DAC line fields. -/
def execDacLineGet (r : Req) (s : State) : Host.Outcome State Fault Refusal := receive 0x0701 r s

/-- RF_MUTE_SET (R295): `opRfMuteSet`. Sets HOST on the named lines and starts their mute sequences. -/
def execRfMuteSet (r : Req) (s : State) : Host.Outcome State Fault Refusal := receive 0x0702 r s

/-- RF_UNMUTE (R282): `opRfUnmute`. Clears HOST on the named lines and returns the lines still muted. -/
def execRfUnmute (r : Req) (s : State) : Host.Outcome State Fault Refusal := receive 0x0703 r s

/-- RF_MUTE_POLICY_SET (R296): `opRfMutePolicySet`. Sets the RF_MUTE_N filter, LATCH and NONCOH_ALLOW. -/
def execRfMutePolicySet (r : Req) (s : State) : Host.Outcome State Fault Refusal := receive 0x0704 r s

/-- ADC_LINE_SET (R287): `opAdcLineSet`. Sets ADC line fields at once, at a boundary, or with blanking. -/
def execAdcLineSet (r : Req) (s : State) : Host.Outcome State Fault Refusal := receive 0x0705 r s

/-- ADC_LINE_GET (R297): `opAdcLineGet`. Returns ADC line fields. -/
def execAdcLineGet (r : Req) (s : State) : Host.Outcome State Fault Refusal := receive 0x0706 r s

/-- CONV_CAL_POLICY_SET (R298): `opConvCalPolicySet`. Sets a line's calibration policy and period. -/
def execConvCalPolicySet (r : Req) (s : State) : Host.Outcome State Fault Refusal := receive 0x0707 r s

/-- CONV_CAL_RUN (R298): `opConvCalRun`. Runs a line calibration now. -/
def execConvCalRun (r : Req) (s : State) : Host.Outcome State Fault Refusal := receive 0x0708 r s

/-- CONV_STATUS (R299): `opConvStatus`. Returns a line's mute causes, state and counters. -/
def execConvStatus (r : Req) (s : State) : Host.Outcome State Fault Refusal := receive 0x0709 r s

/-- LANE_CFG_SET (R331): `opLaneCfgSet`. Sets a group's or port's rate, retry interval and enabled lanes. -/
def execLaneCfgSet (r : Req) (s : State) : Host.Outcome State Fault Refusal := receive 0x0800 r s

/-- LANE_STATUS (R332): `opLaneStatus`. Returns, and optionally clears, a lane's state and counters. -/
def execLaneStatus (r : Req) (s : State) : Host.Outcome State Fault Refusal := receive 0x0801 r s

/-- LANE_EQ_SET (R333): `opLaneEqSet`. Overrides a lane's equalisation entry. -/
def execLaneEqSet (r : Req) (s : State) : Host.Outcome State Fault Refusal := receive 0x0802 r s

/-- LANE_TEST (R334): `opLaneTest`. Runs a PRBS31 test on a lane. -/
def execLaneTest (r : Req) (s : State) : Host.Outcome State Fault Refusal := receive 0x0803 r s

/-- LANE_SWAP (R335): `opLaneSwap`. Moves an ACTIVE lane's traffic to a usable spare. -/
def execLaneSwap (r : Req) (s : State) : Host.Outcome State Fault Refusal := receive 0x0804 r s

/-- PORT_CFG_SET (R336): `opPortCfgSet`. Sets a port's peer deadline and rights. -/
def execPortCfgSet (r : Req) (s : State) : Host.Outcome State Fault Refusal := receive 0x0805 r s

/-- PORT_STATUS (R337): `opPortStatus`. Returns a port's state and counters. -/
def execPortStatus (r : Req) (s : State) : Host.Outcome State Fault Refusal := receive 0x0806 r s

/-- LINK_TOPO_SET (R338): `opLinkTopoSet`. Sets the mesh dimensions, torus bits and LEVEL_CAP. -/
def execLinkTopoSet (r : Req) (s : State) : Host.Outcome State Fault Refusal := receive 0x0807 r s

/-- LINK_TOPO_GET (R338): `opLinkTopoGet`. Returns the topology. -/
def execLinkTopoGet (r : Req) (s : State) : Host.Outcome State Fault Refusal := receive 0x0808 r s

/-- PEER_CMD_SEND (R339): `opPeerCmdSend`. Sends a packet to the port's partner or as a broadcast. -/
def execPeerCmdSend (r : Req) (s : State) : Host.Outcome State Fault Refusal := receive 0x0809 r s

/-- BULK_RX_SET (R340): `opBulkRxSet`. Sets a bulk receive binding. -/
def execBulkRxSet (r : Req) (s : State) : Host.Outcome State Fault Refusal := receive 0x080A r s

/-- BULK_RX_STATUS (R341): `opBulkRxStatus`. Returns a binding's counters and write position. -/
def execBulkRxStatus (r : Req) (s : State) : Host.Outcome State Fault Refusal := receive 0x080B r s

/-- TIME_GET (R371): `opTimeGet`. Returns device time, role and flags. -/
def execTimeGet (r : Req) (s : State) : Host.Outcome State Fault Refusal := receive 0x0900 r s

/-- TIME_SET (R372): `opTimeSet`. Steps a grandmaster or free-running device to NEWTIME at AT. -/
def execTimeSet (r : Req) (s : State) : Host.Outcome State Fault Refusal := receive 0x0901 r s

/-- TIME_CFG_SET (R373): `opTimeCfgSet`. Sets Thread priority, intervals, ports and step policy. -/
def execTimeCfgSet (r : Req) (s : State) : Host.Outcome State Fault Refusal := receive 0x0902 r s

/-- TIME_CFG_GET (R373): `opTimeCfgGet`. Returns the Thread configuration. -/
def execTimeCfgGet (r : Req) (s : State) : Host.Outcome State Fault Refusal := receive 0x0903 r s

/-- TIME_STATUS (R374): `opTimeStatus`. Returns the role, grandmaster, estimate and step state. -/
def execTimeStatus (r : Req) (s : State) : Host.Outcome State Fault Refusal := receive 0x0904 r s

/-- TIME_STEP_AUTH (R375): `opTimeStepAuth`. Authorises the pending step named by STEP_ID within MAXABS. -/
def execTimeStepAuth (r : Req) (s : State) : Host.Outcome State Fault Refusal := receive 0x0905 r s

/-- TIME_ASYM_SET (R376): `opTimeAsymSet`. Sets a port's asymmetry constant and restarts its estimate set. -/
def execTimeAsymSet (r : Req) (s : State) : Host.Outcome State Fault Refusal := receive 0x0906 r s

/-- TIME_PORT_STATUS (R377): `opTimePortStatus`. Returns a port's Thread role and measurements. -/
def execTimePortStatus (r : Req) (s : State) : Host.Outcome State Fault Refusal := receive 0x0907 r s

/-- TIME_TXTS_READ (R378): `opTimeTxtsRead`. Returns and removes slot transmit timestamps. -/
def execTimeTxtsRead (r : Req) (s : State) : Host.Outcome State Fault Refusal := receive 0x0908 r s

/-- TRIG_SET (R379): `opTrigSet`. Sets a TRIG pin's input or output schedule. -/
def execTrigSet (r : Req) (s : State) : Host.Outcome State Fault Refusal := receive 0x0909 r s

/-- TRIG_GET (R379): `opTrigGet`. Returns a TRIG pin's settings and counters. -/
def execTrigGet (r : Req) (s : State) : Host.Outcome State Fault Refusal := receive 0x090A r s

/-- TRIG_IN_READ (R380): `opTrigInRead`. Returns queued TRIG input stamps. -/
def execTrigInRead (r : Req) (s : State) : Host.Outcome State Fault Refusal := receive 0x090B r s

/-- LAUNCH_SET (R381): `opLaunchSet`. Places a frame in a launch slot for time T. -/
def execLaunchSet (r : Req) (s : State) : Host.Outcome State Fault Refusal := receive 0x090C r s

/-- LAUNCH_CANCEL (R381): `opLaunchCancel`. Cancels a launch slot before its launch. -/
def execLaunchCancel (r : Req) (s : State) : Host.Outcome State Fault Refusal := receive 0x090D r s

/-- LAUNCH_STATUS (R381): `opLaunchStatus`. Returns the slot states and counters. -/
def execLaunchStatus (r : Req) (s : State) : Host.Outcome State Fault Refusal := receive 0x090E r s

/-- REF_CFG_SET (R408): `opRefCfgSet`. Sets EREF_EN, REF_POLICY, HOLDOVER_MAX and EV_REF. -/
def execRefCfgSet (r : Req) (s : State) : Host.Outcome State Fault Refusal := receive 0x0A00 r s

/-- REF_STATUS (R409): `opRefStatus`. Returns the selected reference and qualification data, clearing TIME_GAP. -/
def execRefStatus (r : Req) (s : State) : Host.Outcome State Fault Refusal := receive 0x0A01 r s

/-- FREQ_MEASURE (R410): `opFreqMeasure`. Counts one clock against another over a window. -/
def execFreqMeasure (r : Req) (s : State) : Host.Outcome State Fault Refusal := receive 0x0A02 r s

/-- ISLAND_STATUS (R411): `opIslandStatus`. Returns an island's state, gates and counters. -/
def execIslandStatus (r : Req) (s : State) : Host.Outcome State Fault Refusal := receive 0x0A03 r s

/-- DVFS_SET (R412): `opDvfsSet`. Sets a core island's DVFS mode and fixed point. -/
def execDvfsSet (r : Req) (s : State) : Host.Outcome State Fault Refusal := receive 0x0A04 r s

/-- DVFS_GET (R412): `opDvfsGet`. Returns a core island's DVFS state. -/
def execDvfsGet (r : Req) (s : State) : Host.Outcome State Fault Refusal := receive 0x0A05 r s

/-- ENERGY_READ (R413): `opEnergyRead`. Returns every energy and work counter taken at one tick. -/
def execEnergyRead (r : Req) (s : State) : Host.Outcome State Fault Refusal := receive 0x0A06 r s

/-- WORK_READ (R413): `opWorkRead`. Returns one Quire's work counters. -/
def execWorkRead (r : Req) (s : State) : Host.Outcome State Fault Refusal := receive 0x0A07 r s

/-- SUPPLY_CFG_SET (R414): `opSupplyCfgSet`. Sets the supply-monitor filter. -/
def execSupplyCfgSet (r : Req) (s : State) : Host.Outcome State Fault Refusal := receive 0x0A08 r s

/-- SUPPLY_STATUS (R414): `opSupplyStatus`. Returns rail status and voltages, clearing LOST. -/
def execSupplyStatus (r : Req) (s : State) : Host.Outcome State Fault Refusal := receive 0x0A09 r s

/-- CAP_CONFIG (R433): `opCapConfig`. Configures a capture unit, or defers a change of NSEG to the next wrap. -/
def execCapConfig (r : Req) (s : State) : Host.Outcome State Fault Refusal := receive 0x0B00 r s

/-- CAP_CONFIG_GET (R433): `opCapConfigGet`. Returns a capture unit's configuration. -/
def execCapConfigGet (r : Req) (s : State) : Host.Outcome State Fault Refusal := receive 0x0B01 r s

/-- CAP_TRIG_SET (R434): `opCapTrigSet`. Sets a capture unit's trigger. -/
def execCapTrigSet (r : Req) (s : State) : Host.Outcome State Fault Refusal := receive 0x0B02 r s

/-- CAP_MASK_WRITE (R435): `opCapMaskWrite`. Writes mask table entries. -/
def execCapMaskWrite (r : Req) (s : State) : Host.Outcome State Fault Refusal := receive 0x0B03 r s

/-- CAP_ARM (R436): `opCapArm`. Checks and arms a capture unit. -/
def execCapArm (r : Req) (s : State) : Host.Outcome State Fault Refusal := receive 0x0B04 r s

/-- CAP_FORCE (R423): `opCapForce`. Forces a capture trigger. -/
def execCapForce (r : Req) (s : State) : Host.Outcome State Fault Refusal := receive 0x0B05 r s

/-- CAP_STOP (R436): `opCapStop`. Stops a capture unit. -/
def execCapStop (r : Req) (s : State) : Host.Outcome State Fault Refusal := receive 0x0B06 r s

/-- CAP_STATUS (R437): `opCapStatus`. Returns a capture unit's status. -/
def execCapStatus (r : Req) (s : State) : Host.Outcome State Fault Refusal := receive 0x0B07 r s

/-- CAP_HDR_READ (R438): `opCapHdrRead`. Returns segment headers from DRAM. -/
def execCapHdrRead (r : Req) (s : State) : Host.Outcome State Fault Refusal := receive 0x0B08 r s

/-- TIN_INPUT_SET (R449): `opTinInputSet`. Sets a TIN input's threshold, hysteresis, filter and termination. -/
def execTinInputSet (r : Req) (s : State) : Host.Outcome State Fault Refusal := receive 0x0C00 r s

/-- TIN_INPUT_GET (R448): `opTinInputGet`. Returns a TIN input's settings. -/
def execTinInputGet (r : Req) (s : State) : Host.Outcome State Fault Refusal := receive 0x0C01 r s

/-- TIN_CAL_RUN (R441): `opTinCalRun`. Runs a code-density calibration of a delay line. -/
def execTinCalRun (r : Req) (s : State) : Host.Outcome State Fault Refusal := receive 0x0C02 r s

/-- TIN_CAL_READ (R450): `opTinCalRead`. Returns bin widths. -/
def execTinCalRead (r : Req) (s : State) : Host.Outcome State Fault Refusal := receive 0x0C03 r s

/-- TIN_MEAS_SET (R451): `opTinMeasSet`. Configures an interval engine. -/
def execTinMeasSet (r : Req) (s : State) : Host.Outcome State Fault Refusal := receive 0x0C04 r s

/-- TIN_MEAS_START (R452): `opTinMeasStart`. Starts an interval engine. -/
def execTinMeasStart (r : Req) (s : State) : Host.Outcome State Fault Refusal := receive 0x0C05 r s

/-- TIN_MEAS_STOP (R452): `opTinMeasStop`. Stops an interval engine. -/
def execTinMeasStop (r : Req) (s : State) : Host.Outcome State Fault Refusal := receive 0x0C06 r s

/-- TIN_STATS_READ (R453): `opTinStatsRead`. Returns measurement statistics. -/
def execTinStatsRead (r : Req) (s : State) : Host.Outcome State Fault Refusal := receive 0x0C07 r s

/-- TIN_STAMP_READ (R453): `opTinStampRead`. Returns queued stamps. -/
def execTinStampRead (r : Req) (s : State) : Host.Outcome State Fault Refusal := receive 0x0C08 r s

/-- TIN_STATUS (R454): `opTinStatus`. Returns engine and calibration status. -/
def execTinStatus (r : Req) (s : State) : Host.Outcome State Fault Refusal := receive 0x0C09 r s

/-- BIAS_SET (R483): `opBiasSet`. Sets a bias channel's target and slew. -/
def execBiasSet (r : Req) (s : State) : Host.Outcome State Fault Refusal := receive 0x0D00 r s

/-- BIAS_GET (R483): `opBiasGet`. Returns a bias channel's codes and settings. -/
def execBiasGet (r : Req) (s : State) : Host.Outcome State Fault Refusal := receive 0x0D01 r s

/-- BIAS_RANGE_SET (R464): `opBiasRangeSet`. Changes a channel's range under hold, or via 0 V. -/
def execBiasRangeSet (r : Req) (s : State) : Host.Outcome State Fault Refusal := receive 0x0D02 r s

/-- BIAS_GEN_SET (R485): `opBiasGenSet`. Starts a bias waveform generator. -/
def execBiasGenSet (r : Req) (s : State) : Host.Outcome State Fault Refusal := receive 0x0D03 r s

/-- BIAS_TABLE_WRITE (R486): `opBiasTableWrite`. Writes a bias waveform table. -/
def execBiasTableWrite (r : Req) (s : State) : Host.Outcome State Fault Refusal := receive 0x0D04 r s

/-- BIAS_SAFETY_SET (R465): `opBiasSafetySet`. Writes a channel's live safety fields. -/
def execBiasSafetySet (r : Req) (s : State) : Host.Outcome State Fault Refusal := receive 0x0D05 r s

/-- BIAS_STATUS (R487): `opBiasStatus`. Returns a bias channel's state and counters. -/
def execBiasStatus (r : Req) (s : State) : Host.Outcome State Fault Refusal := receive 0x0D06 r s

/-- BIAS_CAL_RUN (R488): `opBiasCalRun`. Runs a trim or two-point calibration of a bias channel. -/
def execBiasCalRun (r : Req) (s : State) : Host.Outcome State Fault Refusal := receive 0x0D07 r s

/-- MON_CH_SET (R490): `opMonChSet`. Sets a monitor channel's range, limits, action and coefficients. -/
def execMonChSet (r : Req) (s : State) : Host.Outcome State Fault Refusal := receive 0x0E00 r s

/-- MON_CH_GET (R490): `opMonChGet`. Returns a monitor channel's settings. -/
def execMonChGet (r : Req) (s : State) : Host.Outcome State Fault Refusal := receive 0x0E01 r s

/-- MON_SEQ_WRITE (R491): `opMonSeqWrite`. Writes the shadow host sequence table. -/
def execMonSeqWrite (r : Req) (s : State) : Host.Outcome State Fault Refusal := receive 0x0E02 r s

/-- MON_SEQ_RUN (R491): `opMonSeqRun`. Starts or stops the host sequence. -/
def execMonSeqRun (r : Req) (s : State) : Host.Outcome State Fault Refusal := receive 0x0E03 r s

/-- MON_READ (R492): `opMonRead`. Returns a channel's latest value. -/
def execMonRead (r : Req) (s : State) : Host.Outcome State Fault Refusal := receive 0x0E04 r s

/-- MON_INJECT (R474): `opMonInject`. Queues an urgent conversion of a channel. -/
def execMonInject (r : Req) (s : State) : Host.Outcome State Fault Refusal := receive 0x0E05 r s

/-- MON_SYSCAL (R476): `opMonSyscal`. Runs one step of an external-channel system calibration. -/
def execMonSyscal (r : Req) (s : State) : Host.Outcome State Fault Refusal := receive 0x0E06 r s

/-- CAL_CFG_SET (R494): `opCalCfgSet`. Sets a calibration class's step and interval, and the band-gap tolerance. -/
def execCalCfgSet (r : Req) (s : State) : Host.Outcome State Fault Refusal := receive 0x0E07 r s

/-- CAL_STATUS (R494): `opCalStatus`. Returns calibration controller status. -/
def execCalStatus (r : Req) (s : State) : Host.Outcome State Fault Refusal := receive 0x0E08 r s

/-- MON_STATUS (R495): `opMonStatus`. Returns monitor sequence status. -/
def execMonStatus (r : Req) (s : State) : Host.Outcome State Fault Refusal := receive 0x0E09 r s

/-- EV_CHAN_SET (R513): `opEvChanSet`. Frees an event channel, hands it over or sets SECURE. -/
def execEvChanSet (r : Req) (s : State) : Host.Outcome State Fault Refusal := receive 0x0F00 r s

/-- EV_CHAN_GET (R513): `opEvChanGet`. Returns a channel's owner, masks and entries. -/
def execEvChanGet (r : Req) (s : State) : Host.Outcome State Fault Refusal := receive 0x0F01 r s

/-- EV_ROUTE_ADD (R514): `opEvRouteAdd`. Adds a device entry to a channel. -/
def execEvRouteAdd (r : Req) (s : State) : Host.Outcome State Fault Refusal := receive 0x0F02 r s

/-- EV_ROUTE_DEL (R514): `opEvRouteDel`. Removes a device entry from a channel. -/
def execEvRouteDel (r : Req) (s : State) : Host.Outcome State Fault Refusal := receive 0x0F03 r s

/-- EV_FIRE (R508): `opEvFire`. Fires the channels in MASK from the executing island. -/
def execEvFire (r : Req) (s : State) : Host.Outcome State Fault Refusal := receive 0x0F04 r s

/-- EV_STATUS (R516): `opEvStatus`. Returns, and optionally clears, a channel's counters. -/
def execEvStatus (r : Req) (s : State) : Host.Outcome State Fault Refusal := receive 0x0F05 r s

/-- EV_COINC_READ (R516): `opEvCoincRead`. Returns and removes coincidence log entries. -/
def execEvCoincRead (r : Req) (s : State) : Host.Outcome State Fault Refusal := receive 0x0F06 r s

/-- FAULT_LOG_READ (R549): `opFaultLogRead`. Returns fault log entries. -/
def execFaultLogRead (r : Req) (s : State) : Host.Outcome State Fault Refusal := receive 0x1000 r s

/-- FAULT_POLICY_SET (R549): `opFaultPolicySet`. Sets TRANS_LIMIT, TRANS_WINDOW and EV_FAULT. -/
def execFaultPolicySet (r : Req) (s : State) : Host.Outcome State Fault Refusal := receive 0x1001 r s

/-- SPARE_STATUS (R550): `opSpareStatus`. Returns binding, spare and per-Quire fault status. -/
def execSpareStatus (r : Req) (s : State) : Host.Outcome State Fault Refusal := receive 0x1002 r s

/-- SELFTEST_RUN (R551): `opSelftestRun`. Runs a unit's targeted self-test without changing fault state. -/
def execSelftestRun (r : Req) (s : State) : Host.Outcome State Fault Refusal := receive 0x1003 r s

/-- UNIT_READMIT (R535): `opUnitReadmit`. Tests a retired unit and returns it to service on a pass. -/
def execUnitReadmit (r : Req) (s : State) : Host.Outcome State Fault Refusal := receive 0x1004 r s

/-- UNIT_RETIRE (R551): `opUnitRetire`. Retires a healthy unit for service. -/
def execUnitRetire (r : Req) (s : State) : Host.Outcome State Fault Refusal := receive 0x1005 r s

/-- QUIRE_MIGRATE (R541): `opQuireMigrate`. Starts moving a logical Quire's work to the spare physical Quire. -/
def execQuireMigrate (r : Req) (s : State) : Host.Outcome State Fault Refusal := receive 0x1006 r s

/-- FW_ACTIVATE (R545): `opFwActivate`. Stages the other firmware slot and hands over at the next command boundary. -/
def execFwActivate (r : Req) (s : State) : Host.Outcome State Fault Refusal := receive 0x1007 r s

/-- FW_CONFIRM (R546): `opFwConfirm`. Makes the trial firmware the active slot and advances counter 0. -/
def execFwConfirm (r : Req) (s : State) : Host.Outcome State Fault Refusal := receive 0x1008 r s

/-- MEM_ALLOC (R540): `opMemAlloc`. Allocates and zeroes a DRAM region. -/
def execMemAlloc (r : Req) (s : State) : Host.Outcome State Fault Refusal := receive 0x1009 r s

/-- MEM_FREE (R540): `opMemFree`. Frees a DRAM region and ends its users. -/
def execMemFree (r : Req) (s : State) : Host.Outcome State Fault Refusal := receive 0x100A r s

/-- MEM_INFO (R553): `opMemInfo`. Returns a region's size, owner and users. -/
def execMemInfo (r : Req) (s : State) : Host.Outcome State Fault Refusal := receive 0x100B r s

/-- ID_CERT_GET (R573): `opIdCertGet`. Returns bytes of a device certificate. -/
def execIdCertGet (r : Req) (s : State) : Host.Outcome State Fault Refusal := receive 0x1100 r s

/-- TRUST_NONCE_GET (R562): `opTrustNonceGet`. Issues a fresh nonce to the stream. -/
def execTrustNonceGet (r : Req) (s : State) : Host.Outcome State Fault Refusal := receive 0x1101 r s

/-- COLOPHON_GET (R569): `opColophonGet`. Returns a signed attestation report. -/
def execColophonGet (r : Req) (s : State) : Host.Outcome State Fault Refusal := receive 0x1102 r s

/-- CFG_LOG_READ (R570): `opCfgLogRead`. Returns configuration apply log entries. -/
def execCfgLogRead (r : Req) (s : State) : Host.Outcome State Fault Refusal := receive 0x1103 r s

/-- OWNER_KEY_SET (R565): `opOwnerKeySet`. Writes an owner public key into a slot. -/
def execOwnerKeySet (r : Req) (s : State) : Host.Outcome State Fault Refusal := receive 0x1104 r s

/-- OWNER_KEY_REVOKE (R566): `opOwnerKeyRevoke`. Revokes an owner key slot. -/
def execOwnerKeyRevoke (r : Req) (s : State) : Host.Outcome State Fault Refusal := receive 0x1105 r s

/-- OWNER_KEY_GET (R573): `opOwnerKeyGet`. Returns the key slots. -/
def execOwnerKeyGet (r : Req) (s : State) : Host.Outcome State Fault Refusal := receive 0x1106 r s

/-- OWNER_RELEASE (R567): `opOwnerRelease`. Returns the device to the unowned state. -/
def execOwnerRelease (r : Req) (s : State) : Host.Outcome State Fault Refusal := receive 0x1107 r s

/-- PRIV_SET (R568): `opPrivSet`. Sets a port's privilege. -/
def execPrivSet (r : Req) (s : State) : Host.Outcome State Fault Refusal := receive 0x1108 r s

/-- PRIV_GET (R573): `opPrivGet`. Returns the port privileges. -/
def execPrivGet (r : Req) (s : State) : Host.Outcome State Fault Refusal := receive 0x1109 r s

/-- CTR_ADVANCE (R559): `opCtrAdvance`. Advances a rollback counter. -/
def execCtrAdvance (r : Req) (s : State) : Host.Outcome State Fault Refusal := receive 0x110A r s

/-- CTR_GET (R573): `opCtrGet`. Returns the rollback counters. -/
def execCtrGet (r : Req) (s : State) : Host.Outcome State Fault Refusal := receive 0x110B r s

/-- DEBUG_UNLOCK (R571): `opDebugUnlock`. Raises the debug level with a token. -/
def execDebugUnlock (r : Req) (s : State) : Host.Outcome State Fault Refusal := receive 0x110C r s

/-- DEBUG_LOCK (R571): `opDebugLock`. Returns the debug level to 0. -/
def execDebugLock (r : Req) (s : State) : Host.Outcome State Fault Refusal := receive 0x110D r s

end Sys2Proof.Machine
end

