-- ==== Sys2Proof/Machine/Dispatch.lean ====
section
/-! DEFINITION. The meaning of every command: one arm for each constructor, each a direct call. -/
namespace Sys2Proof.Machine

def exec (i : Instr) (s : State) : Host.Outcome State Fault Refusal :=
  match i with
  | .devNop r => Sys2Proof.Machine.execDevNop r s
  | .devInfo r => Sys2Proof.Machine.execDevInfo r s
  | .devStatus r => Sys2Proof.Machine.execDevStatus r s
  | .sessionOpen r => Sys2Proof.Machine.execSessionOpen r s
  | .sessionClose r => Sys2Proof.Machine.execSessionClose r s
  | .devDeadlineSet r => Sys2Proof.Machine.execDevDeadlineSet r s
  | .devDeadlineGet r => Sys2Proof.Machine.execDevDeadlineGet r s
  | .devRestart r => Sys2Proof.Machine.execDevRestart r s
  | .devEndpaperEnter r => Sys2Proof.Machine.execDevEndpaperEnter r s
  | .devAddrSet r => Sys2Proof.Machine.execDevAddrSet r s
  | .cmdAbort r => Sys2Proof.Machine.execCmdAbort r s
  | .portStatsGet r => Sys2Proof.Machine.execPortStatsGet r s
  | .imageInfo r => Sys2Proof.Machine.execImageInfo r s
  | .imageWriteBegin r => Sys2Proof.Machine.execImageWriteBegin r s
  | .imageWriteData r => Sys2Proof.Machine.execImageWriteData r s
  | .imageCommit r => Sys2Proof.Machine.execImageCommit r s
  | .imageErase r => Sys2Proof.Machine.execImageErase r s
  | .configApply r => Sys2Proof.Machine.execConfigApply r s
  | .persSet r => Sys2Proof.Machine.execPersSet r s
  | .persGet r => Sys2Proof.Machine.execPersGet r s
  | .quireRelease r => Sys2Proof.Machine.execQuireRelease r s
  | .persChangeComplete q => Sys2Proof.Machine.execPersChangeComplete q s
  | .deadlineExpiry src tag seq => Sys2Proof.Machine.execDeadlineExpiry src tag seq s
  | .deferralDeadlineExpiry src tag seq => Sys2Proof.Machine.execDeferralDeadlineExpiry src tag seq s
  | .chainTimeout src => Sys2Proof.Machine.execChainTimeout src s
  | .timedExecute => Sys2Proof.Machine.execTimedExecute s
  | .sqTail n value entries => Sys2Proof.Machine.execSqTail n value entries s
  | .cqHead n value entries => Sys2Proof.Machine.execCqHead n value entries s
  | .ringCfg n value => Sys2Proof.Machine.execRingCfg n value s
  | .post => Sys2Proof.Machine.execPost s
  | .readyClear => Sys2Proof.Machine.execReadyClear s
  | .winCtl w => Sys2Proof.Machine.execWinCtl w s
  | .bar2Access off acc => Sys2Proof.Machine.execBar2Access off acc s
  | .dmaGo n ctl => Sys2Proof.Machine.execDmaGo n ctl s
  | .dmaStop n ctl data => Sys2Proof.Machine.execDmaStop n ctl data s
  | .dmaPassComplete n data hostOk => Sys2Proof.Machine.execDmaPassComplete n data hostOk s
  | .regWrite off data => Sys2Proof.Machine.execRegWrite off data s
  | .blockWrite data pecOk => Sys2Proof.Machine.execBlockWrite data pecOk s
  | .blockRead => Sys2Proof.Machine.execBlockRead s
  | .readByte => Sys2Proof.Machine.execReadByte s
  | .alertResponse => Sys2Proof.Machine.execAlertResponse s
  | .assemblyTimeout => Sys2Proof.Machine.execAssemblyTimeout s
  | .synLinesSet r => Sys2Proof.Machine.execSynLinesSet r s
  | .synLinesGet r => Sys2Proof.Machine.execSynLinesGet r s
  | .ctxSet r => Sys2Proof.Machine.execCtxSet r s
  | .ctxGet r => Sys2Proof.Machine.execCtxGet r s
  | .ctxPhaseShift r => Sys2Proof.Machine.execCtxPhaseShift r s
  | .envWrite r => Sys2Proof.Machine.execEnvWrite r s
  | .envRead r => Sys2Proof.Machine.execEnvRead r s
  | .paramWrite r => Sys2Proof.Machine.execParamWrite r s
  | .paramRead r => Sys2Proof.Machine.execParamRead r s
  | .seqLoad r => Sys2Proof.Machine.execSeqLoad r s
  | .seqRead r => Sys2Proof.Machine.execSeqRead r s
  | .seqConfig r => Sys2Proof.Machine.execSeqConfig r s
  | .seqRingSet r => Sys2Proof.Machine.execSeqRingSet r s
  | .seqArm r => Sys2Proof.Machine.execSeqArm r s
  | .seqGo r => Sys2Proof.Machine.execSeqGo r s
  | .seqStop r => Sys2Proof.Machine.execSeqStop r s
  | .seqStatus r => Sys2Proof.Machine.execSeqStatus r s
  | .folioRegSet r => Sys2Proof.Machine.execFolioRegSet r s
  | .stepHalt q f => Sys2Proof.Machine.execStepHalt q f s
  | .stepPlay q f => Sys2Proof.Machine.execStepPlay q f s
  | .stepHold q f => Sys2Proof.Machine.execStepHold q f s
  | .stepAcquire q f => Sys2Proof.Machine.execStepAcquire q f s
  | .stepWaitUntil q f => Sys2Proof.Machine.execStepWaitUntil q f s
  | .stepWaitEvent q f => Sys2Proof.Machine.execStepWaitEvent q f s
  | .stepBranch q f => Sys2Proof.Machine.execStepBranch q f s
  | .stepJump q f => Sys2Proof.Machine.execStepJump q f s
  | .stepRepeatBegin q f => Sys2Proof.Machine.execStepRepeatBegin q f s
  | .stepRepeatEnd q f => Sys2Proof.Machine.execStepRepeatEnd q f s
  | .stepSetFrame q f => Sys2Proof.Machine.execStepSetFrame q f s
  | .stepShiftPhase q f => Sys2Proof.Machine.execStepShiftPhase q f s
  | .stepEmitEvent q f => Sys2Proof.Machine.execStepEmitEvent q f s
  | .waitUntilEnd q f => Sys2Proof.Machine.execWaitUntilEnd q f s
  | .waitEventTimeout q f => Sys2Proof.Machine.execWaitEventTimeout q f s
  | .trigTimeout q f => Sys2Proof.Machine.execTrigTimeout q f s
  | .folioLate q f => Sys2Proof.Machine.execFolioLate q f s
  | .fastForwardResume q f => Sys2Proof.Machine.execFastForwardResume q f s
  | .refillFetch q f => Sys2Proof.Machine.execRefillFetch q f s
  | .ringWrap q f => Sys2Proof.Machine.execRingWrap q f s
  | .sequenceBoundary q => Sys2Proof.Machine.execSequenceBoundary q s
  | .roRouteSet r => Sys2Proof.Machine.execRoRouteSet r s
  | .roRouteGet r => Sys2Proof.Machine.execRoRouteGet r s
  | .rsetSet r => Sys2Proof.Machine.execRsetSet r s
  | .rsetGet r => Sys2Proof.Machine.execRsetGet r s
  | .discSet r => Sys2Proof.Machine.execDiscSet r s
  | .discGet r => Sys2Proof.Machine.execDiscGet r s
  | .kernelWrite r => Sys2Proof.Machine.execKernelWrite r s
  | .kernelRead r => Sys2Proof.Machine.execKernelRead r s
  | .roStreamSet r => Sys2Proof.Machine.execRoStreamSet r s
  | .roStatus r => Sys2Proof.Machine.execRoStatus r s
  | .weaveSet r => Sys2Proof.Machine.execWeaveSet r s
  | .weaveGet r => Sys2Proof.Machine.execWeaveGet r s
  | .covarRun r => Sys2Proof.Machine.execCovarRun r s
  | .covarRead r => Sys2Proof.Machine.execCovarRead r s
  | .covarDone q x => Sys2Proof.Machine.execCovarDone q x s
  | .windowOpen q f => Sys2Proof.Machine.execWindowOpen q f s
  | .windowEnd q f x => Sys2Proof.Machine.execWindowEnd q f x s
  | .fbLoad r => Sys2Proof.Machine.execFbLoad r s
  | .fbRead r => Sys2Proof.Machine.execFbRead r s
  | .fbMemWrite r => Sys2Proof.Machine.execFbMemWrite r s
  | .fbMemRead r => Sys2Proof.Machine.execFbMemRead r s
  | .fbConfig r => Sys2Proof.Machine.execFbConfig r s
  | .fbRouteSet r => Sys2Proof.Machine.execFbRouteSet r s
  | .fbRouteGet r => Sys2Proof.Machine.execFbRouteGet r s
  | .fbFlagOwnerSet r => Sys2Proof.Machine.execFbFlagOwnerSet r s
  | .fbFlagSet r => Sys2Proof.Machine.execFbFlagSet r s
  | .fbFlagGet r => Sys2Proof.Machine.execFbFlagGet r s
  | .fbStart r => Sys2Proof.Machine.execFbStart r s
  | .fbStop r => Sys2Proof.Machine.execFbStop r s
  | .fbSwap r => Sys2Proof.Machine.execFbSwap r s
  | .fbStatus r => Sys2Proof.Machine.execFbStatus r s
  | .coreNop q k => Sys2Proof.Machine.execCoreNop q k s
  | .corePar q k => Sys2Proof.Machine.execCorePar q k s
  | .coreMpy q k => Sys2Proof.Machine.execCoreMpy q k s
  | .coreMac q k => Sys2Proof.Machine.execCoreMac q k s
  | .coreMsu q k => Sys2Proof.Machine.execCoreMsu q k s
  | .coreAdd q k => Sys2Proof.Machine.execCoreAdd q k s
  | .coreSub q k => Sys2Proof.Machine.execCoreSub q k s
  | .coreAnd q k => Sys2Proof.Machine.execCoreAnd q k s
  | .coreOr q k => Sys2Proof.Machine.execCoreOr q k s
  | .coreXor q k => Sys2Proof.Machine.execCoreXor q k s
  | .coreShl q k => Sys2Proof.Machine.execCoreShl q k s
  | .coreAsr q k => Sys2Proof.Machine.execCoreAsr q k s
  | .coreLsr q k => Sys2Proof.Machine.execCoreLsr q k s
  | .coreCmp q k => Sys2Proof.Machine.execCoreCmp q k s
  | .coreMov q k => Sys2Proof.Machine.execCoreMov q k s
  | .coreMin q k => Sys2Proof.Machine.execCoreMin q k s
  | .coreMax q k => Sys2Proof.Machine.execCoreMax q k s
  | .coreLdi q k => Sys2Proof.Machine.execCoreLdi q k s
  | .coreAddi q k => Sys2Proof.Machine.execCoreAddi q k s
  | .coreAndi q k => Sys2Proof.Machine.execCoreAndi q k s
  | .coreOri q k => Sys2Proof.Machine.execCoreOri q k s
  | .coreXori q k => Sys2Proof.Machine.execCoreXori q k s
  | .coreCmpi q k => Sys2Proof.Machine.execCoreCmpi q k s
  | .coreTsti q k => Sys2Proof.Machine.execCoreTsti q k s
  | .coreShli q k => Sys2Proof.Machine.execCoreShli q k s
  | .coreAsri q k => Sys2Proof.Machine.execCoreAsri q k s
  | .coreClra q k => Sys2Proof.Machine.execCoreClra q k s
  | .coreMvda q k => Sys2Proof.Machine.execCoreMvda q k s
  | .coreMvah q k => Sys2Proof.Machine.execCoreMvah q k s
  | .coreMval q k => Sys2Proof.Machine.execCoreMval q k s
  | .coreSha q k => Sys2Proof.Machine.execCoreSha q k s
  | .coreRnda q k => Sys2Proof.Machine.execCoreRnda q k s
  | .coreSata q k => Sys2Proof.Machine.execCoreSata q k s
  | .coreAdda q k => Sys2Proof.Machine.execCoreAdda q k s
  | .coreSuba q k => Sys2Proof.Machine.execCoreSuba q k s
  | .coreTsta q k => Sys2Proof.Machine.execCoreTsta q k s
  | .coreMvdl q k => Sys2Proof.Machine.execCoreMvdl q k s
  | .coreLd q k => Sys2Proof.Machine.execCoreLd q k s
  | .coreSt q k => Sys2Proof.Machine.execCoreSt q k s
  | .coreMovs q k => Sys2Proof.Machine.execCoreMovs q k s
  | .coreLds q k => Sys2Proof.Machine.execCoreLds q k s
  | .coreB q k => Sys2Proof.Machine.execCoreB q k s
  | .coreCall q k => Sys2Proof.Machine.execCoreCall q k s
  | .coreRet q k => Sys2Proof.Machine.execCoreRet q k s
  | .coreRep q k => Sys2Proof.Machine.execCoreRep q k s
  | .coreWait q k => Sys2Proof.Machine.execCoreWait q k s
  | .coreWaitRelease q k => Sys2Proof.Machine.execCoreWaitRelease q k s
  | .coreWaitTimeout q k => Sys2Proof.Machine.execCoreWaitTimeout q k s
  | .corePop q k => Sys2Proof.Machine.execCorePop q k s
  | .coreFlag q k => Sys2Proof.Machine.execCoreFlag q k s
  | .coreFlagg q k => Sys2Proof.Machine.execCoreFlagg q k s
  | .coreSendf q k => Sys2Proof.Machine.execCoreSendf q k s
  | .coreEvout q k => Sys2Proof.Machine.execCoreEvout q k s
  | .coreSafe q k => Sys2Proof.Machine.execCoreSafe q k s
  | .coreHalt q k => Sys2Proof.Machine.execCoreHalt q k s
  | .sendQueueLaunch q => Sys2Proof.Machine.execSendQueueLaunch q s
  | .feedbackFrameReceive q => Sys2Proof.Machine.execFeedbackFrameReceive q s
  | .intakeSrcSet r => Sys2Proof.Machine.execIntakeSrcSet r s
  | .intakeSrcGet r => Sys2Proof.Machine.execIntakeSrcGet r s
  | .intakeDelaySet r => Sys2Proof.Machine.execIntakeDelaySet r s
  | .chanSet r => Sys2Proof.Machine.execChanSet r s
  | .chanGet r => Sys2Proof.Machine.execChanGet r s
  | .chanCoefWrite r => Sys2Proof.Machine.execChanCoefWrite r s
  | .chanCoefRead r => Sys2Proof.Machine.execChanCoefRead r s
  | .gainWrite r => Sys2Proof.Machine.execGainWrite r s
  | .gainRead r => Sys2Proof.Machine.execGainRead r s
  | .ctSet r => Sys2Proof.Machine.execCtSet r s
  | .ctGet r => Sys2Proof.Machine.execCtGet r s
  | .intakeStatsGet r => Sys2Proof.Machine.execIntakeStatsGet r s
  | .intakeFrame lane whole bytes => Sys2Proof.Machine.execIntakeFrame lane whole bytes s
  | .channelise q adc => Sys2Proof.Machine.execChannelise q adc s
  | .blockRelease => Sys2Proof.Machine.execBlockRelease s
  | .ctWrap => Sys2Proof.Machine.execCtWrap s
  | .corrPlanSet r => Sys2Proof.Machine.execCorrPlanSet r s
  | .corrPlanGet r => Sys2Proof.Machine.execCorrPlanGet r s
  | .corrExportSet r => Sys2Proof.Machine.execCorrExportSet r s
  | .corrStart r => Sys2Proof.Machine.execCorrStart r s
  | .corrStop r => Sys2Proof.Machine.execCorrStop r s
  | .beamPlanSet r => Sys2Proof.Machine.execBeamPlanSet r s
  | .beamPlanGet r => Sys2Proof.Machine.execBeamPlanGet r s
  | .beamExportSet r => Sys2Proof.Machine.execBeamExportSet r s
  | .beamWeightCommit r => Sys2Proof.Machine.execBeamWeightCommit r s
  | .beamStart r => Sys2Proof.Machine.execBeamStart r s
  | .beamStop r => Sys2Proof.Machine.execBeamStop r s
  | .planStatus r => Sys2Proof.Machine.execPlanStatus r s
  | .blockBoundary => Sys2Proof.Machine.execBlockBoundary s
  | .channelAdd => Sys2Proof.Machine.execChannelAdd s
  | .integrationFinished => Sys2Proof.Machine.execIntegrationFinished s
  | .exportComplete => Sys2Proof.Machine.execExportComplete s
  | .overrun sentRecords => Sys2Proof.Machine.execOverrun sentRecords s
  | .beamBlockOutput => Sys2Proof.Machine.execBeamBlockOutput s
  | .dacLineSet r => Sys2Proof.Machine.execDacLineSet r s
  | .dacLineGet r => Sys2Proof.Machine.execDacLineGet r s
  | .rfMuteSet r => Sys2Proof.Machine.execRfMuteSet r s
  | .rfUnmute r => Sys2Proof.Machine.execRfUnmute r s
  | .rfMutePolicySet r => Sys2Proof.Machine.execRfMutePolicySet r s
  | .adcLineSet r => Sys2Proof.Machine.execAdcLineSet r s
  | .adcLineGet r => Sys2Proof.Machine.execAdcLineGet r s
  | .convCalPolicySet r => Sys2Proof.Machine.execConvCalPolicySet r s
  | .convCalRun r => Sys2Proof.Machine.execConvCalRun r s
  | .convStatus r => Sys2Proof.Machine.execConvStatus r s
  | .rfMuteN low => Sys2Proof.Machine.execRfMuteN low s
  | .muteTakeEffect n => Sys2Proof.Machine.execMuteTakeEffect n s
  | .switchOpen n => Sys2Proof.Machine.execSwitchOpen n s
  | .unmuteResume n => Sys2Proof.Machine.execUnmuteResume n s
  | .lineSettle n => Sys2Proof.Machine.execLineSettle n s
  | .therm c milliC => Sys2Proof.Machine.execTherm c milliC s
  | .dacBackgroundCal n m1 m2 => Sys2Proof.Machine.execDacBackgroundCal n m1 m2 s
  | .referenceCalibration n m1 m2 => Sys2Proof.Machine.execReferenceCalibration n m1 m2 s
  | .laneCfgSet r => Sys2Proof.Machine.execLaneCfgSet r s
  | .laneStatus r => Sys2Proof.Machine.execLaneStatus r s
  | .laneEqSet r => Sys2Proof.Machine.execLaneEqSet r s
  | .laneTest r => Sys2Proof.Machine.execLaneTest r s
  | .laneSwap r => Sys2Proof.Machine.execLaneSwap r s
  | .portCfgSet r => Sys2Proof.Machine.execPortCfgSet r s
  | .portStatus r => Sys2Proof.Machine.execPortStatus r s
  | .linkTopoSet r => Sys2Proof.Machine.execLinkTopoSet r s
  | .linkTopoGet r => Sys2Proof.Machine.execLinkTopoGet r s
  | .peerCmdSend r => Sys2Proof.Machine.execPeerCmdSend r s
  | .bulkRxSet r => Sys2Proof.Machine.execBulkRxSet r s
  | .bulkRxStatus r => Sys2Proof.Machine.execBulkRxStatus r s
  | .laneUp n => Sys2Proof.Machine.execLaneUp n s
  | .trainingTimeout n => Sys2Proof.Machine.execTrainingTimeout n s
  | .laneError n code disp silent => Sys2Proof.Machine.execLaneError n code disp silent s
  | .laneSelftestDone n errors => Sys2Proof.Machine.execLaneSelftestDone n errors s
  | .laneRetry n => Sys2Proof.Machine.execLaneRetry n s
  | .skipSend n adjusted => Sys2Proof.Machine.execSkipSend n adjusted s
  | .identSend n => Sys2Proof.Machine.execIdentSend n s
  | .identReceive n bytes => Sys2Proof.Machine.execIdentReceive n bytes s
  | .identStale n => Sys2Proof.Machine.execIdentStale n s
  | .cmdFrameReceive p whole bytes => Sys2Proof.Machine.execCmdFrameReceive p whole bytes s
  | .feedbackFrameLink p whole bytes => Sys2Proof.Machine.execFeedbackFrameLink p whole bytes s
  | .bulkFrameReceive p whole bytes => Sys2Proof.Machine.execBulkFrameReceive p whole bytes s
  | .eventFrameReceive p whole bytes => Sys2Proof.Machine.execEventFrameReceive p whole bytes s
  | .reorderHoldExpiry p => Sys2Proof.Machine.execReorderHoldExpiry p s
  | .peerDeadline p index => Sys2Proof.Machine.execPeerDeadline p index s
  | .timeGet r => Sys2Proof.Machine.execTimeGet r s
  | .timeSet r => Sys2Proof.Machine.execTimeSet r s
  | .timeCfgSet r => Sys2Proof.Machine.execTimeCfgSet r s
  | .timeCfgGet r => Sys2Proof.Machine.execTimeCfgGet r s
  | .timeStatus r => Sys2Proof.Machine.execTimeStatus r s
  | .timeStepAuth r => Sys2Proof.Machine.execTimeStepAuth r s
  | .timeAsymSet r => Sys2Proof.Machine.execTimeAsymSet r s
  | .timePortStatus r => Sys2Proof.Machine.execTimePortStatus r s
  | .timeTxtsRead r => Sys2Proof.Machine.execTimeTxtsRead r s
  | .trigSet r => Sys2Proof.Machine.execTrigSet r s
  | .trigGet r => Sys2Proof.Machine.execTrigGet r s
  | .trigInRead r => Sys2Proof.Machine.execTrigInRead r s
  | .launchSet r => Sys2Proof.Machine.execLaunchSet r s
  | .launchCancel r => Sys2Proof.Machine.execLaunchCancel r s
  | .launchStatus r => Sys2Proof.Machine.execLaunchStatus r s
  | .timeAnnounce p x => Sys2Proof.Machine.execTimeAnnounce p x s
  | .timeSync p x => Sys2Proof.Machine.execTimeSync p x s
  | .timeFollowUp p x => Sys2Proof.Machine.execTimeFollowUp p x s
  | .timeDelayReq p x => Sys2Proof.Machine.execTimeDelayReq p x s
  | .timeDelayResp p x => Sys2Proof.Machine.execTimeDelayResp p x s
  | .syncInterval p => Sys2Proof.Machine.execSyncInterval p s
  | .announceInterval => Sys2Proof.Machine.execAnnounceInterval s
  | .masterTimeout p => Sys2Proof.Machine.execMasterTimeout p s
  | .withdrawIgnoreEnd p => Sys2Proof.Machine.execWithdrawIgnoreEnd p s
  | .exchLost p => Sys2Proof.Machine.execExchLost p s
  | .stepApply => Sys2Proof.Machine.execStepApply s
  | .trigPulse n => Sys2Proof.Machine.execTrigPulse n s
  | .trigInputEdge n high time => Sys2Proof.Machine.execTrigInputEdge n high time s
  | .slotLaunch p j => Sys2Proof.Machine.execSlotLaunch p j s
  | .refCfgSet r => Sys2Proof.Machine.execRefCfgSet r s
  | .refStatus r => Sys2Proof.Machine.execRefStatus r s
  | .freqMeasure r => Sys2Proof.Machine.execFreqMeasure r s
  | .freqMeasureDone count => Sys2Proof.Machine.execFreqMeasureDone count s
  | .islandStatus r => Sys2Proof.Machine.execIslandStatus r s
  | .dvfsSet r => Sys2Proof.Machine.execDvfsSet r s
  | .dvfsGet r => Sys2Proof.Machine.execDvfsGet r s
  | .energyRead r => Sys2Proof.Machine.execEnergyRead r s
  | .workRead r => Sys2Proof.Machine.execWorkRead r s
  | .supplyCfgSet r => Sys2Proof.Machine.execSupplyCfgSet r s
  | .supplyStatus r => Sys2Proof.Machine.execSupplyStatus r s
  | .qualificationWindowEnd isRec locked nom ppb => Sys2Proof.Machine.execQualificationWindowEnd isRec locked nom ppb s
  | .missingEdge isRec output => Sys2Proof.Machine.execMissingEdge isRec output s
  | .holdoverMaxExpiry => Sys2Proof.Machine.execHoldoverMaxExpiry s
  | .liveSwitch => Sys2Proof.Machine.execLiveSwitch s
  | .forcedRelease gap => Sys2Proof.Machine.execForcedRelease gap s
  | .slip k => Sys2Proof.Machine.execSlip k s
  | .pinEnter q => Sys2Proof.Machine.execPinEnter q s
  | .dvfsTransitionDone p => Sys2Proof.Machine.execDvfsTransitionDone p s
  | .vauxGood => Sys2Proof.Machine.execVauxGood s
  | .vauxLoss => Sys2Proof.Machine.execVauxLoss s
  | .railGood r => Sys2Proof.Machine.execRailGood r s
  | .railLoss e => Sys2Proof.Machine.execRailLoss e s
  | .bootSupplyTimeout => Sys2Proof.Machine.execBootSupplyTimeout s
  | .sysRstN p => Sys2Proof.Machine.execSysRstN p s
  | .perstN low => Sys2Proof.Machine.execPerstN low s
  | .firmwareVerified => Sys2Proof.Machine.execFirmwareVerified s
  | .bootSelftestComplete failed => Sys2Proof.Machine.execBootSelftestComplete failed s
  | .temperatureShutdown milliC => Sys2Proof.Machine.execTemperatureShutdown milliC s
  | .hardwareThermalTrip milliC => Sys2Proof.Machine.execHardwareThermalTrip milliC s
  | .dramRefreshDouble stack above => Sys2Proof.Machine.execDramRefreshDouble stack above s
  | .capConfig r => Sys2Proof.Machine.execCapConfig r s
  | .capConfigGet r => Sys2Proof.Machine.execCapConfigGet r s
  | .capTrigSet r => Sys2Proof.Machine.execCapTrigSet r s
  | .capMaskWrite r => Sys2Proof.Machine.execCapMaskWrite r s
  | .capArm r => Sys2Proof.Machine.execCapArm r s
  | .capForce r => Sys2Proof.Machine.execCapForce r s
  | .capStop r => Sys2Proof.Machine.execCapStop r s
  | .capStatus r => Sys2Proof.Machine.execCapStatus r s
  | .capHdrRead r => Sys2Proof.Machine.execCapHdrRead r s
  | .captureTrigger n x => Sys2Proof.Machine.execCaptureTrigger n x s
  | .segmentEnd n x => Sys2Proof.Machine.execSegmentEnd n x s
  | .holdoffEnd n x => Sys2Proof.Machine.execHoldoffEnd n x s
  | .tinInputSet r => Sys2Proof.Machine.execTinInputSet r s
  | .tinInputGet r => Sys2Proof.Machine.execTinInputGet r s
  | .tinCalRun r => Sys2Proof.Machine.execTinCalRun r s
  | .tinCalDone n hits1 hits2 milliC => Sys2Proof.Machine.execTinCalDone n hits1 hits2 milliC s
  | .tinCalRead r => Sys2Proof.Machine.execTinCalRead r s
  | .tinMeasSet r => Sys2Proof.Machine.execTinMeasSet r s
  | .tinMeasStart r => Sys2Proof.Machine.execTinMeasStart r s
  | .tinMeasStop r => Sys2Proof.Machine.execTinMeasStop r s
  | .tinStatsRead r => Sys2Proof.Machine.execTinStatsRead r s
  | .tinStampRead r => Sys2Proof.Machine.execTinStampRead r s
  | .tinStatus r => Sys2Proof.Machine.execTinStatus r s
  | .tinEdge src rising tclk taps held milliC => Sys2Proof.Machine.execTinEdge src rising tclk taps held milliC s
  | .noStop n => Sys2Proof.Machine.execNoStop n s
  | .biasSet r => Sys2Proof.Machine.execBiasSet r s
  | .biasGet r => Sys2Proof.Machine.execBiasGet r s
  | .biasRangeSet r => Sys2Proof.Machine.execBiasRangeSet r s
  | .rangeRelease n => Sys2Proof.Machine.execRangeRelease n s
  | .biasGenSet r => Sys2Proof.Machine.execBiasGenSet r s
  | .biasTableWrite r => Sys2Proof.Machine.execBiasTableWrite r s
  | .biasSafetySet r => Sys2Proof.Machine.execBiasSafetySet r s
  | .biasStatus r => Sys2Proof.Machine.execBiasStatus r s
  | .biasCalRun r => Sys2Proof.Machine.execBiasCalRun r s
  | .biasUpdate => Sys2Proof.Machine.execBiasUpdate s
  | .bclrN low => Sys2Proof.Machine.execBclrN low s
  | .biasOverload n on => Sys2Proof.Machine.execBiasOverload n on s
  | .powerUpRamp n => Sys2Proof.Machine.execPowerUpRamp n s
  | .monChSet r => Sys2Proof.Machine.execMonChSet r s
  | .monChGet r => Sys2Proof.Machine.execMonChGet r s
  | .monSeqWrite r => Sys2Proof.Machine.execMonSeqWrite r s
  | .monSeqRun r => Sys2Proof.Machine.execMonSeqRun r s
  | .monRead r => Sys2Proof.Machine.execMonRead r s
  | .monInject r => Sys2Proof.Machine.execMonInject r s
  | .monSyscal r => Sys2Proof.Machine.execMonSyscal r s
  | .calCfgSet r => Sys2Proof.Machine.execCalCfgSet r s
  | .calStatus r => Sys2Proof.Machine.execCalStatus r s
  | .monStatus r => Sys2Proof.Machine.execMonStatus r s
  | .systemSlot x => Sys2Proof.Machine.execSystemSlot x s
  | .hostSlot x => Sys2Proof.Machine.execHostSlot x s
  | .bandgapCompare a b => Sys2Proof.Machine.execBandgapCompare a b s
  | .correctionInterval k => Sys2Proof.Machine.execCorrectionInterval k s
  | .evChanSet r => Sys2Proof.Machine.execEvChanSet r s
  | .evChanGet r => Sys2Proof.Machine.execEvChanGet r s
  | .evRouteAdd r => Sys2Proof.Machine.execEvRouteAdd r s
  | .evRouteDel r => Sys2Proof.Machine.execEvRouteDel r s
  | .evFire r => Sys2Proof.Machine.execEvFire r s
  | .evStatus r => Sys2Proof.Machine.execEvStatus r s
  | .evCoincRead r => Sys2Proof.Machine.execEvCoincRead r s
  | .evFireWrite r value => Sys2Proof.Machine.execEvFireWrite r value s
  | .eventActivation k more => Sys2Proof.Machine.execEventActivation k more s
  | .faultLogRead r => Sys2Proof.Machine.execFaultLogRead r s
  | .faultPolicySet r => Sys2Proof.Machine.execFaultPolicySet r s
  | .spareStatus r => Sys2Proof.Machine.execSpareStatus r s
  | .selftestRun r => Sys2Proof.Machine.execSelftestRun r s
  | .unitReadmit r => Sys2Proof.Machine.execUnitReadmit r s
  | .unitRetire r => Sys2Proof.Machine.execUnitRetire r s
  | .quireMigrate r => Sys2Proof.Machine.execQuireMigrate r s
  | .precopyDone dirty => Sys2Proof.Machine.execPrecopyDone dirty s
  | .migrationSwitch => Sys2Proof.Machine.execMigrationSwitch s
  | .fwActivate r => Sys2Proof.Machine.execFwActivate r s
  | .handoverPause => Sys2Proof.Machine.execHandoverPause s
  | .handoverReadyTimeout host => Sys2Proof.Machine.execHandoverReadyTimeout host s
  | .fwConfirm r => Sys2Proof.Machine.execFwConfirm r s
  | .trialTimeout => Sys2Proof.Machine.execTrialTimeout s
  | .watchdogExpiry => Sys2Proof.Machine.execWatchdogExpiry s
  | .lockstepMismatch => Sys2Proof.Machine.execLockstepMismatch s
  | .memAlloc r => Sys2Proof.Machine.execMemAlloc r s
  | .memFree r => Sys2Proof.Machine.execMemFree r s
  | .memInfo r => Sys2Proof.Machine.execMemInfo r s
  | .errorDetected kind phys detail lost page => Sys2Proof.Machine.execErrorDetected kind phys detail lost page s
  | .selftestDone k pass => Sys2Proof.Machine.execSelftestDone k pass s
  | .spareMove k => Sys2Proof.Machine.execSpareMove k s
  | .idCertGet r => Sys2Proof.Machine.execIdCertGet r s
  | .trustNonceGet r => Sys2Proof.Machine.execTrustNonceGet r s
  | .nonceExpiry src => Sys2Proof.Machine.execNonceExpiry src s
  | .colophonGet r => Sys2Proof.Machine.execColophonGet r s
  | .cfgLogRead r => Sys2Proof.Machine.execCfgLogRead r s
  | .ownerKeySet r => Sys2Proof.Machine.execOwnerKeySet r s
  | .ownerKeyRevoke r => Sys2Proof.Machine.execOwnerKeyRevoke r s
  | .ownerKeyGet r => Sys2Proof.Machine.execOwnerKeyGet r s
  | .ownerRelease r => Sys2Proof.Machine.execOwnerRelease r s
  | .privSet r => Sys2Proof.Machine.execPrivSet r s
  | .privGet r => Sys2Proof.Machine.execPrivGet r s
  | .ctrAdvance r => Sys2Proof.Machine.execCtrAdvance r s
  | .ctrGet r => Sys2Proof.Machine.execCtrGet r s
  | .debugUnlock r => Sys2Proof.Machine.execDebugUnlock r s
  | .debugLock r => Sys2Proof.Machine.execDebugLock r s
  | .flashOperationDone w ok => Sys2Proof.Machine.execFlashOperationDone w ok s
  | .regionZeroed h => Sys2Proof.Machine.execRegionZeroed h s
  | .laneTestEnd n errors => Sys2Proof.Machine.execLaneTestEnd n errors s
  | .firmwareStaged ok => Sys2Proof.Machine.execFirmwareStaged ok s
  | .newFirmwareReady host => Sys2Proof.Machine.execNewFirmwareReady host s
  | .fabricStall port => Sys2Proof.Machine.execFabricStall port s
  | .adcCalDue n => Sys2Proof.Machine.execAdcCalDue n s
  | .biasChipletFault on => Sys2Proof.Machine.execBiasChipletFault on s
  | .intPllLock => Sys2Proof.Machine.execIntPllLock s

end Sys2Proof.Machine
end

