-- ==== Sys2Proof/Machine/Accept.lean ====
section
/-! DEFINITION. The terms in which statements speak of a packet that stands alone and passes every check of R40: the state that has taken it, the
conditions, and what the block then does. Nothing of the machine calls these. -/
namespace Sys2Proof.Machine

/-- The packet of a request (R35). -/
def packetOf (code : Nat) (r : Req) : Pkt := { code := code, req := r }

/-- The state that has taken a packet's sequence number and keeps a place for its reply (R41, R61). -/
def State.taken (s : State) (p : Pkt) : State :=
  ((s.reserve p.req.src false).takeSeq p).onStream p.req.src fun t => { t with chain := [] }

/-- No stop of the device for want of a coherent reference is due (R408). -/
def State.NotStopping (s : State) : Prop := ∀ t, s.clk.stopAt = some t → s.now < t

/-- Steps 1 to 4 of R40 and the flags of a packet that is neither TIMED nor in a chain: the table of streams is in its canonical form, its transport reaches the device, commands are processed,
no stop of the device for want of a reference is due (R408), its SEQ is the expected one, and FAST is set exactly where its opcode is FAST. -/
structure Arrives (code : Nat) (sp : OpSpec) (r : Req) (s : State) : Prop where
  streams : twf .reset s.dev.streams = true
  reaches : s.reaches r.src = true
  running : s.pausedFor (packetOf code r) = false
  notStopping : s.NotStopping
  seq : r.seq = (s.stream r.src).expect
  noChain : (s.stream r.src).chain = []
  plain : (packetOf code r).timed = false ∧ (packetOf code r).chained = false
  fast : (packetOf code r).fast = sp.fast
  fastPlain : (sp.fast && (packetOf code r).signed) = false

/-- A packet passes steps 5 to 13 of R40: `s` is the state that has taken it, `t` the one after its token has been judged (R46), `cs` its commands,
one for each object that it names (R7). -/
structure Passes (code : Nat) (sp : OpSpec) (r : Req) (o : Obj) (cs : List Cmd) (s t : State) : Prop where
  length : ¬ r.params.length < (packetOf code r).extra ∧ sp.fits (r.params.length - (packetOf code r).extra) = true
  object : Obj.ofId r.object.toNat = some o ∧ sp.takes o = true
  cmds : cs = (packetOf code r).cmds s.live o ∧ cs ≠ []
  objects : ∀ c ∈ cs, sp.objOk c.obj = true
  port : ∀ c ∈ cs, sp.portErr c s = none
  token : ∀ c, cs.head? = some c → sp.tokenErr c s = (t, none)
  state : ∀ c ∈ cs, sp.stateErr c t = none
  range : ∀ c ∈ cs, c.range (sp.fields c t) = none
  more : ∀ c ∈ cs, sp.more c t = none
  reg : sp.regOver o.wild t cs = none
  busy : ∀ c ∈ cs, sp.busyErr c t = none
  mailbox : r.src = .mailbox → t.dev.mbox.places < 8
  endpaper : t.dev.st = .endpaper → (packetOf code r).isEp = true

/-- The resources that the commands change (R52). -/
def OpSpec.allKeys (sp : OpSpec) (cs : List Cmd) : List Nat := if sp.changes then cs.flatMap sp.keys else []

/-- What the block does with a packet that has passed: it claims what the packet changes (R52), the opcode has its effect on every object, in
order, and the reply goes out (R39, R43); an opcode that replies first (R72) has its effect after its reply. -/
def performed (code : Nat) (sp : OpSpec) (r : Req) (cs : List Cmd) (t : State) : State :=
  let p := packetOf code r
  let t0 := t.claim { sp := sp, cmds := cs } r.src
  (if sp.first then (sp.runAll (t0.reply p Status.ok false []) cs).1
    else (sp.runAll t0 cs).1.respond p (sp.allKeys cs) (sp.runAll t0 cs).2).raisePoints

end Sys2Proof.Machine
end

