-- ==== Sys2Proof/Machine/Terms.lean ====
section
/-! DEFINITION. The terms in which statements speak of a step word of a Folio and of an instruction of a feedback core. Nothing of the machine calls
these. -/
namespace Sys2Proof.Machine

/-- The row `mk` of the opcode `code`: the opcode is `sp`, and in every state every packet of it that arrives and passes its checks, and that no fault of
flash or of a spare stops (R48), has the effect of `sp` on each of its objects and its reply. -/
def Completes (mk : Req → Instr) (code : Nat) (sp : OpSpec) : Prop :=
  specOf code = some sp ∧
  ∀ (r : Req) (o : Obj) (cs : List Cmd) (s t : State), Arrives code sp r s → Passes code sp r o cs (s.taken (packetOf code r)) t →
    (∀ e, (sp.runAll (t.claim { sp := sp, cmds := cs } r.src) cs).2 ≠ .fail e) →
    Machine.exec (mk r) s = .next (performed code sp r cs t)

/-- Folio `f` of Quire `q` runs and its next word is `x`: no halt stands for its boundary (R107, R126). -/
structure Runs (s : State) (q f : Nat) (x : StepWord) : Prop where
  running : (s.folio q f).st = .running
  goes : (s.folio q f).halting = none
  word : (s.folio q f).word.bind decodeStep = some x

/-- The Folio has nothing that would make its next timed step wait or start late: the step comes at its boundary (R95, R101, R110). -/
structure OnTime (s : State) (q f : Nat) : Prop where
  noWait : (s.folio q f).wait = none
  noLate : (s.folio q f).pendLate = none
  inTime : (s.folio q f).taken + 2 ≤ (s.folio q f).boundary

/-- Folio `f` is LATE and its schedule is still behind its sequencer, its next word being `x` (R110, R111). -/
structure Behind (s : State) (q f : Nat) (x : StepWord) : Prop where
  late : (s.folio q f).st = .late
  goes : (s.folio q f).halting = none
  word : (s.folio q f).word.bind decodeStep = some x
  behind : s.canResume (s.folio q f) = false

/-- Core `k` of Quire `q` is about to issue `w`: the Quire is in CONTROL, the core RUNNING, and `w` stands at its PC (R176, R189). -/
structure Issues (s : State) (q k : Nat) (w : CoreWord) : Prop where
  running : (s.core q k).st = .running
  control : s.pers q = .control
  word : decodeCore ((s.core q k).word (s.core q k).pc) = some w

/-- The state in which a core issues an instruction with the OPC `opc`: device time stands at the start of the cycle, the instruction is counted. -/
def issueState (s : State) (q k opc : Nat) : State :=
  (s.advanceTo ((s.core q k).next * uCycle)).onCore q k fun c =>
    { c with issued := (c.issued + 1) % 2 ^ 64, safeSt := if opc = 0x2E ∧ c.safeSt = 1 then 2 else 0 }

/-- An instruction with the OPC `opc` leaves its core as `g` makes it of the core in the issue state; an execution past address 4,095 faults
(R176). -/
def coreStep (s : State) (q k opc : Nat) (g : FbCore → FbCore) : State :=
  let s1 := issueState s q k opc
  (s1.onCore q k fun _ => g (s1.core q k)).corePast q k

/-- An ALU result in register `d` with the new status, one cycle later. -/
def FbCore.result (c : FbCore) (d : Nat) (v : BitVec 16) (sr : CSr) : FbCore := { c.setD d v with sr := sr }.after 1

/-- A core is well-formed: its register files have their sizes, its two stacks are no deeper than four, everything that it can go on to lies in its
program memory or just past it, and while it runs its PC lies inside (R162 to R176, R190). -/
structure CoreWf (c : FbCore) : Prop where
  d : c.d.length = 8
  cursors : c.x.length = 4 ∧ c.y.length = 4 ∧ c.wx.length = 4 ∧ c.wy.length = 4
  inputs : c.eilat.length = 4 ∧ c.ifd.length = 3
  calls : c.calls.length ≤ 4 ∧ ∀ t ∈ c.calls, t ≤ 4096
  reps : c.reps.length ≤ 4 ∧ ∀ r ∈ c.reps, r.start ≤ 4096
  swap : ∀ e, c.swap = some e → e.1 < 4096
  pc : c.pc ≤ 4096 ∧ (c.st = .running → c.pc < 4096)

/-- Core `k` of Quire `q` is well-formed, and the tables that lead to it are in their canonical form. -/
structure CoreReady (s : State) (q k : Nat) : Prop where
  quires : twf FbQuire.reset s.fb = true
  cores : twf FbCore.reset (s.fbq q).cores = true
  core : CoreWf (s.core q k)

/-- The rows of the instructions of core `k` of Quire `q`. -/
def coreRows (q : Fin 16) (k : Fin 4) : List Instr :=
  [.coreNop q k, .corePar q k, .coreMpy q k, .coreMac q k, .coreMsu q k, .coreAdd q k, .coreSub q k, .coreAnd q k, .coreOr q k, .coreXor q k,
   .coreShl q k, .coreAsr q k, .coreLsr q k, .coreCmp q k, .coreMov q k, .coreMin q k, .coreMax q k, .coreLdi q k, .coreAddi q k, .coreAndi q k,
   .coreOri q k, .coreXori q k, .coreCmpi q k, .coreTsti q k, .coreShli q k, .coreAsri q k] ++
  [.coreClra q k, .coreMvda q k, .coreMvah q k, .coreMval q k, .coreSha q k, .coreRnda q k, .coreSata q k, .coreAdda q k, .coreSuba q k,
   .coreTsta q k, .coreMvdl q k, .coreLd q k, .coreSt q k, .coreMovs q k, .coreLds q k, .coreB q k, .coreCall q k, .coreRet q k, .coreRep q k,
   .coreWait q k, .corePop q k, .coreFlag q k, .coreFlagg q k, .coreSendf q k, .coreEvout q k, .coreSafe q k, .coreHalt q k]

/-- The channels of a table have a cycle of edges of R511, a self-edge included. -/
def EvCycle (t : List (Nat × EvChan)) : Prop :=
  ∃ (n : Nat) (c : Nat → Nat), 0 < n ∧ c n = c 0 ∧ ∀ i, i < n → (c i, c (i + 1)) ∈ evEdges t

end Sys2Proof.Machine
end

