-- ==== Sys2Proof/Certificates/Slice0/Obligations.lean ====
section
/-! DEFINITION. The statements for the provers, each a proposition about the model; OBLIGATIONS.json lists them with the rules they rest on. -/
open Sys2Proof Sys2Proof.Machine

/-- O1. A step runs the command at the front of the queue on the rest of it. [02_command_ports] -/
def Obligations.StepRunsFrontCommand : Prop :=
  ∀ (c : Instr) (rest : List Instr) (s : State), Machine.step { s with pending := c :: rest } = Machine.exec c { s with pending := rest }

/-- O2. With no command waiting, device time passes to the next coarse tick (the model's choice, log 1); then the time unit and the reference selector act
(R347, R408). [10_time_timed_outputs, 11_clocks_power_startup] -/
def Obligations.EmptyQueuePassesOneTick : Prop :=
  ∀ s : State, s.pending = [] →
    Machine.step s = .next ((if s.dev.st = .off then s else s.advanceTo ((s.now / 5242880 + 1) * 5242880)).timeSelect.stopDue)

/-- O3. What reset leaves, where the spec gives the value. [R30, R41, R18, R19, R129, R180, R283, R345, R496] -/
def Obligations.ResetLeavesTheSpecifiedValues : Prop :=
  let s := State.reset
  s.dev.st = .boot ∧ s.now = 0 ∧ s.pending = [] ∧
    (∀ src, (s.stream src).expect = 0 ∧ (s.stream src).stored = none ∧ (s.stream src).chain = []) ∧
    (∀ q, q < 16 → s.pq q = q ∧ s.pers q = .off) ∧ s.svc.spq = some 16 ∧
    (∀ q f, f < 64 → lget 0xFF (s.fbq q).owners f = f / 16) ∧
    (∀ q, q < 16 → (s.roq q).slot0 = q ∧ (s.roq q).slot1 = 0xFF) ∧
    (∀ c, s.chan c = EvChan.reset ∧ (s.chan c).owner = none ∧ (s.chan c).routes = []) ∧
    s.rf.filter = 16 ∧ s.rf.latch = true ∧ s.svc.log = [] ∧ s.svc.regions = [] ∧ s.svc.dram = [] ∧ s.delayed = []

/-- O4. Every packet row of the table is the reception of its packet, and none stops the block; a stop of the device for want of a reference that is due comes
first. [R40, R61, R408, 02_command_ports] -/
def Obligations.PacketRowsAreReceived : Prop :=
  (∀ (i : Instr) (code : Nat) (r : Req) (s : State), i.packet? = some (code, r) →
    Machine.exec i s = .next (if s.reaches r.src then (s.reserve r.src false).takeUp (packetOf code r) else s)) ∧
  ∀ (s : State) (p : Pkt) (t : Nat), s.clk.stopAt = some t → t ≤ s.now →
    s.takeUp p = ((s.onClk fun c => { c with stopAt := none }).refStop).takeUp p

/-- O5. A packet with any other SEQ gets E_SEQUENCE and the expected value. [R40, R41] -/
def Obligations.OutOfSequencePacketsAreRefused : Prop :=
  ∀ (i : Instr) (code : Nat) (r : Req) (s : State), i.packet? = some (code, r) → code ≠ 0x0003 →
    s.reaches r.src = true → s.pausedFor (packetOf code r) = false → s.NotStopping → r.seq ≠ (s.stream r.src).expect →
    ¬(r.seq + 1 = (s.stream r.src).expect ∧ (s.stream r.src).last = some (packetOf code r).crc) →
    ∃ t : State, Machine.exec i s = .next t ∧
      t = (s.reserve r.src false).bounce (packetOf code r) 0x0111 (leBytes 4 (s.stream r.src).expect.toNat) ∧
      t.now = s.now ∧ t.svc = s.svc ∧ t.trust = s.trust ∧ t.ev = s.ev ∧ t.syn = s.syn ∧ t.ro = s.ro ∧ t.fb = s.fb ∧ t.clk = s.clk ∧
      t.plans = s.plans ∧ t.rf = s.rf ∧ t.cap = s.cap ∧ t.bsc = s.bsc ∧ t.delayed = s.delayed

/-- O6. A duplicate of the last packet taken is answered with the stored reply and has no effect. [R41, R42] -/
def Obligations.DuplicatesAreNotRunAgain : Prop :=
  ∀ (i : Instr) (code : Nat) (r : Req) (s : State), i.packet? = some (code, r) →
    s.reaches r.src = true → s.pausedFor (packetOf code r) = false → s.NotStopping →
    r.seq ≠ (s.stream r.src).expect → r.seq + 1 = (s.stream r.src).expect → (s.stream r.src).last = some (packetOf code r).crc →
    ∃ t : State, Machine.exec i s = .next t ∧
      (∀ b, s.inFlight (packetOf code r) = false → (s.stream r.src).stored = some b → t = (s.reserve r.src false).deliver r.src false b) ∧
      (s.inFlight (packetOf code r) = true → t.sent = s.sent) ∧
      t.now = s.now ∧ t.svc = s.svc ∧ t.trust = s.trust ∧ t.ev = s.ev ∧ t.syn = s.syn ∧ t.ro = s.ro ∧ t.fb = s.fb ∧ t.clk = s.clk ∧
      t.plans = s.plans ∧ t.rf = s.rf ∧ t.cap = s.cap ∧ t.bsc = s.bsc ∧ t.delayed = s.delayed

/-- O7. A packet with CHAIN = 1 joins its stream's chain and nothing of it executes. [R41, R47] -/
def Obligations.ChainedPacketsWaitForTheLast : Prop :=
  ∀ (i : Instr) (code : Nat) (r : Req) (s : State), i.packet? = some (code, r) → code ≠ 0x0003 →
    twf .reset s.dev.streams = true → s.reaches r.src = true → s.pausedFor (packetOf code r) = false → s.NotStopping → r.seq = (s.stream r.src).expect →
    (packetOf code r).chained = true → (s.stream r.src).chain.length < 15 →
    ∃ t : State, Machine.exec i s = .next t.raisePoints ∧ t.sent = s.sent ∧
      (t.stream r.src).expect = r.seq + 1 ∧ (t.stream r.src).chain = (s.stream r.src).chain ++ [packetOf code r] ∧
      t.svc = s.svc ∧ t.trust = s.trust ∧ t.ev = s.ev ∧ t.syn = s.syn ∧ t.ro = s.ro ∧ t.fb = s.fb ∧ t.clk = s.clk ∧
      t.plans = s.plans ∧ t.link = s.link ∧ t.rf = s.rf ∧ t.cap = s.cap ∧ t.bsc = s.bsc ∧ t.delayed = s.delayed

/-- O8. A packet that fails a check has no effect: it is answered, and only its nonce or a spent capacity refusal is used up. [R12, R40, R561] -/
def Obligations.FailedPacketsChangeNothingButTheirReply : Prop :=
  ∀ (i : Instr) (code : Nat) (r : Req) (s t : State) (e : Err), i.packet? = some (code, r) → code ≠ 0x0003 →
    twf .reset s.dev.streams = true → s.reaches r.src = true → s.pausedFor (packetOf code r) = false → s.NotStopping → r.seq = (s.stream r.src).expect →
    (packetOf code r).chained = false → (s.stream r.src).chain = [] →
    (s.taken (packetOf code r)).check (packetOf code r) (placeOf 1 0 (packetOf code r) false) = (t, .error e) →
    Machine.exec i s = .next (t.replyErr (packetOf code r) false e).raisePoints ∧
      t.now = s.now ∧ t.svc = s.svc ∧ t.trust.keys = s.trust.keys ∧ t.trust.counters = s.trust.counters ∧ t.ev = s.ev ∧ t.syn = s.syn ∧
      t.ro = s.ro ∧ t.fb = s.fb ∧ t.clk = s.clk ∧ t.plans = s.plans ∧ t.link = s.link ∧ t.rf = s.rf ∧ t.cap = s.cap ∧ t.bsc = s.bsc ∧
      t.delayed = s.delayed ∧ t.sent = s.sent ∧ t.dev.timed = s.dev.timed ∧ t.dev.held = s.dev.held ∧ t.dev.priv = s.dev.priv ∧
      t.dev.images = s.dev.images

/-- O9. A TIMED packet that passes its checks waits in its queue and has no effect yet; RF_MUTE_SET waits at least the 16 ns that a mute takes (R281).
[R44] -/
def Obligations.TimedPacketsWaitForTheirTime : Prop :=
  ∀ (i : Instr) (code : Nat) (r : Req) (s t : State) (k : Checked), i.packet? = some (code, r) → code ≠ 0x0003 →
    twf .reset s.dev.streams = true → s.reaches r.src = true → s.pausedFor (packetOf code r) = false → s.NotStopping → r.seq = (s.stream r.src).expect →
    (packetOf code r).chained = false → (s.stream r.src).chain = [] → (packetOf code r).timed = true →
    (s.taken (packetOf code r)).check (packetOf code r) (placeOf 1 0 (packetOf code r) false) = (t, .ok k) →
    ∃ w, (packetOf code r).time = some w ∧ t.now < w ∧ w ≤ t.now + 1000 * uS ∧
      let at' := if code = 0x0702 then max w (t.now + 16 * uNs) else w
      Machine.exec i s = .next (t.onDev fun d =>
        { d with timed := insTimed { pkts := [packetOf code r], time := at', fast := (packetOf code r).fast } d.timed }).raisePoints

/-- O10. A failure reply carries its status word, and a wildcard's failure the object's ID. [stated: R49] -/
def Obligations.FailureRepliesCarryTheirStatusWord : Prop :=
  (∀ e : Err, 4 ≤ e.result.length ∧ e.result.take 4 = leBytes 4 e.word) ∧
  (∀ (e : Err) (o : Obj), ((e.naming true o).result.drop 4).take 4 = leBytes 4 o.id ∧ (e.naming true o).word = e.word) ∧
  (∀ (e : Err) (o : Obj), e.naming false o = e) ∧
  (∀ st : Nat, (err st 0).result = [0, 0, 0, 0]) ∧
  (∀ (p : Pkt) (e : Err) (d : Bool), ((replyBytes p e.status d (pad4 e.result)).drop 16).take e.result.length = e.result)

/-- O11. Without ACK_REQ neither OK nor ACCEPTED is sent, and every failure is. [R43, R38] -/
def Obligations.RepliesFollowAckReq : Prop :=
  ∀ (s : State) (p : Pkt) (st : Nat) (d : Bool) (b : List Byte), p.quiet = false →
    (p.req.flags.getLsbD 0 = false → st ≤ 1 → (s.reply p st d b).sent = s.sent) ∧
    (2 ≤ st ∨ p.req.flags.getLsbD 0 = true → Out.reply p.req.src (replyBytes p st d (pad4 b)) ∈ (s.reply p st d b).sent)

/-- O12. An opcode above 0x11FF, or beyond its category, gets E_OPCODE. [R40, R71] -/
def Obligations.UnassignedOpcodesAreRefused : Prop :=
  (∀ code, 0x1200 ≤ code → code < 0x10000 → specOf code = none) ∧
  ∀ (s : State) (p : Pkt) (at' : Place), specOf p.code = none → s.check p at' = (s, .error { status := 0x0100, word := 0, more := [] })

/-- O13. The device, session, image and personality opcodes (0x00xx, 0x01xx) have their effect. [02_command_ports, 17_identity_trust] -/
def Obligations.DevicePacketsComplete : Prop :=
  Completes Instr.devNop 0x0000 opDevNop ∧
  Completes Instr.devInfo 0x0001 opDevInfo ∧
  Completes Instr.devStatus 0x0002 opDevStatus ∧
  Completes Instr.sessionOpen 0x0003 opSessionOpen ∧
  Completes Instr.sessionClose 0x0004 opSessionClose ∧
  Completes Instr.devDeadlineSet 0x0005 opDevDeadlineSet ∧
  Completes Instr.devDeadlineGet 0x0006 opDevDeadlineGet ∧
  Completes Instr.devRestart 0x0007 opDevRestart ∧
  Completes Instr.devEndpaperEnter 0x0008 opDevEndpaperEnter ∧
  Completes Instr.devAddrSet 0x0009 opDevAddrSet ∧
  Completes Instr.cmdAbort 0x000A opCmdAbort ∧
  Completes Instr.portStatsGet 0x000B opPortStatsGet ∧
  Completes Instr.imageInfo 0x0100 opImageInfo ∧
  Completes Instr.imageWriteBegin 0x0101 opImageWriteBegin ∧
  Completes Instr.imageWriteData 0x0102 opImageWriteData ∧
  Completes Instr.imageCommit 0x0103 opImageCommit ∧
  Completes Instr.imageErase 0x0104 opImageErase ∧
  Completes Instr.configApply 0x0105 opConfigApply ∧
  Completes Instr.persSet 0x0106 opPersSet ∧
  Completes Instr.persGet 0x0107 opPersGet ∧
  Completes Instr.quireRelease 0x0108 opQuireRelease

/-- O14. The synthesis opcodes (0x02xx) have their effect. [03_pulse_synthesis] -/
def Obligations.SynthesisPacketsComplete : Prop :=
  Completes Instr.synLinesSet 0x0200 opSynLinesSet ∧
  Completes Instr.synLinesGet 0x0201 opSynLinesGet ∧
  Completes Instr.ctxSet 0x0202 opCtxSet ∧
  Completes Instr.ctxGet 0x0203 opCtxGet ∧
  Completes Instr.ctxPhaseShift 0x0204 opCtxPhaseShift ∧
  Completes Instr.envWrite 0x0205 opEnvWrite ∧
  Completes Instr.envRead 0x0206 opEnvRead ∧
  Completes Instr.paramWrite 0x0207 opParamWrite ∧
  Completes Instr.paramRead 0x0208 opParamRead ∧
  Completes Instr.seqLoad 0x0209 opSeqLoad ∧
  Completes Instr.seqRead 0x020A opSeqRead ∧
  Completes Instr.seqConfig 0x020B opSeqConfig ∧
  Completes Instr.seqRingSet 0x020C opSeqRingSet ∧
  Completes Instr.seqArm 0x020D opSeqArm ∧
  Completes Instr.seqGo 0x020E opSeqGo ∧
  Completes Instr.seqStop 0x020F opSeqStop ∧
  Completes Instr.seqStatus 0x0210 opSeqStatus ∧
  Completes Instr.folioRegSet 0x0211 opFolioRegSet

/-- O15. The read-out opcodes (0x03xx) have their effect. [04_readout] -/
def Obligations.ReadoutPacketsComplete : Prop :=
  Completes Instr.roRouteSet 0x0300 opRoRouteSet ∧
  Completes Instr.roRouteGet 0x0301 opRoRouteGet ∧
  Completes Instr.rsetSet 0x0302 opRsetSet ∧
  Completes Instr.rsetGet 0x0303 opRsetGet ∧
  Completes Instr.discSet 0x0304 opDiscSet ∧
  Completes Instr.discGet 0x0305 opDiscGet ∧
  Completes Instr.kernelWrite 0x0306 opKernelWrite ∧
  Completes Instr.kernelRead 0x0307 opKernelRead ∧
  Completes Instr.roStreamSet 0x0308 opRoStreamSet ∧
  Completes Instr.roStatus 0x0309 opRoStatus ∧
  Completes Instr.weaveSet 0x030A opWeaveSet ∧
  Completes Instr.weaveGet 0x030B opWeaveGet ∧
  Completes Instr.covarRun 0x030C opCovarRun ∧
  Completes Instr.covarRead 0x030D opCovarRead

/-- O16. The feedback-core opcodes (0x04xx) have their effect. [05_feedback_cores] -/
def Obligations.FeedbackPacketsComplete : Prop :=
  Completes Instr.fbLoad 0x0400 opFbLoad ∧
  Completes Instr.fbRead 0x0401 opFbRead ∧
  Completes Instr.fbMemWrite 0x0402 opFbMemWrite ∧
  Completes Instr.fbMemRead 0x0403 opFbMemRead ∧
  Completes Instr.fbConfig 0x0404 opFbConfig ∧
  Completes Instr.fbRouteSet 0x0405 opFbRouteSet ∧
  Completes Instr.fbRouteGet 0x0406 opFbRouteGet ∧
  Completes Instr.fbFlagOwnerSet 0x0407 opFbFlagOwnerSet ∧
  Completes Instr.fbFlagSet 0x0408 opFbFlagSet ∧
  Completes Instr.fbFlagGet 0x0409 opFbFlagGet ∧
  Completes Instr.fbStart 0x040A opFbStart ∧
  Completes Instr.fbStop 0x040B opFbStop ∧
  Completes Instr.fbSwap 0x040C opFbSwap ∧
  Completes Instr.fbStatus 0x040D opFbStatus

/-- O17. The intake and plan opcodes (0x05xx, 0x06xx) have their effect. [06_intake_channelizer, 07_correlation_beamforming] -/
def Obligations.IntakeAndPlanPacketsComplete : Prop :=
  Completes Instr.intakeSrcSet 0x0500 opIntakeSrcSet ∧
  Completes Instr.intakeSrcGet 0x0501 opIntakeSrcGet ∧
  Completes Instr.intakeDelaySet 0x0502 opIntakeDelaySet ∧
  Completes Instr.chanSet 0x0503 opChanSet ∧
  Completes Instr.chanGet 0x0504 opChanGet ∧
  Completes Instr.chanCoefWrite 0x0505 opChanCoefWrite ∧
  Completes Instr.chanCoefRead 0x0506 opChanCoefRead ∧
  Completes Instr.gainWrite 0x0507 opGainWrite ∧
  Completes Instr.gainRead 0x0508 opGainRead ∧
  Completes Instr.ctSet 0x0509 opCtSet ∧
  Completes Instr.ctGet 0x050A opCtGet ∧
  Completes Instr.intakeStatsGet 0x050B opIntakeStatsGet ∧
  Completes Instr.corrPlanSet 0x0600 opCorrPlanSet ∧
  Completes Instr.corrPlanGet 0x0601 opCorrPlanGet ∧
  Completes Instr.corrExportSet 0x0602 opCorrExportSet ∧
  Completes Instr.corrStart 0x0603 opCorrStart ∧
  Completes Instr.corrStop 0x0604 opCorrStop ∧
  Completes Instr.beamPlanSet 0x0605 opBeamPlanSet ∧
  Completes Instr.beamPlanGet 0x0606 opBeamPlanGet ∧
  Completes Instr.beamExportSet 0x0607 opBeamExportSet ∧
  Completes Instr.beamWeightCommit 0x0608 opBeamWeightCommit ∧
  Completes Instr.beamStart 0x0609 opBeamStart ∧
  Completes Instr.beamStop 0x060A opBeamStop ∧
  Completes Instr.planStatus 0x060B opPlanStatus

/-- O18. The converter and link opcodes (0x07xx, 0x08xx) have their effect. [08_converter_chiplets, 09_lanes_array_links] -/
def Obligations.ConverterAndLinkPacketsComplete : Prop :=
  Completes Instr.dacLineSet 0x0700 opDacLineSet ∧
  Completes Instr.dacLineGet 0x0701 opDacLineGet ∧
  Completes Instr.rfMuteSet 0x0702 opRfMuteSet ∧
  Completes Instr.rfUnmute 0x0703 opRfUnmute ∧
  Completes Instr.rfMutePolicySet 0x0704 opRfMutePolicySet ∧
  Completes Instr.adcLineSet 0x0705 opAdcLineSet ∧
  Completes Instr.adcLineGet 0x0706 opAdcLineGet ∧
  Completes Instr.convCalPolicySet 0x0707 opConvCalPolicySet ∧
  Completes Instr.convCalRun 0x0708 opConvCalRun ∧
  Completes Instr.convStatus 0x0709 opConvStatus ∧
  Completes Instr.laneCfgSet 0x0800 opLaneCfgSet ∧
  Completes Instr.laneStatus 0x0801 opLaneStatus ∧
  Completes Instr.laneEqSet 0x0802 opLaneEqSet ∧
  Completes Instr.laneTest 0x0803 opLaneTest ∧
  Completes Instr.laneSwap 0x0804 opLaneSwap ∧
  Completes Instr.portCfgSet 0x0805 opPortCfgSet ∧
  Completes Instr.portStatus 0x0806 opPortStatus ∧
  Completes Instr.linkTopoSet 0x0807 opLinkTopoSet ∧
  Completes Instr.linkTopoGet 0x0808 opLinkTopoGet ∧
  Completes Instr.peerCmdSend 0x0809 opPeerCmdSend ∧
  Completes Instr.bulkRxSet 0x080A opBulkRxSet ∧
  Completes Instr.bulkRxStatus 0x080B opBulkRxStatus

/-- O19. The time and clock opcodes (0x09xx, 0x0Axx) have their effect. [10_time_timed_outputs, 11_clocks_power_startup] -/
def Obligations.TimeAndClockPacketsComplete : Prop :=
  Completes Instr.timeGet 0x0900 opTimeGet ∧
  Completes Instr.timeSet 0x0901 opTimeSet ∧
  Completes Instr.timeCfgSet 0x0902 opTimeCfgSet ∧
  Completes Instr.timeCfgGet 0x0903 opTimeCfgGet ∧
  Completes Instr.timeStatus 0x0904 opTimeStatus ∧
  Completes Instr.timeStepAuth 0x0905 opTimeStepAuth ∧
  Completes Instr.timeAsymSet 0x0906 opTimeAsymSet ∧
  Completes Instr.timePortStatus 0x0907 opTimePortStatus ∧
  Completes Instr.timeTxtsRead 0x0908 opTimeTxtsRead ∧
  Completes Instr.trigSet 0x0909 opTrigSet ∧
  Completes Instr.trigGet 0x090A opTrigGet ∧
  Completes Instr.trigInRead 0x090B opTrigInRead ∧
  Completes Instr.launchSet 0x090C opLaunchSet ∧
  Completes Instr.launchCancel 0x090D opLaunchCancel ∧
  Completes Instr.launchStatus 0x090E opLaunchStatus ∧
  Completes Instr.refCfgSet 0x0A00 opRefCfgSet ∧
  Completes Instr.refStatus 0x0A01 opRefStatus ∧
  Completes Instr.freqMeasure 0x0A02 opFreqMeasure ∧
  Completes Instr.islandStatus 0x0A03 opIslandStatus ∧
  Completes Instr.dvfsSet 0x0A04 opDvfsSet ∧
  Completes Instr.dvfsGet 0x0A05 opDvfsGet ∧
  Completes Instr.energyRead 0x0A06 opEnergyRead ∧
  Completes Instr.workRead 0x0A07 opWorkRead ∧
  Completes Instr.supplyCfgSet 0x0A08 opSupplyCfgSet ∧
  Completes Instr.supplyStatus 0x0A09 opSupplyStatus

/-- O20. The capture and interval opcodes (0x0Bxx, 0x0Cxx) have their effect. [12_capture_interval] -/
def Obligations.CaptureAndIntervalPacketsComplete : Prop :=
  Completes Instr.capConfig 0x0B00 opCapConfig ∧
  Completes Instr.capConfigGet 0x0B01 opCapConfigGet ∧
  Completes Instr.capTrigSet 0x0B02 opCapTrigSet ∧
  Completes Instr.capMaskWrite 0x0B03 opCapMaskWrite ∧
  Completes Instr.capArm 0x0B04 opCapArm ∧
  Completes Instr.capForce 0x0B05 opCapForce ∧
  Completes Instr.capStop 0x0B06 opCapStop ∧
  Completes Instr.capStatus 0x0B07 opCapStatus ∧
  Completes Instr.capHdrRead 0x0B08 opCapHdrRead ∧
  Completes Instr.tinInputSet 0x0C00 opTinInputSet ∧
  Completes Instr.tinInputGet 0x0C01 opTinInputGet ∧
  Completes Instr.tinCalRun 0x0C02 opTinCalRun ∧
  Completes Instr.tinCalRead 0x0C03 opTinCalRead ∧
  Completes Instr.tinMeasSet 0x0C04 opTinMeasSet ∧
  Completes Instr.tinMeasStart 0x0C05 opTinMeasStart ∧
  Completes Instr.tinMeasStop 0x0C06 opTinMeasStop ∧
  Completes Instr.tinStatsRead 0x0C07 opTinStatsRead ∧
  Completes Instr.tinStampRead 0x0C08 opTinStampRead ∧
  Completes Instr.tinStatus 0x0C09 opTinStatus

/-- O21. The bias, monitor and calibration opcodes (0x0Dxx, 0x0Exx) have their effect. [13_bias_monitor_calibration] -/
def Obligations.BiasAndMonitorPacketsComplete : Prop :=
  Completes Instr.biasSet 0x0D00 opBiasSet ∧
  Completes Instr.biasGet 0x0D01 opBiasGet ∧
  Completes Instr.biasRangeSet 0x0D02 opBiasRangeSet ∧
  Completes Instr.biasGenSet 0x0D03 opBiasGenSet ∧
  Completes Instr.biasTableWrite 0x0D04 opBiasTableWrite ∧
  Completes Instr.biasSafetySet 0x0D05 opBiasSafetySet ∧
  Completes Instr.biasStatus 0x0D06 opBiasStatus ∧
  Completes Instr.biasCalRun 0x0D07 opBiasCalRun ∧
  Completes Instr.monChSet 0x0E00 opMonChSet ∧
  Completes Instr.monChGet 0x0E01 opMonChGet ∧
  Completes Instr.monSeqWrite 0x0E02 opMonSeqWrite ∧
  Completes Instr.monSeqRun 0x0E03 opMonSeqRun ∧
  Completes Instr.monRead 0x0E04 opMonRead ∧
  Completes Instr.monInject 0x0E05 opMonInject ∧
  Completes Instr.monSyscal 0x0E06 opMonSyscal ∧
  Completes Instr.calCfgSet 0x0E07 opCalCfgSet ∧
  Completes Instr.calStatus 0x0E08 opCalStatus ∧
  Completes Instr.monStatus 0x0E09 opMonStatus

/-- O22. The event, service and trust opcodes (0x0Fxx to 0x11xx) have their effect. [14_event_fabric, 16_faults_sparing_live_service, 17_identity_trust] -/
def Obligations.EventServiceAndTrustPacketsComplete : Prop :=
  Completes Instr.evChanSet 0x0F00 opEvChanSet ∧
  Completes Instr.evChanGet 0x0F01 opEvChanGet ∧
  Completes Instr.evRouteAdd 0x0F02 opEvRouteAdd ∧
  Completes Instr.evRouteDel 0x0F03 opEvRouteDel ∧
  Completes Instr.evFire 0x0F04 opEvFire ∧
  Completes Instr.evStatus 0x0F05 opEvStatus ∧
  Completes Instr.evCoincRead 0x0F06 opEvCoincRead ∧
  Completes Instr.faultLogRead 0x1000 opFaultLogRead ∧
  Completes Instr.faultPolicySet 0x1001 opFaultPolicySet ∧
  Completes Instr.spareStatus 0x1002 opSpareStatus ∧
  Completes Instr.selftestRun 0x1003 opSelftestRun ∧
  Completes Instr.unitReadmit 0x1004 opUnitReadmit ∧
  Completes Instr.unitRetire 0x1005 opUnitRetire ∧
  Completes Instr.quireMigrate 0x1006 opQuireMigrate ∧
  Completes Instr.fwActivate 0x1007 opFwActivate ∧
  Completes Instr.fwConfirm 0x1008 opFwConfirm ∧
  Completes Instr.memAlloc 0x1009 opMemAlloc ∧
  Completes Instr.memFree 0x100A opMemFree ∧
  Completes Instr.memInfo 0x100B opMemInfo ∧
  Completes Instr.idCertGet 0x1100 opIdCertGet ∧
  Completes Instr.trustNonceGet 0x1101 opTrustNonceGet ∧
  Completes Instr.colophonGet 0x1102 opColophonGet ∧
  Completes Instr.cfgLogRead 0x1103 opCfgLogRead ∧
  Completes Instr.ownerKeySet 0x1104 opOwnerKeySet ∧
  Completes Instr.ownerKeyRevoke 0x1105 opOwnerKeyRevoke ∧
  Completes Instr.ownerKeyGet 0x1106 opOwnerKeyGet ∧
  Completes Instr.ownerRelease 0x1107 opOwnerRelease ∧
  Completes Instr.privSet 0x1108 opPrivSet ∧
  Completes Instr.privGet 0x1109 opPrivGet ∧
  Completes Instr.ctrAdvance 0x110A opCtrAdvance ∧
  Completes Instr.ctrGet 0x110B opCtrGet ∧
  Completes Instr.debugUnlock 0x110C opDebugUnlock ∧
  Completes Instr.debugLock 0x110D opDebugLock

/-- O23. A packet that only reads leaves everything but the ports, the links and the islands' work as it was. [02_command_ports (R72)] -/
def Obligations.ReadingOpcodesChangeNothing : Prop :=
  ∀ e ∈ ([
  (0x0000, opDevNop),
  (0x0001, opDevInfo),
  (0x0002, opDevStatus),
  (0x0006, opDevDeadlineGet),
  (0x000B, opPortStatsGet),
  (0x0100, opImageInfo),
  (0x0107, opPersGet),
  (0x0201, opSynLinesGet),
  (0x0203, opCtxGet),
  (0x0206, opEnvRead),
  (0x0208, opParamRead),
  (0x020A, opSeqRead),
  (0x0210, opSeqStatus),
  (0x0301, opRoRouteGet),
  (0x0303, opRsetGet),
  (0x0305, opDiscGet),
  (0x0307, opKernelRead),
  (0x0309, opRoStatus),
  (0x030B, opWeaveGet),
  (0x030D, opCovarRead),
  (0x0401, opFbRead),
  (0x0403, opFbMemRead),
  (0x0406, opFbRouteGet),
  (0x0409, opFbFlagGet),
  (0x040D, opFbStatus),
  (0x0501, opIntakeSrcGet),
  (0x0504, opChanGet),
  (0x0506, opChanCoefRead),
  (0x0508, opGainRead),
  (0x050A, opCtGet),
  (0x0601, opCorrPlanGet),
  (0x0606, opBeamPlanGet),
  (0x060B, opPlanStatus),
  (0x0701, opDacLineGet),
  (0x0706, opAdcLineGet),
  (0x0808, opLinkTopoGet),
  (0x080B, opBulkRxStatus),
  (0x0900, opTimeGet),
  (0x0903, opTimeCfgGet),
  (0x0904, opTimeStatus),
  (0x0907, opTimePortStatus),
  (0x090A, opTrigGet),
  (0x090E, opLaunchStatus),
  (0x0A05, opDvfsGet),
  (0x0B01, opCapConfigGet),
  (0x0B07, opCapStatus),
  (0x0B08, opCapHdrRead),
  (0x0C01, opTinInputGet),
  (0x0C09, opTinStatus),
  (0x0D01, opBiasGet),
  (0x0D06, opBiasStatus),
  (0x0E01, opMonChGet),
  (0x0E04, opMonRead),
  (0x0E08, opCalStatus),
  (0x0E09, opMonStatus),
  (0x0F01, opEvChanGet),
  (0x1002, opSpareStatus),
  (0x100B, opMemInfo),
  (0x1100, opIdCertGet),
  (0x1102, opColophonGet),
  (0x1103, opCfgLogRead),
  (0x1106, opOwnerKeyGet),
  (0x1109, opPrivGet),
  (0x110B, opCtrGet)] : List (Nat × OpSpec)),
    ∀ (i : Instr) (r : Req) (o : Obj) (cs : List Cmd) (s t : State), i.packet? = some (e.1, r) → Arrives e.1 e.2 r s →
      Passes e.1 e.2 r o cs (s.taken (packetOf e.1 r)) t →
      ∃ v : State, Machine.exec i s = .next v ∧ v.now = s.now ∧ v.svc = s.svc ∧ v.trust.keys = s.trust.keys ∧ v.trust.counters = s.trust.counters ∧
        v.ev = s.ev ∧ v.syn = s.syn ∧ v.ro = s.ro ∧ v.fb = s.fb ∧ v.plans = s.plans ∧ v.rf = s.rf ∧ v.cap = s.cap ∧ v.bsc = s.bsc ∧
        v.delayed = s.delayed

/-- O24. Doorbells, ring set-up, mailbox, window, DMA and register writes have their effect. [R56, R58, R59, R61, R63, R64, R65, R66] -/
def Obligations.HostInterfaceRowsComplete : Prop :=
  (∀ (n : Fin 8) (v : BitVec 32) (es : List (Option (List Byte))) (s : State), s.reaches (.ring n) = true → (s.ring n).en = true →
    v.toNat < (s.ring n).depth →
    Machine.exec (.sqTail n v es) s = .next ((s.onRing n fun r => { r with hostTail := v.toNat }).fetchMore n es) ∧
    let s1 := s.onRing n fun r => { r with hostHead := v.toNat }
    Machine.exec (.cqHead n v es) s = .next ((s1.completeLate n (s1.ring n).late).fetchMore n es)) ∧
  (∀ (n : Fin 8) (v : BitVec 32) (s : State), s.reaches (.ring n) = true → (s.ring n).en = false → v.getLsbD 0 = true →
    4 ≤ bits v.toNat 4 4 → bits v.toNat 4 4 ≤ 12 →
    Machine.exec (.ringCfg n v) s = .next (s.onRing n fun r =>
      { r with en := true, depthLog2 := bits v.toNat 4 4, esize := bits v.toNat 8 2, vector := bits v.toNat 10 6, irqEn := bitOf v.toNat 16,
               sqHead := 0, hostTail := 0, hostHead := 0, cqTail := 0, phase := true, reserved := 0, cqWait := false, late := [] })) ∧
  (∀ s : State, s.reaches .mailbox = true → s.dev.mbox.busy = false → s.dev.mbox.ready = false →
    Machine.exec .post s = .next (s.intakeBuffer .mailbox (tgets 0 s.dev.mbox.request 0 4096)).syncMail) ∧
  (∀ s : State, s.reaches .mailbox = true → s.dev.mbox.ready = true →
    Machine.exec .readyClear s = .next (s.onDev fun d =>
      { d with mbox := { d.mbox with ready := false, showsDeferred := false, places := d.mbox.places - ofBool d.mbox.showsDeferred } }).mailboxShow) ∧
  (∀ (v : BitVec 64) (s : State), s.reaches .mailbox = true →
    Machine.exec (.winCtl (.base v)) s = .next (s.onDev fun d => { d with winBase := v.toNat / 65536 * 65536 })) ∧
  (∀ (v : BitVec 32) (r : Region) (s : State), s.reaches .mailbox = true → s.region (bits v.toNat 0 11) = some r →
    Machine.exec (.winCtl (.ctl v)) s = .next (s.onDev fun d =>
      { d with winRegion := bits v.toNat 0 11, winEn := bitOf v.toNat 31 && (r.owner == 0 || r.shared), winErr := d.winErr && !bitOf v.toNat 30 })) ∧
  (∀ (off : Nat) (b : List Byte) (r : Region) (s : State), s.reaches .mailbox = true → s.dev.winEn = true → s.dev.st ≠ .endpaper →
    s.region s.dev.winRegion = some r → off + b.length ≤ 2 ^ 30 → s.dev.winBase + off + b.length ≤ r.size →
    Machine.exec (.bar2Access off (.write b)) s = .next (s.memWrite s.dev.winRegion (s.dev.winBase + off) b) ∧
    Machine.exec (.bar2Access off (.read b.length)) s = .next (s.emit (.bar2 (s.memRead s.dev.winRegion (s.dev.winBase + off) b.length)))) ∧
  (∀ (n : Fin 16) (v : BitVec 32) (s : State), s.reaches .mailbox = true →
    Machine.exec (.dmaGo n v) s = .next (s.dmaCtl n (v.toNat ||| 1) []) ∧
    ∀ data : List Byte, Machine.exec (.dmaStop n v data) s = .next (s.dmaCtl n (v.toNat ||| 32) data)) ∧
  (∀ (n : Fin 16) (data : List Byte) (s : State), (s.dmaCh n).busy = true → (s.dmaCh n).stream = none → (s.dmaCh n).circ = false →
    Machine.exec (.dmaPassComplete n data true) s =
      .next (((if (s.dmaCh n).dir
          then s.emit (.hostWrite (s.dmaCh n).hostAddr (s.memRead (s.dmaCh n).region (s.dmaCh n).regOffset (s.dmaCh n).length))
          else s.memWrite (s.dmaCh n).region (s.dmaCh n).regOffset (fit (s.dmaCh n).length data)).dmaPass n).onDma n fun d =>
        { d with busy := false })) ∧
  (∀ (off : Nat) (data : List Byte) (s : State), s.reaches .mailbox = true → off + data.length ≤ 65536 →
    Machine.exec (.regWrite off data) s = .next (s.regWrite off data)) ∧
  (∀ (off : Nat) (data : List Byte) (s : State), 65536 < off + data.length → Machine.exec (.regWrite off data) s = .fault .bar0Hole) ∧
  (∀ (off n : Nat) (s : State), 2 ^ 30 < off + n → Machine.exec (.bar2Access off (.read n)) s = .fault .bar2Hole)

/-- O25. SMBus transfers and their timeout have their effect, for every block, every reply and every state of the assembly (R67, R68): a block with a bad
PEC, a fragment out of order and a FIRST fragment during assembly set the error; FIRST is refused while four replies are stored; a fragment in order joins
the request, and the last one hands it to the packet checks. The model's choices are in the log entries 74 and 75; without VAUX nothing answers.
[R67, R68] -/
def Obligations.SmbusRowsComplete : Prop :=
  (∀ (b : List Byte) (pec : Bool) (s : State), s.dev.st ≠ .off → (pec = false ∨ b = []) →
    Machine.exec (.blockWrite b pec) s = .next s.asmError) ∧
  (∀ (c : Byte) (b : List Byte) (s : State), s.dev.st ≠ .off →
    let first := bitOf c.toNat 7
    let n := c.toNat % 64
    let s1 := if first && s.dev.smbus.assembling then s.asmError else s
    let inOrder := if first then decide (n = 0) else s.dev.smbus.assembling && decide (n = s.dev.smbus.next)
    let req := (if first then [] else s.dev.smbus.partialReq) ++ b
    (first = true → 4 ≤ s.dev.smbus.replies.length → Machine.exec (.blockWrite (c :: b) true) s = .next (s.emit .smbusNack)) ∧
    ((first = true → s.dev.smbus.replies.length < 4) → inOrder = false → Machine.exec (.blockWrite (c :: b) true) s = .next s1.asmError) ∧
    ((first = true → s.dev.smbus.replies.length < 4) → inOrder = true → bitOf c.toNat 6 = true →
      Machine.exec (.blockWrite (c :: b) true) s =
        .next ((s1.onSmbus fun x => { x with assembling := false, partialReq := [], next := 0 }).intakeBytes .mgmt false req)) ∧
    ((first = true → s.dev.smbus.replies.length < 4) → inOrder = true → bitOf c.toNat 6 = false →
      Machine.exec (.blockWrite (c :: b) true) s =
        .next (s1.onSmbus fun x => { x with assembling := true, partialReq := req, next := n + 1, since := s1.now }))) ∧
  (∀ s : State, s.dev.st ≠ .off → s.dev.smbus.replies = [] → Machine.exec .blockRead s = .next (s.emit (.smbus [0]))) ∧
  (∀ (r : List Byte) (rest : List (List Byte)) (s : State), s.dev.st ≠ .off → s.dev.smbus.replies = r :: rest →
    let x := s.dev.smbus
    (r.length ≤ x.sentTo + 254 →
      Machine.exec .blockRead s = .next ((s.emit (.smbus (leBytes 1 (128 * ofBool (x.frag == 0) + 64 + x.frag % 64) ++ r.drop x.sentTo))).onSmbus fun x =>
        { x with replies := rest ++ x.late.take 1, late := x.late.drop 1, sentTo := 0, frag := 0 })) ∧
    (x.sentTo + 254 < r.length →
      Machine.exec .blockRead s = .next ((s.emit (.smbus (leBytes 1 (128 * ofBool (x.frag == 0) + x.frag % 64) ++
        (r.drop x.sentTo).take 254))).onSmbus fun x => { x with sentTo := x.sentTo + 254, frag := x.frag + 1 }))) ∧
  (∀ s : State, s.dev.st ≠ .off →
    Machine.exec .readByte s = .next ((s.emit (.smbus [BitVec.ofNat 8
      (ofBool (!s.dev.smbus.replies.isEmpty) + 2 * ofBool (decide (4 ≤ s.dev.smbus.replies.length)) + 4 * ofBool s.dev.smbus.asmErr)])).onSmbus fun x =>
        { x with asmErr := false })) ∧
  (∀ s : State, s.dev.st ≠ .off →
    (s.alert = true → Machine.exec .alertResponse s = .next (s.emit (.smbus (leBytes 1 (2 * s.dev.smbus.addr))))) ∧
    (s.alert = false → Machine.exec .alertResponse s = .next (s.emit .smbusNack))) ∧
  (∀ s : State, (s.dev.smbus.assembling = true → Machine.exec .assemblyTimeout s = .next (s.advanceTo (s.dev.smbus.since + 100 * uMs)).asmError) ∧
    (s.dev.smbus.assembling = false → Machine.exec .assemblyTimeout s = .next s)) ∧
  (∀ (b : List Byte) (pec : Bool) (s : State), s.dev.st = .off →
    Machine.exec (.blockWrite b pec) s = .next s ∧ Machine.exec .blockRead s = .next s ∧ Machine.exec .readByte s = .next s ∧
    Machine.exec .alertResponse s = .next s)

/-- O26. Deadlines, chain timeouts and the times of TIMED commands have their effect. [R44, R47, R54, R55] -/
def Obligations.DeadlineRowsComplete : Prop :=
  (∀ (src : Src) (tag : BitVec 16) (seq : BitVec 32) (h : Held) (s : State), s.heldBy src tag seq false = some h →
    let ms := (s.deadlines (h.pkt.code / 256)).1
    Machine.exec (.deadlineExpiry src tag seq) s =
      .next (s.expire h ms).raisePoints) ∧
  (∀ (src : Src) (tag : BitVec 16) (seq : BitVec 32) (h : Held) (s : State), s.heldBy src tag seq true = some h →
    let ms := (s.deadlines (h.pkt.code / 256)).2
    Machine.exec (.deferralDeadlineExpiry src tag seq) s =
      .next (s.expire h ms).raisePoints) ∧
  (∀ (h : Held) (ms : Nat) (s : State),
    let s1 := (s.advanceTo (h.since + ms * uMs)).persBack h
    s.expire h ms = s1.withdraw h { status := 0x0108, word := ms, more := (s1.tookEffect h).flatMap (leBytes 4) }) ∧
  (∀ (src : Src) (s : State), (s.stream src).chain ≠ [] →
    Machine.exec (.chainTimeout src) s =
      .next ((s.stream src).chain.foldl (fun (a : State) p => a.replyErr p false (a.naming p { status := 0x0108, word := 1, more := [] }))
        ((s.advanceTo ((s.stream src).chainAt + uMs)).onStream src fun t => { t with chain := [] }))) ∧
  (∀ (x : Timed) (rest : List Timed) (s t : State), s.dev.timed = x :: rest →
    let s1 := (s.onDev fun d => { d with timed := rest }).advanceTo x.due
    (∀ ks, s1.checkChain true x.pkts = (t, .ok ks) →
      Machine.exec .timedExecute s = .next (ks.foldl (fun (a : State) k => a.start k.1 k.2) t).raisePoints) ∧
    (∀ i e, s1.checkChain true x.pkts = (t, .error (i, e)) → Machine.exec .timedExecute s = .next (t.failAll i e 0 x.pkts)))

/-- O27. Every step word of a running Folio has its effect at its boundary, unless a stop halts the Folio on the way there (`still`, R126). [R90, R95, R96, R99, R100, R103, R107, R109, R111] -/
def Obligations.StepWordRowsComplete : Prop :=
  (∀ (q : Fin 16) (f : Fin 32) (s : State) (d fi : Nat) (a b : GenWord) (m : Bool), Runs s q f (.play d fi a b m) → OnTime s q f →
    (s.folio q f).cfg.stepwait = false →
    Machine.exec (.stepPlay q f) s = .next (s.wordDone q f (.play d fi a b m) (s.startStep q f d fi (.play a) (.play b) m none))) ∧
  (∀ (q : Fin 16) (f : Fin 32) (s : State) (d : Nat) (ha hb m : Bool), Runs s q f (.hold d ha hb m) → OnTime s q f →
    (s.folio q f).cfg.stepwait = false →
    Machine.exec (.stepHold q f) s =
      .next (s.wordDone q f (.hold d ha hb m) (s.startStep q f d 0 (if ha then .hold else .silent) (if hb then .hold else .silent) m none))) ∧
  (∀ (q : Fin 16) (f : Fin 32) (s : State) (d fi : Nat) (a : GenWord) (rs wo : Nat) (hb m : Bool), Runs s q f (.acquire d fi a rs wo hb m) →
    OnTime s q f → (s.folio q f).cfg.stepwait = false →
    Machine.exec (.stepAcquire q f) s =
      .next (s.wordDone q f (.acquire d fi a rs wo hb m) (s.startStep q f d fi (.play a) (if hb then .hold else .silent) m (some (rs, wo))))) ∧
  (∀ (q : Fin 16) (f : Fin 32) (s : State) (w p n : Nat) (b : Bool), Runs s q f (.waitUntil w b p) → OnTime s q f →
    waitEnd w (tget 0 (s.folio q f).params p) (s.folio q f).go (s.folio q f).boundary = some n → (s.folio q f).boundary ≤ n →
    Machine.exec (.stepWaitUntil q f) s = .next (s.wordDone q f (.waitUntil w b p) (s.still (s.reach q f) q f fun t => (t.silence q f).onFolio q f fun x =>
      { x with st := .waiting, wait := some (.until n b), free := (s.folio q f).taken + 2 }.drainTrig))) ∧
  (∀ (q : Fin 16) (f : Fin 32) (s : State) (d c : Nat) (h : Bool), Runs s q f (.waitEvent d c h) → OnTime s q f →
    (s.folio q f).arrival c (s.folio q f).boundary ((s.folio q f).boundary + d) = none →
    Machine.exec (.stepWaitEvent q f) s = .next (s.wordDone q f (.waitEvent d c h) (s.still (s.reach q f) q f fun t => (t.silence q f).onFolio q f fun x =>
      { x with timeout := false, free := (s.folio q f).taken + 2, st := .waiting,
               wait := some (.event c (s.folio q f).boundary ((s.folio q f).boundary + d) h) }.drainTrig))) ∧
  (∀ (q : Fin 16) (f : Fin 32) (s : State), Runs s q f .halt → (s.folio q f).zeroTime.pendLate = none →
    Machine.exec (.stepHalt q f) s = .next (s.wordDone q f .halt ((s.onFolio q f fun x => { x with past := true }).haltAt q f 1))) ∧
  (∀ (q : Fin 16) (f : Fin 32) (s : State) (c : Cond) (n r : Bool) (t : Nat), Runs s q f (.branch c n r t) →
    Machine.exec (.stepBranch q f) s = .next (s.wordDone q f (.branch c n r t) (s.branch q f c n r t))) ∧
  (∀ (q : Fin 16) (f : Fin 32) (s : State) (r : Bool) (t : Nat), Runs s q f (.jump r t) →
    Machine.exec (.stepJump q f) s =
      .next (s.wordDone q f (.jump r t) (s.still (s.advanceTo (issueTime (s.folio q f).taken)) q f fun u => u.onFolio q f fun x => x.zeroTime.target r t))) ∧
  (∀ (q : Fin 16) (f : Fin 32) (s : State) (c r : Nat) (b : Bool), Runs s q f (.repeatBegin c b r) →
    let s1 := s.advanceTo (issueTime (s.folio q f).taken)
    Machine.exec (.stepRepeatBegin q f) s = .next (s.wordDone q f (.repeatBegin c b r) (s.still s1 q f fun u => u.onFolio q f fun x => x.zeroTime.repBegin c b r (s1.now + 1)))) ∧
  (∀ (q : Fin 16) (f : Fin 32) (s : State), Runs s q f .repeatEnd →
    Machine.exec (.stepRepeatEnd q f) s =
      .next (s.wordDone q f .repeatEnd (s.still (s.advanceTo (issueTime (s.folio q f).taken)) q f fun u => u.onFolio q f fun x => x.zeroTime.repEnd))) ∧
  (∀ (q : Fin 16) (f : Fin 32) (s : State) (c p : Nat) (e : Bool), Runs s q f (.setFrame c e p) →
    let s1 := s.advanceTo (issueTime (s.folio q f).taken)
    Machine.exec (.stepSetFrame q f) s = .next (s.wordDone q f (.setFrame c e p) (s.still s1 q f fun u => u.onFolio q f fun x =>
      let w := tget 0 x.params p
      (if frameOk (s1.synq q) w then { x with ops := x.ops ++ [BoundOp.frame c w e] } else x.badWord).zeroTime.advance))) ∧
  (∀ (q : Fin 16) (f : Fin 32) (s : State) (c r d : Nat) (b : Bool), Runs s q f (.shiftPhase c b r d) →
    let s1 := s.advanceTo (issueTime (s.folio q f).taken)
    Machine.exec (.stepShiftPhase q f) s = .next (s.wordDone q f (.shiftPhase c b r d) (s.still s1 q f fun u => u.onFolio q f fun x =>
      ({ x with ops := x.ops ++ [BoundOp.shift c (BitVec.ofNat 32 (if b then x.regAt r (s1.now + 1) else d))] } : Folio).zeroTime.advance))) ∧
  (∀ (q : Fin 16) (f : Fin 32) (s : State) (c : Nat), Runs s q f (.emitEvent c) →
    ((s.inForce c).prods.any fun r => r.obj == folioId q f) = true →
    Machine.exec (.stepEmitEvent q f) s = .next (s.wordDone q f (.emitEvent c) (s.still (s.advanceTo (issueTime (s.folio q f).taken)) q f fun u => u.onFolio q f fun x =>
      ({ x with ops := x.ops ++ [BoundOp.emit c] } : Folio).zeroTime.advance))) ∧
  (∀ (q : Fin 16) (f : Fin 32) (s : State) (d fi : Nat) (a b : GenWord) (m : Bool), Behind s q f (.play d fi a b m) →
    Machine.exec (.stepPlay q f) s = .next (s.wordDone q f (.play d fi a b m) (s.skipStep q f d (s.lateReach (s.folio q f)) m false)))

/-- O28. The ends of waits, lateness, refills, ring wraps and boundaries of a Folio have their effect: a wait ends at its sample, with TIMEOUT where an event or a
trigger has not come (R99 to R102); a Folio whose word is absent or behind goes LATE, halts at the end of its stream, and resumes 64 samples ahead (R110, R111);
the engine refills it (R109), a ring wraps, into another where one waits (R112); at a sequence boundary what waits for it comes about (R113, R27). The model's
choices are in the log entries 99, 101, 102, 192, 193 and 106. [03_pulse_synthesis, 01_organization (R22),
11_clocks_power_startup] -/
def Obligations.FolioTimingRowsComplete : Prop :=
  (∀ (q : Fin 16) (s : State), s.persDue q = true → Machine.exec (.persChangeComplete q) s = .next (s.persChange q)) ∧
  (∀ (q : Fin 16) (f : Fin 32) (s : State) (n : Nat) (b : Bool), (s.folio q f).wait = some (.until n b) →
    Machine.exec (.waitUntilEnd q f) s = .next (s.still (s.advanceTo (issueTime (n - ahead))) q f fun t => t.onFolio q f fun fo => fo.goesOn n)) ∧
  (∀ (q : Fin 16) (f : Fin 32) (s : State) (c i n : Nat) (h : Bool), (s.folio q f).wait = some (.event c i n h) →
    let s1 := fun (t : State) => t.onFolio q f fun fo => { fo.goesOn n with timeout := true }.noted fo.flags (issueTime n)
    Machine.exec (.waitEventTimeout q f) s = .next (s.still (s.advanceTo (issueTime n)) q f fun t => if h then (s1 t).haltAt q f 5 else s1 t)) ∧
  (∀ (fo : Folio) (n : Nat),
    let x := fo.goesOn n
    x.st = .running ∧ x.wait = none ∧ x.boundary = n ∧ x.timeout = fo.timeout) ∧
  (∀ (q : Fin 16) (f : Fin 32) (s : State) (b n : Nat), (s.folio q f).wait = some (.trig b n none) →
    let s1 := fun (t : State) => t.onFolio q f fun fo =>
      { fo with timeout := true, wait := some (.trig b n (some n)) }.noted fo.flags (issueTime n)
    ((s.folio q f).cfg.proceed = true → Machine.exec (.trigTimeout q f) s = .next (s.still (s.advanceTo (issueTime n)) q f s1)) ∧
    ((s.folio q f).cfg.proceed = false →
      Machine.exec (.trigTimeout q f) s = .next (s.still (s.advanceTo (issueTime n)) q f fun t =>
        ((s1 t).onFolio q f fun fo => { fo with boundary := n }).haltAt q f 6))) ∧
  (∀ (q : Fin 16) (f : Fin 32) (s : State) (c : Nat), (s.folio q f).st = .running → (s.folio q f).pendLate = some c →
    Machine.exec (.folioLate q f) s = .next (s.goLate q f c)) ∧
  (∀ (q : Fin 16) (f : Fin 32) (s : State), (s.folio q f).st = .running → (s.folio q f).pendLate = none →
    let absent := (s.folio q f).word = none ∧ (s.folio q f).pc ≠ 2048
    (absent → Machine.exec (.folioLate q f) s = .next (s.still (s.advanceTo (issueTime ((s.folio q f).boundary - ahead))) q f fun t =>
      t.goLate q f (s.folio q f).absentCause)) ∧
    (¬ absent → (s.folio q f).boundary < (s.folio q f).free → Machine.exec (.folioLate q f) s = .next (s.goLate q f 3))) ∧
  (∀ (q : Fin 16) (f : Fin 32) (s : State), (s.folio q f).st = .late → (s.folio q f).word = none → (s.folio q f).pc ≠ 2048 →
    (s.folio q f).ring.total ≤ (s.folio q f).rr.next →
    Machine.exec (.folioLate q f) s = .next ((s.onFolio q f fun x => { x with lateCause := 4 }).haltAt q f 4)) ∧
  (∀ (q : Fin 16) (f : Fin 32) (s : State) (w : Nat) (x : StepWord), (s.folio q f).st = .late → (s.folio q f).word = some w → decodeStep w = some x →
    x.timed = true → s.canResume (s.folio q f) = true →
    Machine.exec (.fastForwardResume q f) s = .next (s.onFolio q f fun x => { x with st := .running })) ∧
  (∀ (q : Fin 16) (f : Fin 32) (s : State), (s.folio q f).wantsRefill = true →
    (∀ e ∈ (s.synq q).folios, e.2.wantsRefill = false ∨ (s.folio q f).residentAhead < e.2.residentAhead ∨
      ((s.folio q f).residentAhead = e.2.residentAhead ∧ f.val ≤ e.1)) →
    let fo := s.folio q f
    let late := fo.st = .running ∧ fo.inRing = true ∧ fo.pathOpen 2048 fo.rr.next = true ∧ issueTime (fo.boundary - ahead) < s.now
    (¬ late → Machine.exec (.refillFetch q f) s = .next (((s.onFolio q f fun x => x.noteFetch s.now).fetchWords q f 64).checkLwm q f)) ∧
    (late → Machine.exec (.refillFetch q f) s =
      .next ((((s.onFolio q f fun x => { x with pendLate := some (x.pendLate.getD fo.absentCause) }).onFolio q f fun x => x.noteFetch s.now).fetchWords q f 64).checkLwm q f))) ∧
  (∀ (q : Fin 16) (f : Fin 32) (s : State), (s.folio q f).inRing = true → (s.folio q f).pc = 2048 → (s.folio q f).ringPend = none →
    Machine.exec (.ringWrap q f) s = .next (s.onFolio q f fun x =>
      { x with pc := x.ring.base, rr := { x.rr with origin := x.rr.next } })) ∧
  (∀ (q : Fin 16) (f : Fin 32) (s : State) (r : RingCfg), (s.folio q f).inRing = true → (s.folio q f).pc = 2048 → (s.folio q f).ringPend = some r →
    Machine.exec (.ringWrap q f) s = .next ((s.onFolio q f fun x =>
      if r.base = 2048 then (x.setRing r x.rr.next).toHalt 9 else { x.setRing r x.rr.next with pc := r.base }).resolve (wait .seqRing (folioId q f) 0) [])) ∧
  (∀ (q : Fin 16) (s : State), s.pers q = .control → s.seqBoundary q = true →
    (((s.seqActions q).qb q).pendPers.isSome = true → Machine.exec (.sequenceBoundary q) s = .next ((s.seqActions q).persChange q)) ∧
    (((s.seqActions q).qb q).pendPers = none →
      Machine.exec (.sequenceBoundary q) s = .next ((s.seqActions q).govern fun k => k == q.val)))

/-- O29. A covariance run's end, and the opening and the end of a window, have their effect. [04_readout] -/
def Obligations.ReadoutRowsComplete : Prop :=
  (∀ (q : Fin 16) (x : List AdcIn) (s : State) (c : Covar), (s.roq q).covar = some c →
    let s1 := s.advanceTo (outTime (c.start + 8 * c.nsamp))
    let sums := (covarSums (c.mems.map fun m => m.folio) (s1.covarRows x c)).foldl (fun t e => tput (0, 0) t e.1 e.2) []
    let s2 := (c.mems.filterMap fun m => m.line).foldl (fun (a : State) n => a.countOver x n c.start (8 * c.nsamp)) s1
    Machine.exec (.covarDone q x) s = .next ((s2.onRo q fun r => { r with covar := none, cov := sums }).resolve (wait .covar (quireId q) 0) [])) ∧
  (∀ (q : Fin 16) (f : Fin 32) (s : State) (p : PendWin) (rest : List PendWin), (s.demod q f).pend = p :: rest →
    let s1 := (s.advanceTo (outTime p.start)).onDemod q f fun d => { d with pend := rest }
    (((s1.demod q f).wins.find? fun w => w.openAt p.start) = none → Machine.exec (.windowOpen q f) s = .next (s1.openWindow q f p)) ∧
    (∀ w : Win, ((s1.demod q f).wins.find? fun w => w.openAt p.start) = some w → w.set.cut = false →
      Machine.exec (.windowOpen q f) s = .next (s1.onDemod q f fun d => { d with ovlDrop := inc32 d.ovlDrop })) ∧
    (∀ w : Win, ((s1.demod q f).wins.find? fun w => w.openAt p.start) = some w → w.set.cut = true →
      Machine.exec (.windowOpen q f) s = .next ((s1.onDemod q f fun d =>
        { d with ovlCut := inc32 d.ovlCut, wins := d.wins.map fun x => if x = w then { x with endAt := p.start, trunc := true } else x }).openWindow q f p))) ∧
  (∀ (q : Fin 16) (f : Fin 32) (x : List AdcIn) (s : State) (w : Win) (rest : List Win), (s.demod q f).wins = w :: rest →
    let s1 := (s.advanceTo w.due).onDemod q f fun d => { d with wins := rest }
    let ys := s1.tappedAll x f w
    let a := w.integrate (s1.roq q) ys
    let u := satQ 24 (roundDiv a.1 (2 ^ w.set.dshift))
    let v := satQ 24 (roundDiv a.2.1 (2 ^ w.set.dshift))
    let st := w.set.disc.decide u.1 v.1
    let word := resultWord st.1 st.2 (a.2.2.1 || u.2 || v.2) w.weave.isSome w.trunc
      (s1.clk.incoherentIn (outTime w.start) (outTime w.endAt)) (a.2.2.2 || w.bad) f w.rset w.wcount (topBits u.1) (topBits v.1)
    ys.length = (w.endAt - w.start) / 8 ∧
      Machine.exec (.windowEnd q f x) s = .next (((s1.countWin x w).deliverResult q f w.due w word a.1 a.2.1).captureWindow q f w.rset w.start 0
        (ys.map fun y => ({ i := y.val.i, q := y.val.q, ovr := y.ovr, missing := y.missing } : RoSample))))

/-- O30. Each ALU instruction writes its result and Z, N, C and V, and nothing else of the core but what every instruction moves on. [05_feedback_cores
(R164), 05_feedback_cores (R170)] -/
def Obligations.AluRowsGiveTheirResults : Prop :=
  (∀ (q : Fin 16) (k : Fin 4) (s : State) (d x y : Nat), Issues s q k (.alu 0x08 d x y) →
    Machine.exec (.coreAdd q k) s = .next (coreStep s q k 0x08 fun c =>
      let a := c.dr x
      let b := c.dr y
      let r : BitVec 16 := a + b
      c.result d r { c.sr with z := r == 0, n := r.msb, c := decide (2 ^ 16 ≤ a.toNat + b.toNat), v := decide ((a + b).toInt ≠ a.toInt + b.toInt) })) ∧
  (∀ (q : Fin 16) (k : Fin 4) (s : State) (d x y : Nat), Issues s q k (.alu 0x09 d x y) →
    Machine.exec (.coreSub q k) s = .next (coreStep s q k 0x09 fun c =>
      let a := c.dr x
      let b := c.dr y
      let r : BitVec 16 := a - b
      c.result d r { c.sr with z := r == 0, n := r.msb, c := decide (a.toNat < b.toNat), v := decide ((a - b).toInt ≠ a.toInt - b.toInt) })) ∧
  (∀ (q : Fin 16) (k : Fin 4) (s : State) (d x y : Nat), Issues s q k (.alu 0x0A d x y) →
    Machine.exec (.coreAnd q k) s = .next (coreStep s q k 0x0A fun c =>
      let a := c.dr x
      let b := c.dr y
      let r : BitVec 16 := a &&& b
      c.result d r { c.sr with z := r == 0, n := r.msb, c := false, v := false })) ∧
  (∀ (q : Fin 16) (k : Fin 4) (s : State) (d x y : Nat), Issues s q k (.alu 0x0B d x y) →
    Machine.exec (.coreOr q k) s = .next (coreStep s q k 0x0B fun c =>
      let a := c.dr x
      let b := c.dr y
      let r : BitVec 16 := a ||| b
      c.result d r { c.sr with z := r == 0, n := r.msb, c := false, v := false })) ∧
  (∀ (q : Fin 16) (k : Fin 4) (s : State) (d x y : Nat), Issues s q k (.alu 0x0C d x y) →
    Machine.exec (.coreXor q k) s = .next (coreStep s q k 0x0C fun c =>
      let a := c.dr x
      let b := c.dr y
      let r : BitVec 16 := a ^^^ b
      c.result d r { c.sr with z := r == 0, n := r.msb, c := false, v := false })) ∧
  (∀ (q : Fin 16) (k : Fin 4) (s : State) (d x y : Nat), Issues s q k (.alu 0x0D d x y) →
    Machine.exec (.coreShl q k) s = .next (coreStep s q k 0x0D fun c =>
      let a := c.dr x
      let b := c.dr y
      let r : BitVec 16 := a <<< (b.toNat % 16)
      c.result d r { c.sr with z := r == 0, n := r.msb, c := false, v := false })) ∧
  (∀ (q : Fin 16) (k : Fin 4) (s : State) (d x y : Nat), Issues s q k (.alu 0x0E d x y) →
    Machine.exec (.coreAsr q k) s = .next (coreStep s q k 0x0E fun c =>
      let a := c.dr x
      let b := c.dr y
      let r : BitVec 16 := a.sshiftRight (b.toNat % 16)
      c.result d r { c.sr with z := r == 0, n := r.msb, c := false, v := false })) ∧
  (∀ (q : Fin 16) (k : Fin 4) (s : State) (d x y : Nat), Issues s q k (.alu 0x0F d x y) →
    Machine.exec (.coreLsr q k) s = .next (coreStep s q k 0x0F fun c =>
      let a := c.dr x
      let b := c.dr y
      let r : BitVec 16 := a >>> (b.toNat % 16)
      c.result d r { c.sr with z := r == 0, n := r.msb, c := false, v := false })) ∧
  (∀ (q : Fin 16) (k : Fin 4) (s : State) (d x y : Nat), Issues s q k (.alu 0x11 d x y) →
    Machine.exec (.coreMov q k) s = .next (coreStep s q k 0x11 fun c =>
      let a := c.dr x
      let r : BitVec 16 := a
      c.result d r { c.sr with z := r == 0, n := r.msb, c := false, v := false })) ∧
  (∀ (q : Fin 16) (k : Fin 4) (s : State) (d x y : Nat), Issues s q k (.alu 0x12 d x y) →
    Machine.exec (.coreMin q k) s = .next (coreStep s q k 0x12 fun c =>
      let a := c.dr x
      let b := c.dr y
      let r : BitVec 16 := if a.toInt ≤ b.toInt then a else b
      c.result d r { c.sr with z := r == 0, n := r.msb, c := false, v := false })) ∧
  (∀ (q : Fin 16) (k : Fin 4) (s : State) (d x y : Nat), Issues s q k (.alu 0x13 d x y) →
    Machine.exec (.coreMax q k) s = .next (coreStep s q k 0x13 fun c =>
      let a := c.dr x
      let b := c.dr y
      let r : BitVec 16 := if a.toInt ≤ b.toInt then b else a
      c.result d r { c.sr with z := r == 0, n := r.msb, c := false, v := false })) ∧
  (∀ (q : Fin 16) (k : Fin 4) (s : State) (d x i : Nat), Issues s q k (.imm 0x14 d x i) →
    Machine.exec (.coreLdi q k) s = .next (coreStep s q k 0x14 fun c =>
      let b := BitVec.ofNat 16 i
      let r : BitVec 16 := b
      c.result d r { c.sr with z := r == 0, n := r.msb, c := false, v := false })) ∧
  (∀ (q : Fin 16) (k : Fin 4) (s : State) (d x i : Nat), Issues s q k (.imm 0x15 d x i) →
    Machine.exec (.coreAddi q k) s = .next (coreStep s q k 0x15 fun c =>
      let a := c.dr x
      let b := BitVec.ofNat 16 i
      let r : BitVec 16 := a + b
      c.result d r { c.sr with z := r == 0, n := r.msb, c := decide (2 ^ 16 ≤ a.toNat + b.toNat), v := decide ((a + b).toInt ≠ a.toInt + b.toInt) })) ∧
  (∀ (q : Fin 16) (k : Fin 4) (s : State) (d x i : Nat), Issues s q k (.imm 0x16 d x i) →
    Machine.exec (.coreAndi q k) s = .next (coreStep s q k 0x16 fun c =>
      let a := c.dr x
      let b := BitVec.ofNat 16 i
      let r : BitVec 16 := a &&& b
      c.result d r { c.sr with z := r == 0, n := r.msb, c := false, v := false })) ∧
  (∀ (q : Fin 16) (k : Fin 4) (s : State) (d x i : Nat), Issues s q k (.imm 0x17 d x i) →
    Machine.exec (.coreOri q k) s = .next (coreStep s q k 0x17 fun c =>
      let a := c.dr x
      let b := BitVec.ofNat 16 i
      let r : BitVec 16 := a ||| b
      c.result d r { c.sr with z := r == 0, n := r.msb, c := false, v := false })) ∧
  (∀ (q : Fin 16) (k : Fin 4) (s : State) (d x i : Nat), Issues s q k (.imm 0x18 d x i) →
    Machine.exec (.coreXori q k) s = .next (coreStep s q k 0x18 fun c =>
      let a := c.dr x
      let b := BitVec.ofNat 16 i
      let r : BitVec 16 := a ^^^ b
      c.result d r { c.sr with z := r == 0, n := r.msb, c := false, v := false })) ∧
  (∀ (q : Fin 16) (k : Fin 4) (s : State) (d x i : Nat), Issues s q k (.imm 0x1B d x i) →
    Machine.exec (.coreShli q k) s = .next (coreStep s q k 0x1B fun c =>
      let a := c.dr x
      let b := BitVec.ofNat 16 i
      let r : BitVec 16 := a <<< (b.toNat % 16)
      c.result d r { c.sr with z := r == 0, n := r.msb, c := false, v := false })) ∧
  (∀ (q : Fin 16) (k : Fin 4) (s : State) (d x i : Nat), Issues s q k (.imm 0x1C d x i) →
    Machine.exec (.coreAsri q k) s = .next (coreStep s q k 0x1C fun c =>
      let a := c.dr x
      let b := BitVec.ofNat 16 i
      let r : BitVec 16 := a.sshiftRight (b.toNat % 16)
      c.result d r { c.sr with z := r == 0, n := r.msb, c := false, v := false })) ∧
  (∀ (q : Fin 16) (k : Fin 4) (s : State) (d x y : Nat), Issues s q k (.alu 0x10 d x y) →
    Machine.exec (.coreCmp q k) s = .next (coreStep s q k 0x10 fun c =>
      let a := c.dr x
      let b := c.dr y
      let r : BitVec 16 := a - b
      { c with sr := { c.sr with z := r == 0, n := r.msb, c := decide (a.toNat < b.toNat), v := decide (r.toInt ≠ a.toInt - b.toInt) } }.after 1)) ∧
  (∀ (q : Fin 16) (k : Fin 4) (s : State) (d x i : Nat), Issues s q k (.imm 0x19 d x i) →
    Machine.exec (.coreCmpi q k) s = .next (coreStep s q k 0x19 fun c =>
      let a := c.dr x
      let b := BitVec.ofNat 16 i
      let r : BitVec 16 := a - b
      { c with sr := { c.sr with z := r == 0, n := r.msb, c := decide (a.toNat < b.toNat), v := decide (r.toInt ≠ a.toInt - b.toInt) } }.after 1)) ∧
  (∀ (q : Fin 16) (k : Fin 4) (s : State) (d x i : Nat), Issues s q k (.imm 0x1A d x i) →
    Machine.exec (.coreTsti q k) s = .next (coreStep s q k 0x1A fun c =>
      let a := c.dr x
      let b := BitVec.ofNat 16 i
      let r : BitVec 16 := a &&& b
      { c with sr := { c.sr with z := r == 0, n := r.msb, c := false, v := false } }.after 1))

/-- O31. Multiplies, accumulator operations, loads, stores, special registers and POP have their results. [05_feedback_cores (R166), 05_feedback_cores
(R167), 05_feedback_cores (R171), 05_feedback_cores (R172), 05_feedback_cores (R178)] -/
def Obligations.CoreDataRowsGiveTheirResults : Prop :=
  (∀ (q : Fin 16) (k : Fin 4) (s : State) (a : Bool) (p r : Nat) (m : Moves), Issues s q k (.mac 1 a p r m) →
    Machine.exec (.corePar q k) s = .next (coreStep s q k 0x01 fun c =>
      (c.moves m).after 1)) ∧
  (∀ (q : Fin 16) (k : Fin 4) (s : State) (a : Bool) (p r : Nat) (m : Moves), Issues s q k (.mac 2 a p r m) →
    Machine.exec (.coreMpy q k) s = .next (coreStep s q k 0x02 fun c =>
      ((c.setA a (BitVec.ofInt 40 ((c.dr p).toInt * (c.dr r).toInt))).moves m).after 1)) ∧
  (∀ (q : Fin 16) (k : Fin 4) (s : State) (a : Bool) (p r : Nat) (m : Moves), Issues s q k (.mac 3 a p r m) →
    Machine.exec (.coreMac q k) s = .next (coreStep s q k 0x03 fun c =>
      ((c.accum a ((c.a a).toInt + (c.dr p).toInt * (c.dr r).toInt)).moves m).after 1)) ∧
  (∀ (q : Fin 16) (k : Fin 4) (s : State) (a : Bool) (p r : Nat) (m : Moves), Issues s q k (.mac 4 a p r m) →
    Machine.exec (.coreMsu q k) s = .next (coreStep s q k 0x04 fun c =>
      ((c.accum a ((c.a a).toInt - (c.dr p).toInt * (c.dr r).toInt)).moves m).after 1)) ∧
  (∀ (q : Fin 16) (k : Fin 4) (s : State) (a : Bool) (d sh : Nat), Issues s q k (.acc a d sh 0) →
    Machine.exec (.coreClra q k) s = .next (coreStep s q k 0x20 fun c =>
      (c.setA a 0).after 1)) ∧
  (∀ (q : Fin 16) (k : Fin 4) (s : State) (a : Bool) (d sh : Nat), Issues s q k (.acc a d sh 1) →
    Machine.exec (.coreMvda q k) s = .next (coreStep s q k 0x20 fun c =>
      (c.setA a (((c.dr d).signExtend 40) <<< 16)).after 1)) ∧
  (∀ (q : Fin 16) (k : Fin 4) (s : State) (a : Bool) (d sh : Nat), Issues s q k (.acc a d sh 2) →
    Machine.exec (.coreMvah q k) s = .next (coreStep s q k 0x20 fun c =>
      let r := (c.a a).extractLsb' 16 16
      c.result d r { c.sr with z := r == 0, n := r.msb })) ∧
  (∀ (q : Fin 16) (k : Fin 4) (s : State) (a : Bool) (d sh : Nat), Issues s q k (.acc a d sh 3) →
    Machine.exec (.coreMval q k) s = .next (coreStep s q k 0x20 fun c =>
      let r := (c.a a).extractLsb' 0 16
      c.result d r { c.sr with z := r == 0, n := r.msb })) ∧
  (∀ (q : Fin 16) (k : Fin 4) (s : State) (a : Bool) (d sh : Nat), Issues s q k (.acc a d sh 4) →
    Machine.exec (.coreSha q k) s = .next (coreStep s q k 0x20 fun c =>
      (if 0 ≤ toSigned 6 sh then c.accum a ((c.a a).toInt * (2 ^ (toSigned 6 sh).toNat : Nat))
        else c.setA a ((c.a a).sshiftRight (-toSigned 6 sh).toNat)).after 1)) ∧
  (∀ (q : Fin 16) (k : Fin 4) (s : State) (a : Bool) (d sh : Nat), Issues s q k (.acc a d sh 5) →
    Machine.exec (.coreRnda q k) s = .next (coreStep s q k 0x20 fun c =>
      let x := c.accum a ((c.a a).toInt + 0x8000)
      (x.setA a ((x.a a >>> 16) <<< 16)).after 1)) ∧
  (∀ (q : Fin 16) (k : Fin 4) (s : State) (a : Bool) (d sh : Nat), Issues s q k (.acc a d sh 6) →
    Machine.exec (.coreSata q k) s = .next (coreStep s q k 0x20 fun c =>
      let v := clampI (-(2 ^ 31)) (2 ^ 31 - 1) (c.a a).toInt
      ((if v = (c.a a).toInt then c else { c with sr := { c.sr with s := true } }).setA a (BitVec.ofInt 40 v)).after 1)) ∧
  (∀ (q : Fin 16) (k : Fin 4) (s : State) (a : Bool) (d sh : Nat), Issues s q k (.acc a d sh 7) →
    Machine.exec (.coreAdda q k) s = .next (coreStep s q k 0x20 fun c =>
      (c.accum a ((c.a a).toInt + (c.a (!a)).toInt)).after 1)) ∧
  (∀ (q : Fin 16) (k : Fin 4) (s : State) (a : Bool) (d sh : Nat), Issues s q k (.acc a d sh 8) →
    Machine.exec (.coreSuba q k) s = .next (coreStep s q k 0x20 fun c =>
      (c.accum a ((c.a a).toInt - (c.a (!a)).toInt)).after 1)) ∧
  (∀ (q : Fin 16) (k : Fin 4) (s : State) (a : Bool) (d sh : Nat), Issues s q k (.acc a d sh 9) →
    Machine.exec (.coreTsta q k) s = .next (coreStep s q k 0x20 fun c =>
      { c with sr := { c.sr with z := c.a a == 0, n := (c.a a).msb } }.after 1)) ∧
  (∀ (q : Fin 16) (k : Fin 4) (s : State) (a : Bool) (d sh : Nat), Issues s q k (.acc a d sh 10) →
    Machine.exec (.coreMvdl q k) s = .next (coreStep s q k 0x20 fun c =>
      (c.setA a ((c.dr d).signExtend 40)).after 1)) ∧
  (∀ (q : Fin 16) (k : Fin 4) (s : State) (d i ad : Nat) (y up : Bool),
    (Issues s q k (.mem false d y i up true ad) →
      Machine.exec (.coreLd q k) s = .next (coreStep s q k 0x21 fun c => (c.setD d (c.memAt y ad)).after 1)) ∧
    (Issues s q k (.mem true d y i up true ad) →
      Machine.exec (.coreSt q k) s = .next (coreStep s q k 0x22 fun c =>
        ({ c.setMem y ad (c.dr d) with lastSt := some (c.next, y, ad, c.memAt y ad) } : FbCore).after 1)) ∧
    (Issues s q k (.mem false d y i up false ad) →
      Machine.exec (.coreLd q k) s = .next (coreStep s q k 0x21 fun c =>
        ((c.access y i up).2.setD d (c.memAt y ((c.walk y i).ea (c.cursor y i)))).after 1)) ∧
    (Issues s q k (.mem true d y i up false ad) →
      Machine.exec (.coreSt q k) s = .next (coreStep s q k 0x22 fun c =>
        let a := (c.walk y i).ea (c.cursor y i)
        ({ (c.access y i up).2.setMem y a (c.dr d) with lastSt := some (c.next, y, a, c.memAt y a) } : FbCore).after 1))) ∧
  (∀ (q : Fin 16) (k : Fin 4) (s : State) (n d v : Nat),
    (Issues s q k (.movs n d true) →
      Machine.exec (.coreMovs q k) s = .next (coreStep s q k 0x24 fun c =>
        let r := c.spec ((issueState s q k 0x24).fbq q) q k n
        (r.2.setD d (BitVec.ofNat 16 r.1)).after 1)) ∧
    (Issues s q k (.movs n d false) →
      Machine.exec (.coreMovs q k) s = .next (coreStep s q k 0x24 fun c => (c.setSpec n (c.dr d).toNat).after 1)) ∧
    (Issues s q k (.lds n v) → Machine.exec (.coreLds q k) s = .next (coreStep s q k 0x25 fun c => (c.setSpec n v).after 1))) ∧
  (∀ (q : Fin 16) (k : Fin 4) (s : State), Issues s q k (.pop false) →
    Machine.exec (.corePop q k) s = .next (coreStep s q k 0x2F fun c => match c.results with
      | [] => ({ c.setD 7 3 with rl := 3, sr := { c.sr with e := true } } : FbCore).after 1
      | x :: _ => ({ c.setD 7 (x.word.extractLsb' 0 16) with rl := x.word, rfifo := c.rfifo.drop 1, sr := { c.sr with e := false } } : FbCore).after 1)) ∧
  (∀ (q : Fin 16) (k : Fin 4) (s : State), Issues s q k (.pop true) →
    Machine.exec (.corePop q k) s = .next (coreStep s q k 0x2F fun c => match c.frames with
      | [] => ({ c with ifd := [0, 0, 0], ifsrc := 0, sr := { c.sr with e := true } } : FbCore).after 1
      | x :: _ => ({ c with ifd := [x.d0, x.d1, x.d2], ifsrc := x.src, ififo := c.ififo.drop 1, sr := { c.sr with e := false } } : FbCore).after 1))

/-- O32. Branches, calls, repeats, waits, SAFE and HALT have their effect, for every operand and every state of the two stacks: a core that issues the
instruction (RUNNING, in CONTROL, the word at its PC, R176, R189) goes on where R173 to R175 say, faults with cause 6 or 7 where a stack has no room or no entry,
and at a SAFE with no level open swaps its bank or halts if it has been told to (R190). The model's choices are in the log entries 116 and
117. [05_feedback_cores (R173), 05_feedback_cores (R174), 05_feedback_cores (R175),
05_feedback_cores (R176), 05_feedback_cores (R190)] -/
def Obligations.CoreControlRowsComplete : Prop :=
  (∀ (q : Fin 16) (k : Fin 4) (s : State), Issues s q k (.plain 0) → Machine.exec (.coreNop q k) s = .next (coreStep s q k 0 fun c => c.after 1)) ∧
  (∀ (q : Fin 16) (k : Fin 4) (s : State) (cd t : Nat), Issues s q k (.branch cd t) →
    Machine.exec (.coreB q k) s = .next (coreStep s q k 0x28 fun c =>
      if c.sr.cond c.results.isEmpty cd then
        ({ c with reps := c.reps.dropWhile fun r => !(decide (r.start ≤ t) && decide (t ≤ r.fin)), pc := t, next := c.next + 2 } : FbCore)
      else c.after 1)) ∧
  (∀ (q : Fin 16) (k : Fin 4) (s : State) (t : Nat), Issues s q k (.call t) → ((issueState s q k 0x29).core q k).calls.length < 4 →
    Machine.exec (.coreCall q k) s = .next (coreStep s q k 0x29 fun c =>
      { c with calls := (c.pc + 1) :: c.calls, pc := t, next := c.next + 2 })) ∧
  (∀ (q : Fin 16) (k : Fin 4) (s : State) (t : Nat), Issues s q k (.call t) → 4 ≤ ((issueState s q k 0x29).core q k).calls.length →
    Machine.exec (.coreCall q k) s = .next (((issueState s q k 0x29).coreFault q k 7).corePast q k)) ∧
  (∀ (q : Fin 16) (k : Fin 4) (s : State) (t : Nat) (ts : List Nat), Issues s q k .ret → ((issueState s q k 0x2A).core q k).calls = t :: ts →
    Machine.exec (.coreRet q k) s = .next (coreStep s q k 0x2A fun c => { c with calls := ts, pc := t, next := c.next + 2 })) ∧
  (∀ (q : Fin 16) (k : Fin 4) (s : State), Issues s q k .ret → ((issueState s q k 0x2A).core q k).calls = [] →
    Machine.exec (.coreRet q k) s = .next (((issueState s q k 0x2A).coreFault q k 7).corePast q k)) ∧
  (∀ (q : Fin 16) (k : Fin 4) (s : State) (r : Bool) (d n e : Nat), Issues s q k (.rep r d n e) →
    let x := (issueState s q k 0x2C).core q k
    let i := if r then (x.dr d).toNat else n + 1
    ((x.reps.any fun y => y.fin == x.pc) = false → i ≠ 0 → x.reps.length < 4 →
      Machine.exec (.coreRep q k) s = .next (coreStep s q k 0x2C fun c =>
        { c with reps := { start := c.pc + 1, fin := e, left := i - 1 } :: c.reps, pc := c.pc + 1, next := c.next + 1 })) ∧
    ((x.reps.any fun y => y.fin == x.pc) = false → i = 0 →
      Machine.exec (.coreRep q k) s = .next (coreStep s q k 0x2C fun c =>
        { c with reps := (repAfter e c.reps).2, pc := (repAfter e c.reps).1, next := c.next + 2 })) ∧
    ((x.reps.any fun y => y.fin == x.pc) = true →
      Machine.exec (.coreRep q k) s = .next (((issueState s q k 0x2C).coreFault q k 6).corePast q k)) ∧
    ((x.reps.any fun y => y.fin == x.pc) = false → i ≠ 0 → 4 ≤ x.reps.length →
      Machine.exec (.coreRep q k) s = .next (((issueState s q k 0x2C).coreFault q k 6).corePast q k))) ∧
  (∀ (q : Fin 16) (k : Fin 4) (s : State) (kd ei n : Nat), Issues s q k (.wait kd ei n) →
    Machine.exec (.coreWait q k) s = .next (coreStep s q k 0x2E fun c => c.waitOp kd ei n)) ∧
  (∀ (q : Fin 16) (k : Fin 4) (s : State) (w : CWait), (s.core q k).wait = some w → w.kind = 3 →
    Machine.exec (.coreWaitRelease q k) s = .next (((s.advanceTo ((s.core q k).next * uCycle)).onCore q k fun c =>
      { c with st := .running, wait := none }).corePast q k)) ∧
  (∀ (q : Fin 16) (k : Fin 4) (s : State) (w : CWait) (e : Nat), (s.core q k).wait = some w → w.kind ≠ 3 →
    (s.core q k).holdsAt w = some e → (w.count = 0 ∨ e ≤ w.since + w.count) →
    Machine.exec (.coreWaitRelease q k) s = .next (((s.advanceTo (e * uCycle)).onCore q k fun c =>
      { c with st := .running, wait := none, next := e + 2, sr := { c.sr with t := false },
               eilat := if w.kind = 1 then lput c.eilat w.ei none else c.eilat }).corePast q k)) ∧
  (∀ (q : Fin 16) (k : Fin 4) (s : State) (w : CWait), (s.core q k).wait = some w → w.kind ≠ 3 → w.count ≠ 0 →
    (∀ e, (s.core q k).holdsAt w = some e → w.since + w.count < e) →
    Machine.exec (.coreWaitTimeout q k) s = .next (((s.advanceTo ((w.since + w.count) * uCycle)).onCore q k fun c =>
      { c with st := .running, wait := none, next := w.since + w.count + 1, sr := { c.sr with t := true } }).corePast q k)) ∧
  (∀ (q : Fin 16) (k : Fin 4) (s : State), Issues s q k (.plain 0x3C) →
    let x := (issueState s q k 0x3C).core q k
    let open' := !(x.reps.isEmpty && x.calls.isEmpty)
    let idle := match x.swap with | some (_, _, cycle) => decide (x.next ≤ cycle) | none => true
    (open' = true → Machine.exec (.coreSafe q k) s = .next (coreStep s q k 0x3C fun c => { c.after 1 with safeSt := 0 })) ∧
    (open' = false → idle = true → x.stopSafe = false →
      Machine.exec (.coreSafe q k) s = .next (coreStep s q k 0x3C fun c => { c.after 1 with safeSt := 1 })) ∧
    (open' = false → idle = true → x.stopSafe = true →
      Machine.exec (.coreSafe q k) s = .next (coreStep s q k 0x3C fun c => ({ c.after 1 with safeSt := 1 } : FbCore).stop .halted 2)) ∧
    (∀ (entry cycle : Nat) (keep : Bool), open' = false → x.swap = some (entry, keep, cycle) → cycle < x.next →
      let kept := if keep then x else
        { x with d := FbCore.reset.d, a0 := 0, a1 := 0, x := FbCore.reset.x, y := FbCore.reset.y, wx := FbCore.reset.wx, wy := FbCore.reset.wy }
      let y : FbCore := { kept with active := !x.active, swap := none, safeSt := 1, pc := entry, next := x.next + 3 }
      Machine.exec (.coreSafe q k) s = .next ((((issueState s q k 0x3C).onCore q k fun _ =>
        if x.stopSafe then y.stop .halted 2 else y).resolve (wait .fbSwap (coreId q k) 0) []).corePast q k))) ∧
  (∀ (q : Fin 16) (k : Fin 4) (s : State), Issues s q k (.plain 0x3F) →
    Machine.exec (.coreHalt q k) s = .next (coreStep s q k 0x3F fun c =>
      { c.after 1 with st := .halted, cause := 1, wait := none, stopSafe := false }))

/-- O33. Flags, frames and events that a core sends, and the frames that reach it, have their effect: FLAG and FLAGG change the flags that the core may
change, SENDF queues a frame, EVOUT fires its channel if it has one (R180, R181, R184); a frame is launched at the first cycle that R184 allows and goes to a
Quire of the device or to a port; a received frame changes flags, then gives data, in CONTROL, and is refused elsewhere (R186). The model's choices are in the
log entries 118, 119 and 120. [05_feedback_cores (R180), 05_feedback_cores (R181),
05_feedback_cores (R184), 05_feedback_cores (R186)] -/
def Obligations.CoreOutputRowsComplete : Prop :=
  (∀ (q : Fin 16) (k : Fin 4) (s : State) (f m a : Nat), Issues s q k (.flag f m a) →
    let s1 := issueState s q k 0x30
    Machine.exec (.coreFlag q k) s = .next (((s1.coreFlags q k (1#64 <<< f)
      (if (s1.core q k).flagValue m a then 1#64 <<< f else 0)).onCore q k fun c => c.after 1).corePast q k)) ∧
  (∀ (q : Fin 16) (k : Fin 4) (s : State) (g dm dv : Nat), Issues s q k (.flagg g dm dv) →
    let s1 := issueState s q k 0x31
    Machine.exec (.coreFlagg q k) s = .next (((s1.coreFlags q k (((s1.core q k).dr dm).setWidth 64 <<< (16 * g))
      (((s1.core q k).dr dv).setWidth 64 <<< (16 * g))).onCore q k fun c => c.after 1).corePast q k)) ∧
  (∀ (q : Fin 16) (k : Fin 4) (s : State) (r dm dv dd : Nat) (fl dt : Bool), Issues s q k (.sendf r fl dm dv dt dd) →
    Machine.exec (.coreSendf q k) s =
      .next ((((issueState s q k 0x32).sendf q k r fl dm dv dt dd).onCore q k fun c => c.after 1).corePast q k)) ∧
  (∀ (q : Fin 16) (k : Fin 4) (s : State) (e : Nat), Issues s q k (.evout e) →
    let s1 := issueState s q k 0x33
    let ch := lget 0xFFFF (s1.core q k).cfg.evo e
    (ch < 256 → Machine.exec (.coreEvout q k) s = .next (((s1.delay (((s1.core q k).next + 1) * uCycle) (.evout q k ch)).onCore q k
      fun c => c.after 1).corePast q k)) ∧
    (256 ≤ ch → Machine.exec (.coreEvout q k) s = .next (coreStep s q k 0x33 fun c => c.after 1))) ∧
  (∀ (q : Fin 16) (s : State) (x : FbSend) (rest : List FbSend), (s.fbq q).sendq = x :: rest →
    let l := max (x.issue + 3) (match (s.fbq q).lastLaunch with | some n => n + 2 | none => 0)
    let s1 := ((s.advanceTo (l * uCycle)).onFb q fun b => { b with sendq := rest, lastLaunch := some l }).onCore q x.core fun c =>
      { c with framesSent := inc32 c.framesSent }
    (x.port = 0 → Machine.exec (.sendQueueLaunch q) s =
      .next ((s1.onFb q fun b => { b with routes := tmod .reset b.routes x.route fun r => { r with sent := inc32 r.sent } }).onFb
        (Sys2Proof.u x.payload 0 1 % 16) fun b =>
          { b with inbound := insFlight { arrive := l + 14, order := q, remote := false, payload := x.payload } b.inbound })) ∧
    (x.port ≠ 0 → Machine.exec (.sendQueueLaunch q) s =
      .next (s1.delay ((l + 14) * uCycle) (.fbOut q x.core x.route x.port x.addr x.payload)))) ∧
  (∀ (q : Fin 16) (s : State) (x : FbFlight) (rest : List FbFlight), (s.fbq q).inbound = x :: rest →
    let s1 := (s.advanceTo (x.arrive * uCycle)).onFb q fun b => { b with inbound := rest }
    let ctrl := Sys2Proof.u x.payload 1 1
    let s2 := s1.onCore q (ctrl % 4) fun c => { c with framesRecv := inc32 c.framesRecv }
    (s1.pers q ≠ .control →
      Machine.exec (.feedbackFrameReceive q) s = .next (s1.onFb q fun b => { b with remoteDenied := inc32 b.remoteDenied })) ∧
    let s3 := if bitOf ctrl 2 then s2.frameFlags q x.arrive (Sys2Proof.u x.payload 4 1 % 4)
      (BitVec.ofNat 16 (Sys2Proof.u x.payload 6 2)) (BitVec.ofNat 16 (Sys2Proof.u x.payload 8 2)) else s2
    (s1.pers q = .control →
      Machine.exec (.feedbackFrameReceive q) s = .next (if bitOf ctrl 3 then s3.frameData q (ctrl % 4) x.arrive x.remote x.payload else s3)))

/-- O34. Intake frames, channelisers, blocks, integrations, exports and beam output have their effect: every frame on an UP lane is staged or counted by its
fault (R207, R212); a running channeliser writes its next row or loses it (R217 to R224); a block that every channeliser has written is released; a new corner
turn begins at a wrap (R225); at a block boundary changes of members come before the plans (R238); the correlator adds a channel of a block (R239, R244), ends
an integration, exports it or overruns (R252 to R256), and the beamformer puts out a block (R258 to R262). The model's choices are in the log entries 128,
130, 198, 133, 134 and 135. [06_intake_channelizer, 07_correlation_beamforming] -/
def Obligations.IntakeAndPlanRowsComplete : Prop :=
  (∀ (lane : Fin 72) (bytes : List Byte) (s : State) (i : Nat), (s.lane lane).st = .up → s.frameCheck lane true bytes = .ok i →
    let n := Sys2Proof.u bytes 20 4
    let gap := match (s.input i).seq with | some p => decide (n ≠ (p + 1) % 2 ^ 32) | none => false
    Machine.exec (.intakeFrame lane true bytes) s = .next (((s.laneStat lane fun l =>
      { l with framesOk := inc32 l.framesOk, seqGap := if gap then inc32 l.seqGap else l.seqGap }).onInput i fun x =>
        { x with seq := some n }).stageFrame i bytes)) ∧
  (∀ (lane : Fin 72) (whole : Bool) (bytes : List Byte) (s : State) (e : FrameDrop), (s.lane lane).st = .up → s.frameCheck lane whole bytes = .error e →
    Machine.exec (.intakeFrame lane whole bytes) s = .next (s.laneStat lane fun l => match e with
      | .format => { l with formatErr := inc32 l.formatErr }
      | .crc => { l with crcErr := inc32 l.crcErr }
      | .unknown => { l with unknownSrc := inc32 l.unknownSrc }
      | .mismatch => { l with mismatch := inc32 l.mismatch }
      | .idle => { l with idleDrop := inc32 l.idleDrop })) ∧
  (∀ (q : Fin 16) (x : List AdcIn) (s : State) (c : ChanCfg) (k : CtCfg), (s.chanl q).cfg = some c → s.ct.cfg = some k →
    s.chanRuns q = true →
    let adc := s.slotSample q x
    let j := (s.chanl q).next
    let clk := s.planClock q
    let label := clk.label j
    let last := (j * clk.per + (c.p - 1) * (clk.per / c.p) + clk.goff) * uSample / clk.mul
    let s1 := s.advanceTo (last + s.ct.alignTime)
    let (blk, t) := s1.ct.place k.b j
    ((∃ m, (s.chanl q).until' = some m ∧ m ≤ blk) → Machine.exec (.channelise q x) s = .next s) ∧
    let s2 := if t = 0 then s1.onChan q fun x => x.takeGains label else s1
    let free := s2.halfFree blk
    let s2' := (List.range c.count).foldl (fun (a : State) n => a.countInput q x (c.base + n) j label c) s2
    let (s3, rows) := (List.range c.count).foldl (fun (a : State × List (Nat × List Iq)) n =>
      let r := a.1.channeliseInput q (c.base + n) j label c adc (!free)
      (r.1, a.2 ++ [(c.base + n, r.2)])) (s2', [])
    let s4 :=
      if free then
        (List.range (min c.f k.f)).foldl (fun a ch =>
          a.memWrite k.region (k.offset (s2.ct.half blk) ch t c.base)
            (rows.flatMap fun e => sampleBytes k.s (lget ⟨0, 0⟩ e.2 ch))) s3
      else
        s3.onChan q fun x => { x with lost := x.lost ++ [(blk, t)] }
    let s5 := s4.onChan q fun x => { x with next := j + 1 }
    ((∀ m, (s.chanl q).until' = some m → blk < m) → Machine.exec (.channelise q x) s =
      .next (if t + 1 = k.b then (s5.endBlock c blk).onChan q fun x => { x with written := blk + 1 } else s5))) ∧
  (∀ (s : State) (k : CtCfg), s.ct.cfg = some k → s.chanQuires ≠ [] →
    (∀ q ∈ s.chanQuires, s.ct.released < (s.chanl q).written ∨ ∃ m, (s.chanl q).until' = some m ∧ m ≤ s.ct.released) → s.halfFree s.ct.released = true →
    let blk := s.ct.released
    Machine.exec .blockRelease s = .next ((s.chanQuires.foldl (fun (a : State) q =>
      match (a.chanl q).cfg with
      | some c => (a.zeroLost q blk c k).onChan q fun x => { x with lost := x.lost.filter fun e => e.1 != blk, until' := x.until'.filter fun m => decide (blk + 1 < m) }
      | none => a) s).onCt fun t => { t with released := blk + 1 })) ∧
  (∀ (s : State) (k k' : CtCfg), s.ct.cfg = some k → s.ct.pend = some k' →
    (s.plans.corr.run.active = true → s.plans.corr.run.st ≠ .pending → s.plans.corr.run.proc = s.ct.released) →
    (s.plans.beam.run.active = true → s.plans.beam.run.st ≠ .pending → s.plans.beam.run.proc = s.ct.released) →
    s.ct.num s.ct.released % 2 = 0 → s.ct.nextB ≤ s.ct.released + 1 →
    (∀ q ∈ s.chanQuires, (s.chanl q).next = s.ct.origin + s.ct.num s.ct.released * k.b) →
    let m := s.ct.released
    (k'.b = k.b → Machine.exec .ctWrap s = .next ((s.onCt fun c => { c with cfg := some k', pend := none }).resolve (wait .ct 0 0) [])) ∧
    let s1 := s.onCt fun c => { c with cfg := some k', pend := none, origin := s.ct.origin + s.ct.num m * k.b, off := -(m : Int), seam := [] }
    let s2 := s1.onCorr fun c =>
      { c.cutAt m 0 with numBase := match c.cur.find? fun x => x.first == m with | some x => x.number | none => c.nextNumber }
    let goesOn := s2.plans.corr.run.st = .running ∧ s2.ct.nextB = m + 1
    (k'.b ≠ k.b → s2.plans.corr.cfg = none ∨ ¬goesOn → Machine.exec .ctWrap s = .next (s2.resolve (wait .ct 0 0) [])) ∧
    (∀ p : CorrCfg, k'.b ≠ k.b → s2.plans.corr.cfg = some p → goesOn → Machine.exec .ctWrap s = .next ((s2.onCorr fun c =>
      if c.cur.any fun x => x.first == m then c else c.begin m c.numBase (s2.blockLabel m) p.nblk).resolve (wait .ct 0 0) []))) ∧
  (∀ s : State, s.blocksCome = true →
    let s1 := s.advanceTo (s.blockLabel s.ct.nextB)
    let qs := (List.range 16).filter fun q => s1.inPlan q
    Machine.exec .blockBoundary s =
      .next (((qs.filter fun q => s.integrationEdge q s.ct.nextB).foldl (fun (a : State) q => if (a.qb q).pendPers.isSome then a.persChange q else a.configAct q) s1).planBoundary.govern
        fun q => qs.contains q)) ∧
  (∀ (s : State) (p : CorrCfg) (k : CtCfg) (x : Integ), s.plans.corr.cfg = some p → s.ct.cfg = some k → s.plans.corr.run.active = true →
    s.plans.corr.run.st ≠ .pending → s.plans.corr.run.proc < s.ct.released →
    let c := s.plans.corr
    let blk := c.run.proc
    (c.cur.find? fun x => decide (x.first ≤ blk) && decide (blk < x.last)) = some x →
    (blk = x.first → c.chan = 0 → ∀ y ∈ c.finished, y.number % 2 ≠ x.number % 2) →
    let first := blk == x.first
    let tiles := p.tiles k.npad
    let r := s.addTiles p k blk (s.ct.half blk) (x.number % 2) c.chan first 0 tiles 0
    let endB := c.chan + 1 == k.f
    let x1 := { x with sat := x.sat + r.2 }
    let x2 := if endB then { s.addWeights p k blk x1 with blocks := x.blocks + 1 } else x1
    let s1 := r.1.onCorr fun c => { c with chan := if endB then 0 else c.chan + 1, cur := c.cur.map fun y => if y.number = x.number then x2 else y }
    let s2 := s1.onCorrRun fun q =>
      { q with sat := satAdd 32 q.sat r.2, cellops := (q.cellops + tiles.length * 1024 * k.b * p.passes) % 2 ^ 64,
               blanked := satAdd 32 q.blanked (x2.blankedSum - x.blankedSum),
               proc := if endB then blk + 1 else blk }
    let s3 := (s2.creditCells c.run.members tiles.length p.passes (1024 * k.b)).onClk fun c => { c with pairs := (c.pairs + p.items true k.npad * k.b) % 2 ^ 64 }
    Machine.exec .channelAdd s = .next (if endB then s3.dropRecs else s3)) ∧
  (∀ (s : State) (p : CorrCfg) (k : CtCfg), s.plans.corr.cfg = some p → s.ct.cfg = some k → s.plans.corr.run.active = true →
    s.plans.corr.run.st ≠ .pending → s.plans.corr.run.proc < s.ct.released →
    let blk := s.plans.corr.run.proc
    (∀ x ∈ s.plans.corr.cur, x.first ≤ blk → x.last ≤ blk) →
    let s1 := (s.onCorr fun c => { c with chan := 0 }).onCorrRun fun r => { r with proc := blk + 1 }
    let tiles := (p.tiles k.npad).length
    ((s.plans.corr.stop = some 2 ∨ s.plans.corr.stop = some 3) → Machine.exec .channelAdd s = .next s1.dropRecs) ∧
    (s.plans.corr.stop ≠ some 2 → s.plans.corr.stop ≠ some 3 → Machine.exec .channelAdd s =
      .next ((s1.onCorrRun fun q => { q with cellops := (q.cellops + tiles * 1024 * k.b * p.passes * k.f) % 2 ^ 64 }).creditCells s.plans.corr.run.members tiles
        p.passes (1024 * k.b * k.f)).dropRecs)) ∧
  (∀ (s : State) (x : Integ) (xs : List Integ), s.plans.corr.cur = x :: xs → x.last ≤ s.plans.corr.run.proc → s.plans.corr.chan = 0 →
    Machine.exec .integrationFinished s = .next (s.onCorr fun c => { c with cur := xs, finished := c.finished ++ [{ x with exp := c.exp }] })) ∧
  (∀ (s : State) (x : Integ) (xs : List Integ) (p : CorrCfg) (k : CtCfg) (e : CorrExport), s.plans.corr.finished = x :: xs →
    s.plans.corr.cfg = some p → s.ct.cfg = some k → x.exp = some e → (∃ i ∈ e.list, s.pathCap i ≠ 0) →
    Machine.exec .exportComplete s = .next (((((s.stripe e [] (s.integRecords p k e x ++ [endRecord x false])).onCorr fun c =>
      { c with finished := xs }).onCorrRun fun r => { r with exported := inc32 r.exported }).fireObj p.evInteg deviceId).corrDrained)) ∧
  (∀ (s : State) (x : Integ) (xs : List Integ) (p : CorrCfg) (k : CtCfg), s.plans.corr.finished = x :: xs →
    s.plans.corr.cfg = some p → s.ct.cfg = some k → x.exp = none →
    Machine.exec .exportComplete s = .next ((s.onCorr fun c => { c with finished := xs }).corrDrained)) ∧
  (∀ (s : State) (n : Nat) (x : Integ) (xs : List Integ) (p : CorrCfg) (k : CtCfg), s.plans.corr.finished = x :: xs →
    s.plans.corr.cfg = some p → s.ct.cfg = some k →
    (∃ y ∈ s.plans.corr.cur, (∃ z ∈ s.plans.corr.finished, z.number % 2 = y.number % 2) ∧ y.first = s.plans.corr.run.proc ∧ y.first < s.ct.released) →
    let s1 := match x.exp with
      | some e => s.stripe e [] ((s.integRecords p k e x).take n ++ [endRecord x true])
      | none => s
    Machine.exec (.overrun n) s = .next (((((s1.onCorr fun c => { c with finished := xs }).onCorrRun fun r =>
      { r with overrun := inc32 r.overrun }).fireObj p.evInteg deviceId).fireObj p.evAlarm deviceId).corrDrained)) ∧
  (∀ (s : State) (p : BeamCfg) (k : CtCfg), s.plans.beam.cfg = some p → s.ct.cfg = some k → (s.plans.beam.run.st = .running ∨ s.plans.beam.run.st = .stopping) →
    s.plans.beam.run.proc < s.ct.released →
    let b := s.plans.beam
    let blk := b.run.proc
    let bank := b.bankOf blk
    let clips := (List.range p.nch).foldl (fun n c => (List.range p.nbeam).foldl (fun n m =>
      (List.range k.b).foldl (fun n t => n + (s.beamSample p k blk bank (p.ch0 + c) t m).2) n) n) 0
    let void := s.ct.void.contains blk
    let s1 := if void then s else (List.range 6).foldl (fun a i => match lget none (b.pathsOf blk) i with
      | some x => a.beamPathOut p k blk bank i x
      | none => a) s
    let s2 := s1.onBeamRun fun r =>
      { r with proc := blk + 1, clip := if void then r.clip else satAdd 32 r.clip clips, exported := if void then r.exported else inc32 r.exported,
               cellops := (r.cellops + p.tileCount k.npad * 1024 * k.b * p.passes * p.nch) % 2 ^ 64 }
    let s3 := ((s2.creditCells b.run.members (p.tileCount k.npad) p.passes (1024 * k.b * p.nch)).fireObj (if void then 0xFFFF else p.evBlock) deviceId).dropRecs
    ((∀ m, b.last = some m → blk + 1 < m) → Machine.exec .beamBlockOutput s = .next s3) ∧
    (∀ m, b.last = some m → m ≤ blk + 1 → Machine.exec .beamBlockOutput s = .next s3.beamDrained))

/-- O35. Mutes, switches, settling, temperature and calibrations of the converter lines have their effect: an edge of the RF_MUTE_N pin acts once it has stood
for FILTER ns (R283); a mute takes effect at its instant, the switch opens after it, and the input resumes (R281, R282); a line settles (R279); THERM sets and
clears at its two limits (R280); calibrations come due, run and are judged (R288 to R290). The model's choices are in the log entries 137 and
138. [08_converter_chiplets] -/
def Obligations.ConverterRowsComplete : Prop :=
  (∀ (low : Bool) (s : State), s.dev.st ≠ .off →
    let s2 : State := { s.onRf fun r => { r with pinRaw := low } with
      delayed := s.delayed.filter fun d => match d.eff with | .mutePin _ => false | _ => true }
    (low = s.rf.pinRaw → Machine.exec (.rfMuteN low) s = .next s) ∧
    (low ≠ s.rf.pinRaw → low = s.rf.pin → Machine.exec (.rfMuteN low) s = .next s2) ∧
    (low ≠ s.rf.pinRaw → low ≠ s.rf.pin → s.rf.filter = 0 → Machine.exec (.rfMuteN low) s = .next (s2.mutePin low)) ∧
    (low ≠ s.rf.pinRaw → low ≠ s.rf.pin → s.rf.filter ≠ 0 →
      Machine.exec (.rfMuteN low) s = .next (s2.delay (s.now + s.rf.filter * uNs) (.mutePin low)))) ∧
  (∀ (low : Bool) (s : State), s.dev.st = .off → Machine.exec (.rfMuteN low) s = .next (s.onRf fun r => { r with pinRaw := low, pin := low })) ∧
  (∀ s : State, s.mutePin true = (s.onRf fun r => { r with pin := true, pinAt := some s.now }).setCauses allDacs mPin s.rf.latch ∧
    s.mutePin false = (s.onRf fun r => { r with pin := false }).clearCauses allDacs mPin) ∧
  (∀ (n : Fin 40) (s : State) (m : Nat) (ms : List Nat), (s.dac n).mutes ++ (s.dac n).muteAt.toList = m :: ms →
    let t := ms.foldl min m
    Machine.exec (.muteTakeEffect n) s = .next ((s.advanceTo t).onDac n fun d =>
      let d1 := d.takeMutes t
      match d1.muteAt with
      | some x => { d1 with muteAt := none, zeroAt := x, zero := true }
      | none => d1)) ∧
  (∀ (n : Fin 40) (s : State), (s.dac n).zero = true → (s.dac n).cause ≠ 0 → (s.dac n).opened = false →
    Machine.exec (.switchOpen n) s = .next ((s.advanceTo ((s.dac n).zeroAt + tSwitch)).onDac n fun d => { d with opened := true })) ∧
  (∀ (n : Fin 40) (s : State) (t : Nat), (s.dac n).resumeAt = some t → (s.dac n).cause = 0 →
    Machine.exec (.unmuteResume n) s = .next ((s.advanceTo t).onDac n fun d => { d with zero := false, resumeAt := none })) ∧
  (∀ (n : Fin 40) (s : State) (t : Nat), (s.dac n).settleTo = some t →
    Machine.exec (.lineSettle n) s = .next ((s.advanceTo t).onDac n fun d => { d with settleTo := none })) ∧
  (∀ (c : Fin 4) (m : Int) (s : State), 110000 < m → s.rf.hot.contains c.val = false →
    Machine.exec (.therm c m) s = .next ((s.onRf fun r => { r with hot := c.val :: r.hot }).setCauses (chipDacs c) mTherm true)) ∧
  (∀ (c : Fin 4) (m : Int) (s : State), m < 100000 → s.rf.hot.contains c.val = true →
    Machine.exec (.therm c m) s = .next ((s.onRf fun r => { r with hot := r.hot.filter fun x => x != c.val }).clearCauses (chipDacs c) mTherm)) ∧
  (∀ (c : Fin 4) (m : Int) (s : State), (s.rf.hot.contains c.val = false → m ≤ 110000) → (s.rf.hot.contains c.val = true → 100000 ≤ m) →
    Machine.exec (.therm c m) s = .next s) ∧
  (∀ (n : Fin 40) (m1 m2 : List Int) (s : State), s.runs = true → s.dacOut n = false → s.dacRetired n = false →
    let ok := calAgree dacTol m1 m2 && !s.bsc.cal.suspended
    let fin := fun (a : State) => (a.onDac n fun d => { d with cal := d.cal.judge ok m1 m2 a.now }).lineJudged (dacId n) ok
    let s1 := s.advanceTo ((s.dac n).cal.from' + (s.dac n).cal.period * uS)
    ((s.dac n).cal.until' ≠ none → Machine.exec (.dacBackgroundCal n m1 m2) s = .next (fin s)) ∧
    ((s.dac n).cal.until' = none → (s.dac n).cal.policy = 2 →
      Machine.exec (.dacBackgroundCal n m1 m2) s = .next (fin (s1.onDac n fun d => { d with cal := { d.cal with from' := s1.now } })))) ∧
  (∀ (n : Fin 16) (m1 m2 : List Int) (s : State), s.dev.st ≠ .off →
    let ok := calAgree adcTol m1 m2 && !s.bsc.cal.suspended
    (∀ t, (s.adc n).cal.until' = some t →
      let s1 := s.advanceTo t
      Machine.exec (.referenceCalibration n m1 m2) s =
        .next ((s1.onAdc n fun a => { a with cal := a.cal.judge ok m1 m2 s1.now }).lineJudged (adcId n) ok)) ∧
    ((s.adc n).cal.until' = none → (s.adc n).cal.due = true → (s.adc n).cal.policy = 1 →
      let s1 := s.advanceTo (tickAt s.now)
      s1.calAllowed n = true →
      Machine.exec (.referenceCalibration n m1 m2) s = .next (s1.onAdc n fun a =>
        { a.gap s1.now (some (s1.now + refCalTime)) with cal := { a.cal with until' := some (s1.now + refCalTime) } }))) ∧
  (∀ (n : Fin 16) (s : State), s.runs = true → s.adcOut n = false → s.adcRetired n = false → (s.adc n).cal.policy ≠ 0 →
    let c := (s.adc n).cal
    let s1 := s.advanceTo (c.from' + c.period * uS)
    let missed := if c.due then inc32 c.missed else c.missed
    ((c.policy ≠ 2 ∨ c.until' ≠ none) → Machine.exec (.adcCalDue n) s = .next (s1.onAdc n fun a =>
      { a with cal := { a.cal with from' := s1.now, missed := missed, due := true, until' := c.until' } })) ∧
    (c.policy = 2 → c.until' = none → Machine.exec (.adcCalDue n) s = .next ((s1.onAdc n fun a => a.gap s1.now (some (s1.now + refCalTime))).onAdc n
      fun a => { a with cal := { a.cal with from' := s1.now, missed := missed, due := true, until' := some (s1.now + refCalTime) } })))

/-- O36. A lane's training, errors, self-test, retries, skips and identification have their effect, for every lane in the state that the row is about (R307): 64
valid sets lead to UP, 2 ms without them to TEST or ABSENT; errors are counted, and eight in 256 slots, or silence, are a lane error (R308); a self-test decides
(R309); SKIP and IDENT go out at their periods (R303, R304), and a report of the far end is kept, refused or stale (R324); a commanded test ends with its result
(R334). The model's choices are in the log entries 139, 140, 144 and 149. [09_lanes_array_links] -/
def Obligations.LaneRowsComplete : Prop :=
  (∀ (n : Fin 92) (s : State), (s.lane n).st = .training →
    Machine.exec (.laneUp n) s = .next (((s.laneTo n .up).onLane n fun l => { l with upCount := inc32 l.upCount }).laneDone n) ∧
    let s1 := s.advanceTo ((s.lane n).since + 2 * uMs)
    Machine.exec (.trainingTimeout n) s = .next (if (s1.lane n).passed then (s1.laneTo n .absent).laneDone n else s1.laneFails n 3)) ∧
  (∀ (n : Fin 92) (c d : Nat) (silent : Bool) (s : State), (s.lane n).st = .up →
    let errs := s.laneErrs n ++ [(s.now, c + d)]
    let total := (errs.map fun e => e.2).sum
    let s1 := s.onLane n fun l => { l with codeErr := satAdd 32 l.codeErr c, dispErr := satAdd 32 l.dispErr d, errs := errs }
    (silent = false → total < 8 → Machine.exec (.laneError n c d silent) s = .next s1) ∧
    (silent = false → 8 ≤ total → Machine.exec (.laneError n c d silent) s = .next ((s1.onLane n fun l => { l with laneErr := inc32 l.laneErr }).laneFails n 2)) ∧
    (silent = true → Machine.exec (.laneError n c d silent) s = .next ((s1.onLane n fun l => { l with laneErr := inc32 l.laneErr }).laneFails n 1))) ∧
  (∀ (n : Fin 92) (s : State), (s.lane n).st = .test → (s.lane n).cmdTest = none →
    let s1 := s.advanceTo ((s.lane n).since + 10 * uMs)
    let s2 := s1.transientPass (laneUnit n) (laneId n) 0
    Machine.exec (.laneSelftestDone n 0) s =
      .next (((if (s.lane n).fromUp then s2.train n else s2.laneTo n .absent).onLane n fun x => { x with passed := true }).laneDone n) ∧
    ∀ e, e ≠ 0 → Machine.exec (.laneSelftestDone n e) s = .next (s1.laneFaulty n 3 0 e)) ∧
  (∀ (n : Fin 92) (s : State), (s.lane n).st = .absent →
    Machine.exec (.laneRetry n) s =
      .next (((s.advanceTo ((s.lane n).since + (s.laneCfg (laneGroup n)).retryMs * uMs)).train n).laneDone n)) ∧
  (∀ (n : Fin 92) (a : Nat) (s : State), (s.lane n).sendsSets = true →
    let t := (s.lane n).skipAt + 1024 * slotTime (s.laneRate n)
    let s1 := (s.advanceTo t).onLane n fun l => { l with skipAt := t, skipAdj := satAdd 32 l.skipAdj a }
    let ct := s1.charOf n
    let l := s1.lane n
    let edge := s1.frameEdge n
    (∀ x : TxPre, 72 ≤ n.val → (l.pres.find? fun p => decide (p.start ≤ s1.now) && decide (s1.now < p.stop)) = some x →
      Machine.exec (.skipSend n a) s = .next ((s1.onTx n fun l => l.openBracket ct x.stop (inBracket skipSet) true none).emitLine n
        (l.pres.filter fun p => decide (x.stop ≤ p.start)).length (inBracket skipSet))) ∧
    (72 ≤ n.val → (l.pres.find? fun p => decide (p.start ≤ s1.now) && decide (s1.now < p.stop)) = none →
      (l.frames.any fun f => f.kind == .frame && decide (f.start < s1.now) && decide (s1.now < l.stopOf ct f)) = true →
      Machine.exec (.skipSend n a) s = .next ((s1.onTx n fun y => y.openBracket ct (l.charAt ct s1.now) (inBracket skipSet) true none).emitLine n
        (l.pres.filter fun p => decide (l.charAt ct s1.now ≤ p.start)).length (inBracket skipSet))) ∧
    (n.val < 72 ∨ (l.pres.find? fun p => decide (p.start ≤ s1.now) && decide (s1.now < p.stop)) = none ∧
        (l.frames.any fun f => f.kind == .frame && decide (f.start < s1.now) && decide (s1.now < l.stopOf ct f)) = false →
      Machine.exec (.skipSend n a) s = .next ((s1.onTx n fun y => y.frame ct .set edge skipSet).emitLine n
        (l.frames.filter fun f => decide (edge ≤ f.start)).length skipSet))) ∧
  (∀ (n : Fin 92) (s : State), (s.lane n).sendsSets = true →
    let s1 := s.advanceTo ((s.lane n).identTx + 4096 * slotTime (s.laneRate n))
    let s2 := s1.advanceTo (s1.identStart n)
    let cs := identChars (s2.identBytes n)
    let ct := s2.charOf n
    let at' := (s2.lane n).charAt ct s2.now
    Machine.exec (.identSend n) s = .next (((s2.onTx n fun x => x.frame ct .ident at' cs).onLane n fun x => { x with identTx := at' }).emitLine n
      (((s2.lane n).frames.filter fun f => decide (at' ≤ f.start)).length + ((s2.lane n).pres.filter fun p => decide (at' ≤ p.start)).length) cs)) ∧
  (∀ (n : Fin 92) (b : List Byte) (s : State), 72 ≤ n.val → (s.lane n).st = .up → s.dev.st ≠ .off →
    (b.length = 15 → (crc32c (b.take 11)).toNat = Sys2Proof.u b 11 4 → Sys2Proof.u b 0 1 ≠ 0 →
      Machine.exec (.identReceive n b) s = .next ((s.onLane n fun l => { l with ident := some (identOf b), identAt := s.now }).laneDone n)) ∧
    (b.length ≠ 15 ∨ (crc32c (b.take 11)).toNat ≠ Sys2Proof.u b 11 4 ∨ Sys2Proof.u b 0 1 = 0 →
      Machine.exec (.identReceive n b) s = .next (s.onLane n fun l => { l with identBad := inc32 l.identBad }))) ∧
  (∀ (n : Fin 92) (b : List Byte) (s : State), n.val < 72 → Machine.exec (.identReceive n b) s = .next s) ∧
  (∀ (n : Fin 20) (s : State), (s.lane (72 + n)).ident ≠ none →
    Machine.exec (.identStale n) s = .next ((s.advanceTo ((s.lane (72 + n)).identAt + 100 * uUs)).laneDone (72 + n))) ∧
  (∀ (n : Fin 92) (e t : Nat) (far : Bool) (s : State), (s.lane n).cmdTest = some (t, far) →
    Machine.exec (.laneTestEnd n e) s = .next ((((s.advanceTo t).train n).laneDone n).resolve { kind := .laneTest, a := n.val, b := 0 }
      (leBytes 8 ((t - (s.lane n).since) * 10 / charTime (s.laneRate n)) ++ leBytes 8 e)))

/-- O37. Frames on the array links, the reorder hold and the peer deadline have their effect: a frame of the row's class that passes the checks of R318 takes
its place in link order (R317), or as FEEDBACK reaches its Quire or is relayed (R186, R321); one that fails them is counted, and keeps its place in the order
where its PSEQ can be read; after 20 µs the missing ones count as lost; a peer command without a reply ends with E_PEER_DOWN (R327). The model's choices are in
the log entries 147, 120, 142 and 146. [09_lanes_array_links, 05_feedback_cores (R186)] -/
def Obligations.LinkFrameRowsComplete : Prop :=
  (∀ (p : Fin 4) (w : Bool) (b : List Byte) (s s1 : State) (h : Hdr), s.hears p = true → s.frameIn p w b = (s1, some h) →
    let q := Sys2Proof.u (slice b 8 16) 0 1
    (h.cls = 3 → Machine.exec (.cmdFrameReceive p w b) s = .next (s1.inOrder p (Sys2Proof.u b 8 4) b)) ∧
    (h.cls = 4 → Machine.exec (.eventFrameReceive p w b) s = .next (s1.inOrder p (Sys2Proof.u b 8 4) b)) ∧
    (h.cls = 5 → Machine.exec (.bulkFrameReceive p w b) s = .next (s1.inOrder p (Sys2Proof.u b 8 4) b)) ∧
    (h.cls = 2 → h.dest ≠ s.dev.addr → Machine.exec (.feedbackFrameLink p w b) s = .next (s1.relay p h (slice b 8 16))) ∧
    (h.cls = 2 → h.dest = s.dev.addr → q < 16 → Machine.exec (.feedbackFrameLink p w b) s = .next (s1.onFb q fun y =>
      { y with inbound := insFlight { arrive := cycleAt s1.now + 14, order := 16, remote := true, payload := slice b 8 16 } y.inbound })) ∧
    (h.cls = 2 → h.dest = s.dev.addr → 16 ≤ q → Machine.exec (.feedbackFrameLink p w b) s = .next s1)) ∧
  (∀ (p : Fin 4) (w : Bool) (b : List Byte) (s s1 : State), s.hears p = true → s.frameIn p w b = (s1, none) →
    let sound := w && decide (20 ≤ b.length) && leNat (b.drop (b.length - 4)) == (crc32c (b.take (b.length - 4))).toNat
    let t := if sound && !preClass (hdrOf b).cls then s1.inOrder p (Sys2Proof.u b 8 4) [] else s1
    Machine.exec (.cmdFrameReceive p w b) s = .next t ∧ Machine.exec (.eventFrameReceive p w b) s = .next t ∧
    Machine.exec (.bulkFrameReceive p w b) s = .next t ∧ Machine.exec (.feedbackFrameLink p w b) s = .next s1) ∧
  (∀ (p : Fin 4) (s : State) (f : HeldFrame), (s.port p).firstHeld = some f →
    let s1 := s.advanceTo ((s.port p).held.foldl (fun (t : Nat) x => min t x.at') f.at' + 20 * uUs)
    let n := (f.pseq + 2 ^ 32 - ((s1.port p).pseqRx.getD f.pseq)) % 2 ^ 32
    let s2 := s1.onPort p fun y =>
      { y with counts := lput y.counts PCount.lost.idx (satAdd 32 (lget 0 y.counts PCount.lost.idx) n), pseqRx := some f.pseq }
    Machine.exec (.reorderHoldExpiry p) s = .next (s2.flushHeld p (s2.port p).held.length)) ∧
  (∀ (p : Fin 4) (i : BitVec 32) (s : State) (x : PeerCmd), ((s.port p).peers.find? fun x => x.seq == i.toNat) = some x →
    Machine.exec (.peerDeadline p i) s =
      .next ((((s.advanceTo (x.sentAt + (s.port p).peerMs * uMs)).countPort p .peerTimeout).onPort p fun y =>
        { y with peers := y.peers.filter fun z => z.id != x.id }).failWait (wait .peerCmd p x.id) { status := Status.ePeerDown, word := p + 1, more := [] }))

/-- O38. Announcements, exchanges, steps, TRIG pins and launch slots have their effect: a Thread message for the device is handled by its kind, and one that
fails R318 or is for another device or of no known kind is counted (R318, R349); SYNC and ANNOUNCE go out at their periods (R350, R353); a master that is
silent, an exchange that is lost and a grandmaster that is ignored end at their times (R347, R350, R355); a step of device time is made, given up or moot (R358 to
R360, R372); TRIG pulses go out or are missed, TRIG edges are stamped (R365 to R367), and a slot is launched or lost (R368, R369). The model's choices are in
the log entries 151, 154, 155 and 185. [10_time_timed_outputs] -/
def Obligations.TimeRowsComplete : Prop :=
  (∀ (p : Fin 4) (x : TimeFrame) (s s1 : State) (h : Hdr), s.hears p = true → s.frameIn p x.whole x.bytes = (s1, some h) → h.cls = 1 → h.dest = s.dev.addr →
    let b := slice x.bytes 8 16
    (Sys2Proof.u b 0 1 = 1 → Machine.exec (.timeAnnounce p x) s = .next (s1.timeMessage p b x.stamp)) ∧
    (Sys2Proof.u b 0 1 = 2 → Machine.exec (.timeSync p x) s = .next (s1.timeMessage p b x.stamp)) ∧
    (Sys2Proof.u b 0 1 = 3 → Machine.exec (.timeFollowUp p x) s = .next (s1.timeMessage p b x.stamp)) ∧
    (Sys2Proof.u b 0 1 = 4 → Machine.exec (.timeDelayReq p x) s = .next (s1.timeMessage p b x.stamp)) ∧
    (Sys2Proof.u b 0 1 = 5 → Machine.exec (.timeDelayResp p x) s = .next (s1.timeMessage p b x.stamp))) ∧
  (∀ (p : Fin 4) (x : TimeFrame) (s s1 t : State), s.hears p = true →
    (s.frameIn p x.whole x.bytes = (s1, none) ∧ t = s1 ∨
      ∃ h : Hdr, s.frameIn p x.whole x.bytes = (s1, some h) ∧ h.cls = 1 ∧
        (h.dest ≠ s.dev.addr ∧ t = s1.countPort p .notNeighbour ∨
          h.dest = s.dev.addr ∧ (Sys2Proof.u (slice x.bytes 8 16) 0 1 = 0 ∨ 6 ≤ Sys2Proof.u (slice x.bytes 8 16) 0 1) ∧
            t = s1.onPort p fun y => { y with timeBad := inc32 y.timeBad })) →
    Machine.exec (.timeAnnounce p x) s = .next t ∧ Machine.exec (.timeSync p x) s = .next t ∧ Machine.exec (.timeFollowUp p x) s = .next t ∧
    Machine.exec (.timeDelayReq p x) s = .next t ∧ Machine.exec (.timeDelayResp p x) s = .next t) ∧
  (∀ (p : Fin 4) (s : State), s.dev.st ≠ .off →
    let per := 2 ^ s.tmu.cfg.syncLog2 * uUs
    let s1 := s.advanceTo ((s.now / per + 1) * per)
    (¬ (s1.portUp p = true ∧ s1.portRole p = 2) → Machine.exec (.syncInterval p) s = .next s1) ∧
    (s1.portUp p = true → s1.portRole p = 2 →
      let k := ((s1.port p).mseq + 1) % 256
      Machine.exec (.syncInterval p) s = .next (match ((s1.threadTable p).onPort p fun y => { y with mseq := k }).sendTime p (timeMsg 2 k []) with
        | (s2, some t1) => (s2.sendTime p (timeMsg 3 k (dtBytes t1))).1
        | (s2, none) => s2))) ∧
  (∀ s : State, s.dev.st ≠ .off → Machine.exec .announceInterval s = .next (s.advanceTo ((s.now / uMs + 1) * uMs)).announceAll) ∧
  (∀ (p : Fin 4) (s : State), (s.port p).vec ≠ none →
    Machine.exec (.masterTimeout p) s = .next ((s.advanceTo ((s.port p).vecAt + 3 * uMs)).onPort p fun x => { x with vec := none }).timeSelect) ∧
  (∀ (p : Fin 4) (s : State) (g t : Nat) (tl : List (Nat × Nat)), (s.port p).ignore = (g, t) :: tl →
    Machine.exec (.withdrawIgnoreEnd p) s = .next ((s.advanceTo t).onPort p fun x => { x with ignore := x.ignore.tail }).timeSelect) ∧
  (∀ (p : Fin 4) (s : State) (x : Exch), (s.port p).exch = some x →
    Machine.exec (.exchLost p) s = .next ((s.advanceTo (x.since + 100 * uUs)).exchDrop p)) ∧
  (∀ (s : State) (at' t : Nat), s.tmu.setTo = some (at', t) → (∀ x, s.tmu.step = some x → at' ≤ x.time) →
    Machine.exec .stepApply s = .next ((((((s.advanceTo at').onTmu fun u => { u with setTo := none }).stepTime ((t : Int) - (at' : Int))).stepped 0).onTmu
      fun u => { u with timeSet := true }).timeSelect)) ∧
  (∀ (s : State) (x : StepAt), s.tmu.step = some x → (∀ a, s.tmu.setTo = some a → x.time < a.1) →
    let s1 := (s.advanceTo x.time).onTmu fun t => { t with step := none }
    (∀ m p, x.maxAbs = some m → s1.tmu.pending = some p → p.natAbs ≤ 4 * m →
      Machine.exec .stepApply s = .next ((s1.stepPending p).resolve (wait .timeStep 0 0) [])) ∧
    (∀ m, x.maxAbs = some m → (∀ p, s1.tmu.pending = some p → 4 * m < p.natAbs) →
      Machine.exec .stepApply s = .next (s1.failWait (wait .timeStep 0 0) { status := Status.stepChanged, word := 0, more := [] })) ∧
    (∀ p, x.maxAbs = none → s1.tmu.pending = some p → Machine.exec .stepApply s = .next (s1.stepPending p)) ∧
    (x.maxAbs = none → s1.tmu.pending = none → Machine.exec .stepApply s = .next s1)) ∧
  (∀ (n : Fin 16) (s : State), (s.trig n).scheduled = true → s.runs = true →
    let t := s.trig n
    let edge := t.pulse t.next + t.fine * 16384
    let s1 := s.advanceTo edge
    (t.activeTo ≤ edge → (s1.clk.coherent = true ∨ s1.rf.allow = true) →
      Machine.exec (.trigPulse n) s = .next (((s1.onTrig n fun t =>
        { t with next := t.next + 1, issued := (t.issued + 1) % 2 ^ 64, activeTo := edge + t.width * uSample }).emit (.trig n edge)).fireObj t.ev (trigId n))) ∧
    ((edge < t.activeTo ∨ (s1.clk.coherent = false ∧ s1.rf.allow = false)) → Machine.exec (.trigPulse n) s = .next (s1.onTrig n fun t => { t with next := t.next + 1, missed := inc32 t.missed }))) ∧
  (∀ (n : Fin 16) (high : Bool) (time : Nat) (s : State), (s.trig n).mode = 0 → s.dev.st ≠ .off →
    (if high then (s.trig n).edge % 2 = 1 else 2 ≤ (s.trig n).edge) →
    let s1 := s.advanceTo (time + (s.trig n).filter * uNs)
    Machine.exec (.trigInputEdge n high time) s = .next ((s1.onTrig n fun t =>
      if 16 ≤ t.stamps.length then { t with inOvf := true }
      else { t with stamps := t.stamps ++ [(time / uSample * uSample, !s1.clk.coherent)] }).fireObj (s.trig n).ev (trigId n))) ∧
  (∀ (p j : Fin 4) (s : State), ((s.port p).slot j).st = .armed →
    let x := (s.port p).slot j
    let due := (List.range (j.val + 1)).filter fun k => ((s.port p).slot k).st == .armed && ((s.port p).slot k).time == x.time
    Machine.exec (.slotLaunch p j) s = .next (due.foldl (fun (a : State) k => a.launch p k) (s.advanceTo x.time))) ∧
  (∀ (p j : Nat) (s : State), (s.timingLane p = none ∨ s.partner p = none) →
    s.launch p j = (s.onPort p fun y => { y with slotLost := inc32 y.slotLost }).onSlot p j fun y => { y with st := .lost }) ∧
  (∀ (p j n : Nat) (v : Ident) (s : State), s.timingLane p = some n → s.partner p = some v →
    let x := (s.port p).slot j
    let ct := s.charOf n
    let f := x.frame
    let b := withCrc (leBytes 1 (u f 0 1 % 16) ++ slice f 1 3 ++ leBytes 3 s.dev.addr ++ leBytes 1 0 ++ leBytes 4 (s.port p).pseqTx ++ f.drop 12)
    let cs := frameChars (u f 0 1 % 16) b
    let l := s.lane n
    let late := l.frames.filter fun y => decide (x.time < y.start + y.cs.length * ct) && y.kind != .set
    let l1 := { l with frames := l.frames.filter fun y => !late.contains y }
    let at' := l.charAt ct (max x.time (max (l1.txFree ct) ((l.pres.filter fun y => decide (y.start ≤ x.time)).foldl (fun (m : Nat) y => max m y.stop) 0)))
    let g := fun (l : LaneSt) => late.foldl (fun (l : LaneSt) y => l.frame ct y.kind (max y.start (l.txFree ct)) y.cs)
      (({ l with frames := l.frames.filter fun y => !late.contains y } : LaneSt).frame ct .frame at' cs)
    let s1 := (((s.onPort p fun y => { y with pseqTx := (y.pseqTx + 1) % 2 ^ 32 }).onTx n g).countPort p .framesTx).emitLine n
      (late.length + (l.pres.filter fun y => decide (at' ≤ y.start)).length) cs
    s.launch p j = (s1.onPort p fun y =>
      if 16 ≤ y.txts.length then { y with txtsOvf := true } else { y with txts := y.txts ++ [{ msgid := 0x8000 + 256 * j + x.tag, time := at' }] }).onSlot p j
        fun y => { y with st := .sent })

/-- O39. Reference inputs, holdover, switches, the forced release, slips and operating points have their effect: a count of the meter replies (R410); a window
qualifies its input or not (R384); a missing edge disqualifies it, and is a loss where it was selected, or leads REC to REC-HOLD (R383, R385); holdover ends (R386);
a live switch completes (R388); a forced release resets what R391 names and selects the best source; slips are counted and judged as faults (R393, R528); the
crossing is pinned (R394), a transition done (R398), and INT's PLL locks (R403). The model's choices are in the log entries 157, 158 and 159.
[11_clocks_power_startup] -/
def Obligations.ClockRowsComplete : Prop :=
  (∀ (n : Nat) (s : State) (m : Meter), s.clk.meter = some m →
    Machine.exec (.freqMeasureDone (some n)) s = .next ((s.onClk fun c => { c with meter := none }).resolve (wait .freqMeter 0 0)
      (leBytes 8 n ++ leBytes 8 (2 ^ m.wlog2) ++ leBytes 8 (n * 2 ^ 32 / 2 ^ m.wlog2))) ∧
    Machine.exec (.freqMeasureDone none) s = .next ((s.onClk fun c => { c with meter := none }).failWait (wait .freqMeter 0 0)
      { status := Status.clockStopped, word := 0, more := [] })) ∧
  (∀ (locked : Bool) (nom : Fin 4) (ppb : Int) (s : State), s.dev.st ≠ .off →
    let pass := locked && decide (ppb.natAbs ≤ 200000)
    Machine.exec (.qualificationWindowEnd true locked nom ppb) s =
      .next (s.onClk fun c => { c with qualR := pass && s.recCandidate, recPpb := ppb, lostR := false }).refChanged ∧
    Machine.exec (.qualificationWindowEnd false locked nom ppb) s = .next (s.onClk fun c =>
      { c with qualE := pass && nom.val != 0 && c.cfg.erefEn, erefPpb := ppb, erefNom := if pass then nom.val else c.erefNom, lostE := false }).refChanged) ∧
  (∀ (o : Bool) (s : State), s.dev.st ≠ .off →
    ((s.clk.sel = srcEref ∨ s.clk.cfg.erefEn = true) → s.clk.lostE = false →
      Machine.exec (.missingEdge false o) s = .next ((s.onClk fun c => { c with qualE := false, erefNom := 0, lostE := true }).sourceLost (s.clk.sel == srcEref))) ∧
    (s.clk.sel ≠ srcEref → s.clk.cfg.erefEn = false → Machine.exec (.missingEdge false o) s = .next s) ∧
    (s.clk.lostE = true → Machine.exec (.missingEdge false o) s = .next s)) ∧
  (∀ s : State, s.dev.st ≠ .off →
    (s.clk.sel = srcRec → s.clk.lostSel = false → Machine.exec (.missingEdge true false) s = .next (((s.onClk fun c =>
      { c with sel := srcHold, holdAt := s.now, qualR := false, lastChange := s.now }).refEvent).refChanged)) ∧
    (s.clk.sel ≠ srcRec ∨ s.clk.lostSel = true →
      Machine.exec (.missingEdge true false) s = .next (s.onClk fun c => { c with qualR := false }).refChanged)) ∧
  (∀ s : State, s.dev.st ≠ .off →
    let sel := s.clk.sel == srcRec || s.clk.sel == srcHold
    ((sel || s.recCandidate) = true → s.clk.lostR = false →
      Machine.exec (.missingEdge true true) s = .next ((s.onClk fun c => { c with qualR := false, lostR := true }).sourceLost sel)) ∧
    ((sel || s.recCandidate) = false ∨ s.clk.lostR = true → Machine.exec (.missingEdge true true) s = .next s)) ∧
  (∀ (s : State) (sel : Bool),
    let first := sel && !s.clk.lostSel
    let s1 := s.onClk fun c => { c with loss := inc32 c.loss, lostSel := c.lostSel || sel, relFrom := if first then s.now else c.relFrom }
    s.sourceLost sel = ((s1.onClk fun c => { c with lostTo := if first then s1.bestSource else c.lostTo }).refEvent).refChanged) ∧
  (∀ s : State, s.clk.sel = srcHold → s.clk.lostSel = false → s.dev.st ≠ .off →
    Machine.exec .holdoverMaxExpiry s = .next (s.advanceTo (s.clk.holdAt + s.clk.cfg.holdMax * uS)).refChanged) ∧
  (∀ (s : State) (src : Nat), s.clk.switchTo = some src → s.clk.lostSel = false → s.dev.st ≠ .off →
    Machine.exec .liveSwitch s = .next ((s.onClk fun c => { c with liveSwitch := inc32 c.liveSwitch }).selectSource src).refChanged) ∧
  (∀ (gap : Nat) (s : State), s.clk.lostSel = true → s.dev.st ≠ .off →
    let src := s.releaseTarget
    let s1 := (List.range 16).foldl (fun (a : State) q => a.releaseQuire q) (s.setCauses allDacs mRelease true)
    let s2 := ((s1.capCut (List.range 16) 32).tinDiscard).onClk fun c => { c with pinned := [] }
    let s3 := (s2.moveTo (s2.now + max 64 gap * uTick)).capRestart (List.range 16) s2.now true
    let wait := src == srcInt && !s.clk.intLock
    let s4 := (s3.clearCauses allDacs mRelease).countDiscont.onClk fun c =>
      { c with forced := inc32 c.forced, relTo := s3.now, timeGap := true, rootReset := wait, waitCoh := c.waitCoh || wait }
    Machine.exec (.forcedRelease gap) s = .next (s4.lgaReset.selectSource src).refChanged) ∧
  (∀ (i : Fin 50) (s : State), s.dev.st ≠ .off →
    let s1 := (s.onClk fun c => { c with islands := tmod .reset c.islands i.val fun x => { x with slips := inc32 x.slips } }).refEvent
    let x : FUnit := { kind := 8, phys := if i.val < 16 then physOf 31 i 0 0 else if i.val < 33 then physOf (i - 16) 16 0 0 else physOf (i - 33) 17 0 0 }
    (s1.isRetired x = true → Machine.exec (.slip i) s = .next s1) ∧
    (s1.isRetired x = false → Machine.exec (.slip i) s = .next (s1.detect x (tget Island.reset s1.clk.islands i.val).slips 0 none))) ∧
  (∀ (q : Fin 16) (s : State), s.needsPin q = true → s.pq q ≠ 31 → (s.coreIsl (s.pq q)).use ≤ 1 → s.clk.pinned.contains q.val = false →
    s.clk.lostSel = false → s.clk.rootReset = false →
    Machine.exec (.pinEnter q) s =
      .next ((s.advanceTo (tickAfter (max s.now (s.coreIsl (s.pq q)).since))).onClk fun c => { c with pinned := q.val :: c.pinned })) ∧
  (∀ (p : Fin 17) (s : State) (pt t : Nat), (s.coreIsl p).trans = some (pt, t) →
    Machine.exec (.dvfsTransitionDone p) s = .next ((s.advanceTo t).onCoreIsl p fun c =>
      ({ c with trans := none, use := pt, since := if c.use = pt then c.since else t, count := inc32 c.count } : CoreIsl).begin t)) ∧
  (∀ s : State, s.dev.st ≠ .off →
    Machine.exec .intPllLock s =
      .next (s.onClk fun c => { c with intLock := true, rootReset := if c.sel = srcInt then false else c.rootReset }).refChanged)

/-- O40. Rails, resets, firmware, the boot self-test and the temperature limits have their effect: VAUX good leads to BOOT and its loss to OFF (R30, R401);
the other rails come and go, and a loss in RUN or REDUCED, in BOOT with every supply good, or in ENDPAPER is recorded by R538's entry (R400, R401); reset pins act
while low (R402); firmware is verified, then the self-test binds the Quires and ends in RUN or REDUCED (R30, R403); the limits of R589 stop the device. The
model's choices are in the log entries 37, 89, 91, 92, 94 and 160. [11_clocks_power_startup,
01_organization (R30)] -/
def Obligations.PowerRowsComplete : Prop :=
  (∀ s : State, s.dev.st = .off →
    let s1 : State := { s with now := 0, dev := { s.dev with st := .boot }, clk := { s.clk with good := setBit s.clk.good 0 true } }
    let s2 := s1.onClk fun c => { c with sAt := if c.good = 2047 then some 0 else none }
    Machine.exec .vauxGood s = .next ((if s2.rf.pin then s2.setCauses allDacs mPin s2.rf.latch else s2).toBoot.timeSelect)) ∧
  (∀ s : State, s.dev.st ≠ .off → Machine.exec .vauxGood s = .next s ∧ Machine.exec .vauxLoss s = .next s.unpowered) ∧
  (∀ s : State, s.dev.st = .off → Machine.exec .vauxLoss s = .next s) ∧
  (∀ (n : Fin 11) (s : State), n.val ≠ 0 →
    let g := setBit s.clk.good n true
    let s1 := s.onClk fun c => { c with good := g, vbias := c.vbias && !(bitOf g 9 && bitOf g 10) }
    (g = 2047 → s.clk.sAt = none →
      Machine.exec (.railGood (.rail n)) s = .next ((s1.onClk fun c => { c with sAt := some s.now }).raisePoints).enableLanes) ∧
    (g ≠ 2047 ∨ s.clk.sAt ≠ none → Machine.exec (.railGood (.rail n)) s = .next s1)) ∧
  (∀ (n : Fin 11) (us : Nat) (s : State), n.val ≠ 0 → s.clk.filterAt (s.now - us * uUs) ≤ us →
    let s1 := s.onClk fun c => { c with good := setBit c.good n false, lost := setBit c.lost n true, sAt := none }
    let s2 := if 9 ≤ n.val then (s1.onClk fun c => { c with vbias := true }).biasOff else s1
    let stops := s.runs = true ∨ (s.dev.st = .boot ∧ s.clk.sAt ≠ none) ∨ s.dev.st = .endpaper
    let hif := (n.val = 1 ∨ n.val = 8) ∧ s.dev.st ≠ .off
    (stops → ¬ hif → Machine.exec (.railLoss ⟨.rail n, us⟩) s = .next (s2.toEndpaper 1 n 0)) ∧
    (stops → hif → Machine.exec (.railLoss ⟨.rail n, us⟩) s = .next (s2.toEndpaper 1 n 0).hifReset) ∧
    (¬ stops → ¬ hif → Machine.exec (.railLoss ⟨.rail n, us⟩) s = .next s2) ∧
    (¬ stops → hif → Machine.exec (.railLoss ⟨.rail n, us⟩) s = .next s2.hifReset)) ∧
  (∀ (r : Rail) (us : Nat) (s : State), us < s.clk.filterAt (s.now - us * uUs) → Machine.exec (.railLoss ⟨r, us⟩) s = .next s) ∧
  (∀ (i : Fin 50) (us : Nat) (s : State), regulated i = true → s.clk.filterAt (s.now - us * uUs) ≤ us →
    let s1 := s.onClk fun c => { c with regsBad := i.val :: c.regsBad.filter fun k => k != i.val }
    Machine.exec (.railGood (.regulator i)) s = .next (s.onClk fun c => { c with regsBad := c.regsBad.filter fun k => k != i.val }) ∧
    (i.val = 0 → s.dev.st ≠ .off → Machine.exec (.railLoss ⟨.regulator i, us⟩) s = .next s1.hifReset) ∧
    (i.val ≠ 0 ∨ s.dev.st = .off → Machine.exec (.railLoss ⟨.regulator i, us⟩) s = .next s1)) ∧
  (∀ s : State, s.dev.st = .boot → s.clk.sAt = none →
    let limit := match s.lastImage with | some x => (Config.bootTimeout x.read).getD 10 | none => 10
    Machine.exec .bootSupplyTimeout s =
      .next ((s.advanceTo (s.dev.bootAt + limit * uS)).toEndpaper 6 (((List.range 11).find? fun n => !bitOf s.clk.good n).getD 0) 0)) ∧
  (∀ s : State, s.dev.st ≠ .off →
    (∀ ns, 1000 ≤ ns → s.dev.rst = false → Machine.exec (.sysRstN ⟨true, ns⟩) s = .next (s.onDev fun d => { d with rst := true }).sysReset) ∧
    (∀ ns, 1000 ≤ ns → s.dev.rst = true → Machine.exec (.sysRstN ⟨false, ns⟩) s = .next (s.onDev fun d => { d with rst := false })) ∧
    Machine.exec (.perstN true) s = .next (s.onDev fun d => { d with perst := true }).hifReset ∧
    Machine.exec (.perstN false) s = .next (s.onDev fun d => { d with perst := false })) ∧
  (∀ (low : Bool) (ns : Nat) (s : State), (ns < 1000 ∨ low = s.dev.rst) → Machine.exec (.sysRstN ⟨low, ns⟩) s = .next s) ∧
  (∀ (low : Bool) (s : State), s.dev.st = .off →
    (∀ ns, 1000 ≤ ns → low ≠ s.dev.rst → Machine.exec (.sysRstN ⟨low, ns⟩) s = .next (s.onDev fun d => { d with rst := low })) ∧
    Machine.exec (.perstN low) s = .next (s.onDev fun d => { d with perst := low })) ∧
  (∀ s : State, s.dev.st = .boot → s.dev.fwUp = false → s.dev.rst = false →
    let addr := match s.lastImage with | some x => (Config.smbusAddr x.read).map fun (a : BitVec 7) => a.toNat | none => none
    let up := fun (slot : Nat) => (s.noting fun s => s.onDev fun d =>
      { d with fwUp := true, fwRunning := slot, smbus := { d.smbus with addr := addr.getD d.smbus.addr } }).calBoot.reloadSafety.resume
    (s.newest s.dev.fwActive = none → s.newest (1 - s.dev.fwActive) = none → Machine.exec .firmwareVerified s = .next (s.toEndpaper 7 0 0)) ∧
    (s.newest s.dev.fwActive = none → s.newest (1 - s.dev.fwActive) ≠ none → Machine.exec .firmwareVerified s = .next (up (1 - s.dev.fwActive))) ∧
    (s.newest s.dev.fwActive ≠ none → Machine.exec .firmwareVerified s = .next (up s.dev.fwActive))) ∧
  (∀ s : State, s.dev.st = .boot → s.dev.fwUp = true → s.dev.rst = false → s.clk.sAt ≠ none → s.clk.lostSel = false → s.clk.rootReset = false →
    s.clk.regsBad = [] →
    let s1 := ((List.range 17).foldl (fun (a : State) p => a.onPhys p fun x => { x with mcode := s.microcode }) s).bindAll
    (s1.fullCapacity = true → Machine.exec (.bootSelftestComplete []) s = .next (((s1.bootLines.setDevSt .run).noncoh).refStop).raisePoints) ∧
    (s1.fullCapacity = false → Machine.exec (.bootSelftestComplete []) s = .next (((s1.bootLines.setDevSt .reduced).noncoh).refStop).raisePoints)) ∧
  (∀ (failed : List (Nat × Nat)) (s : State), s.dev.st = .boot → s.dev.fwUp = true → s.dev.rst = false → s.clk.sAt ≠ none →
    s.clk.lostSel = false → s.clk.rootReset = false → s.clk.regsBad = [] →
    let us := (failed.map fun e => ({ kind := e.1, phys := e.2 } : FUnit)).filter FUnit.ok
    let gone := us.filter FUnit.sinks
    let s1 := (gone.foldl (fun (a : State) x => a.retireQuire x.pq)
      ((List.range 17).foldl (fun (a : State) p => a.onPhys p fun x => { x with mcode := s.microcode }) s)).bindAll
    let s2 := gone.foldl (fun (a : State) x =>
      a.logFault (quireUnit x.pq) (if a.pq x.pq = 31 then 3 else 2) 0 (if x.pq < 16 then quireId x.pq else noObject) 0) s1
    let s3 := (us.filter fun x => !x.sinks).foldl (fun (a : State) x => a.bootFail x) s2
    Machine.exec (.bootSelftestComplete failed) s =
      .next (((s3.bootLines.setDevSt (if s3.fullCapacity then .run else .reduced)).noncoh).refStop).raisePoints) ∧
  (∀ (m : List Int) (i : Nat) (s : State), s.dev.st ≠ .off →
    let s1 := (s.onClk fun c => { c with temps := (List.range 26).map fun i => lget 0 m i }).onCap fun c => { c with temp := lget 0 m 17 }
    (hotSensor m 115000 (fun _ => true) = some i → (s.runs = true ∨ s.dev.st = .endpaper) →
      Machine.exec (.temperatureShutdown m) s = .next (s1.toEndpaper 2 (sensorDetail i) 0)) ∧
    (hotSensor m 115000 (fun _ => true) = some i → ¬ (s.runs = true ∨ s.dev.st = .endpaper) → Machine.exec (.temperatureShutdown m) s = .next s1) ∧
    (hotSensor m 115000 (fun _ => true) = none → Machine.exec (.temperatureShutdown m) s = .next s1) ∧
    (hotSensor m 125000 (fun i => i != 22) = some i → Machine.exec (.hardwareThermalTrip m) s = .next (s1.toEndpaper 3 (sensorDetail i) 0)) ∧
    (hotSensor m 125000 (fun i => i != 22) = none → Machine.exec (.hardwareThermalTrip m) s = .next s1)) ∧
  (∀ (k : Fin 2) (above : Bool) (s : State),
    Machine.exec (.dramRefreshDouble k above) s = .next (s.onClk fun c =>
      { c with dramHot := (c.dramHot.filter fun n => n != k.val) ++ if above then [k.val] else [] })) ∧
  (∀ s : State, s.dev.st ≠ .off →
    (s.runs = true → Machine.exec (.biasChipletFault true) s = .next ((s.onClk fun c => { c with bscFault := true }).toEndpaper 4 0 0)) ∧
    (s.runs = false → Machine.exec (.biasChipletFault true) s = .next (s.onClk fun c => { c with bscFault := true })) ∧
    Machine.exec (.biasChipletFault false) s = .next (s.onClk fun c => { c with bscFault := false }))

/-- O41. Capture samples and hold-off, and TIN edges, calibrations and timeouts have their effect: a unit takes the source samples that its row brings, one by one,
while its state is that of the row (R418 to R426); a hold-off of results ends at its time; an edge of a TIN input or of TRIG is timed and used, unless it is too
short, too fast or its line is being calibrated (R438 to R444); a calibration is accepted, refused or suspended (R447, R477); a measurement without its stop is
given up (R442). The model's choices are in the log entries 161, 163, 43 and 35. [12_capture_interval] -/
def Obligations.CaptureAndIntervalRowsComplete : Prop :=
  (∀ (n : Fin 16) (x : List AdcIn) (s : State) (c : CapCfg) (k : Nat), (s.capU n).cfg = some c → c.skind ≠ 2 →
    c.reach x (s.capU n).from' = k + 1 →
    let t := (s.capU n).from' * c.period
    let s1 := s.advanceTo t
    let s2 := (if c.skind = 1 then s1.countOver x c.line (s.capU n).from' 1 else s1).capSample n false (s1.capForm c x (s.capU n).from' t)
    ((s.capU n).st = .armed → Machine.exec (.captureTrigger n x) s = .next (State.capTake n .armed x k s2)) ∧
    ((s.capU n).st = .recording → Machine.exec (.segmentEnd n x) s = .next (State.capTake n .recording x k s2)) ∧
    ((s.capU n).st = .holdoff → (s.capU n).skind ≠ 2 → Machine.exec (.holdoffEnd n x) s = .next (State.capTake n .holdoff x k s2))) ∧
  (∀ (n : Fin 16) (x : List AdcIn) (s : State) (c : CapCfg), (s.capU n).cfg = some c → c.reach x (s.capU n).from' = 0 →
    Machine.exec (.captureTrigger n x) s = .next s ∧ Machine.exec (.segmentEnd n x) s = .next s) ∧
  (∀ (n : Fin 16) (x : List AdcIn) (s : State), (s.capU n).skind = 2 → (s.capU n).st = .holdoff →
    Machine.exec (.holdoffEnd n x) s = .next ((s.advanceTo (s.capU n).holdTo).capRearm n)) ∧
  (∀ (n : Nat) (s : State),
    (∀ t port, (s.capU n).trigPend = some (t, port) → s.capRearm n = (s.evFieldsApply port (captureId n) (capTrigEvents t.evch 0xFFFF)).onCapU n fun u =>
      { u with st := .armed, trig := some t, trigPend := none, up := false, down := false, evAt := none, hops := 0 }) ∧
    ((s.capU n).trigPend = none → s.capRearm n = s.onCapU n fun u => { u with st := .armed, hops := 0 })) ∧
  (∀ (n : Fin 8) (h1 h2 : List Nat) (m : Int) (s : State) (l lg : Nat), s.tinRun n = some (l, lg) →
    let s1 := (s.onTinIn l fun x => { x with calBy := none }).onCap fun c => { c with temp := m }
    (s.bsc.cal.suspended = true → Machine.exec (.tinCalDone n h1 h2 m) s =
      .next (s1.failWait (wait .tinCal n 0) { status := Status.calSuspended, word := 0, more := [] })) ∧
    (s.bsc.cal.suspended = false → tinAgree (2 ^ lg) h1 h2 = true → Machine.exec (.tinCalDone n h1 h2 m) s = .next (((s1.onTinIn l fun x =>
      { x with table := if s.tinBusy l || 16 ≤ l then x.table else some (tinWidths (2 ^ lg) h1 h2),
               tablePend := if s.tinBusy l || 16 ≤ l then some (tinWidths (2 ^ lg) h1 h2) else none, calTemp := m, calTime := s.now }).onCal fun c =>
        { c with accepted := inc32 c.accepted, lastAccept := s.now }).resolve (wait .tinCal n 0) [])) ∧
    (s.bsc.cal.suspended = false → tinAgree (2 ^ lg) h1 h2 = false → Machine.exec (.tinCalDone n h1 h2 m) s = .next (((s1.onTinIn l fun x =>
      { x with disagree := inc32 x.disagree }).calDisagrees).failWait (wait .tinCal n 0) { status := Status.tinCalDisagree, word := 0, more := [] }))) ∧
  (∀ (src : Fin 15) (rising : Bool) (tclk taps held : Nat) (m : Int) (s : State), s.runs = true → src.val < 8 →
    let s1 := (s.advanceTo (tclk * uTick)).onCap fun c => { c with temp := m }
    let e := (s1.tinTables src rising).edgeTime src tclk taps
    let taken := (s1.tinIn src).filter ≤ held ∧ (s1.tinIn src).calBy = none
    (¬ taken → Machine.exec (.tinEdge src rising tclk taps held m) s = .next s1) ∧
    (taken → (∀ l, (s1.tinIn src).lastEdge = some l → 2097152 ≤ 5 * (e.1 - (l : Int))) →
      let s4 := e.2.onTinIn src fun x => { x with lastEdge := some e.1.toNat, edges := (x.edges + 1) % 2 ^ 64 }
      Machine.exec (.tinEdge src rising tclk taps held m) s = .next ((s4.tinUsers src).foldl (fun a n => a.tinUse n src rising e.1
        (ofBool (!a.clk.coherent) + 2 * ofBool ((a.tinIn src).stale m))) s4)) ∧
    (taken → ∀ l, (s1.tinIn src).lastEdge = some l → 5 * (e.1 - (l : Int)) < 2097152 →
      Machine.exec (.tinEdge src rising tclk taps held m) s = .next (e.2.onTinEng src fun e => { e with tooFast := inc32 e.tooFast }))) ∧
  (∀ (src : Fin 15) (rising : Bool) (tclk taps held : Nat) (m : Int) (s : State), s.runs = true → 8 ≤ src.val →
    let s1 := (s.advanceTo (tclk * uTick)).onCap fun c => { c with temp := m }
    let k := tget 0 s1.cap.divs src + 1
    let s2 := (s1.onCap fun c => { c with divs := terase c.divs src }).tinTables src true
    (rising = false → Machine.exec (.tinEdge src rising tclk taps held m) s = .next s1) ∧
    (rising = true → k < 64 → Machine.exec (.tinEdge src rising tclk taps held m) s = .next (s1.onCap fun c => { c with divs := tput 0 c.divs src k })) ∧
    (rising = true → 64 ≤ k → Machine.exec (.tinEdge src rising tclk taps held m) s = .next ((s2.tinUsers src).foldl (fun (a : State) n =>
      let e := a.edgeTime n tclk taps
      e.2.tinUse n src true e.1 (ofBool (!e.2.clk.coherent) + 2 * ofBool ((e.2.tinIn n).stale m))) s2))) ∧
  (∀ (n : Fin 8) (s : State) (since : Nat) (o : Int), (s.tinEng n).running = true → (s.tinEng n).cfg.mode = 2 →
    (s.tinEng n).open' = some (o, since) →
    Machine.exec (.noStop n) s = .next ((s.advanceTo (since + (s.tinEng n).cfg.timeout * uUs)).onTinEng n fun e =>
      { e with open' := none, noStop := inc32 e.noStop }))

/-- O42. Bias updates, ranges, ramps and overloads, and the monitor's slots and comparisons have their effect: all 64 channels move each microsecond (R455 to
R463); a range change is released (R459), BCLR_N clears and lets go (R465), an overload counts, a ramp begins when its rails are good (R462, R466); the monitor
converts in the system's and the host's slots (R472 to R475), and the controller compares the band-gaps and moves corrections (R477 to R480). The model's choices
are in the log entries 165, 168, 169, 170, 171 and 172. [13_bias_monitor_calibration] -/
def Obligations.BiasAndMonitorRowsComplete : Prop :=
  (∀ (n : Fin 64) (s : State) (k r : Nat) (v : Option Int), (s.bch n).sw = some { step := .held k, range := r, target := v } →
    Machine.exec (.rangeRelease n) s = .next (((s.advanceTo ((k + 20) * uUs)).onBch n fun c =>
      let code := codeOf r c.pos
      let pos := code * (biasLsb r : Int)
      { c with sw := c.sw.map fun w => { w with step := .rel k }, range := r, code := code, pos := pos, avg := [], avgLast := none,
               deglitch := if bits (ofSigned 20 code) 12 8 ≠ bits (ofSigned 20 c.code) 12 8 then inc32 c.deglitch else c.deglitch }).resolve
        (wait .biasRange (biasId n) 0) [])) ∧
  (∀ s : State, s.dev.st ≠ .off →
    let k := s.bsc.k + 1
    let s1 := s.advanceTo (k * uUs)
    Machine.exec .biasUpdate s = .next (s1.onBsc fun x => { x with k := k, chs := (List.range 64).foldl (fun t n =>
      tput .reset t n ((tget .reset t n).update s1.bsc n (!s1.clk.coherent && s1.dev.st != .endpaper) k)) x.chs })) ∧
  (∀ s : State, s.dev.st ≠ .off →
    Machine.exec (.bclrN true) s = .next (s.onBsc fun b => { b with bclr := true, chs := (List.range 64).foldl (fun t n => tmod .reset t n fun c =>
      { c with cleared := true, clrStep := c.live.clrNow, gen := none, pend := [], clrEp := false, avg := [], avgLast := none }) b.chs })) ∧
  (∀ s : State, s.dev.st ≠ .off → Machine.exec (.bclrN false) s = .next (s.onBsc fun b =>
    { b with bclr := false, chs := (List.range 64).foldl (fun t n => tmod .reset t n fun c =>
      if s.dev.st = .endpaper ∧ c.clrEp = true then { (c.enterEp { b with bclr := false } n) with cleared := false } else c) b.chs })) ∧
  (∀ (low : Bool) (s : State), s.dev.st = .off → Machine.exec (.bclrN low) s = .next (s.onBsc fun b => { b with bclr := low })) ∧
  (∀ (n : Fin 64) (on : Bool) (s : State),
    Machine.exec (.biasOverload n on) s = .next (s.onBch n fun c =>
      { c with overload := on, overloads := if on && !c.overload then inc32 c.overloads else c.overloads })) ∧
  (∀ (n : Fin 64) (s : State) (e : Safety), (s.bch n).st = .clamped → s.bsc.mayRamp = true → s.dev.st ≠ .off → s.dev.st ≠ .endpaper →
    s.safeEntry n = some e → bitOf s.clk.good 9 = true → bitOf s.clk.good 10 = true →
    Machine.exec (.powerUpRamp n) s = .next ((s.onBsc fun b => { b with bclrFilter := s.safeFilter }).onBch n fun c =>
      { c with st := .ramping, cleared := c.cleared || s.bsc.bclr, clrStep := e.clrNow, ep := none, hold := false, live := e, range := e.range, pos := 0, code := 0, target := e.safe, slew := e.slew, gen := none, pend := [],
               sw := none, rampAt := s.now + 50 * uUs })) ∧
  (∀ (n : Fin 64) (s : State), (s.bch n).st = .clamped → s.bsc.mayRamp = true → s.dev.st ≠ .off → s.dev.st ≠ .endpaper →
    s.safeEntry n = none → Machine.exec (.powerUpRamp n) s = .next (((s.onBch n fun c => { c with st := .nosafe }).logFault (unitC 12 n) 3 0 (biasId n) 0).toReduced)) ∧
  (∀ (x : BitVec 18) (s : State), s.dev.st ≠ .off →
    let base := max (s.bsc.sysSlot + 1) (ceilDiv s.now uUs)
    let slot := base + (3 - base % 4)
    let ch := roundCh s.bsc.round
    let s1 := (s.advanceTo ((slot + 1) * uUs)).onBsc fun b => { b with sysSlot := slot, round := (b.round + 1) % 114 }
    let y := s1.bsc.corrected ch 0 (rawOf x)
    (ch = 146 → Machine.exec (.systemSlot x) s = .next (s1.onCal fun c => { c with zeros := rawOf x :: c.zeros.take 1 })) ∧
    (ch = 32 → Machine.exec (.systemSlot x) s =
      .next ((s1.onCal fun c => { c with bgs := rawOf x :: c.bgs.take 1 }).monResult 32 y (slot * uUs) 0 true true)) ∧
    (ch = 74 → s1.svc.spq = none → Machine.exec (.systemSlot x) s = .next s1) ∧
    (ch ≠ 146 → ch ≠ 32 → (ch = 74 → s1.svc.spq ≠ none) → ch < 82 → Machine.exec (.systemSlot x) s = .next (s1.monResult ch y (slot * uUs) 0 true true)) ∧
    (82 ≤ ch → ch ≠ 146 → Machine.exec (.systemSlot x) s = .next ((s1.monResult ch y (slot * uUs) 0 true true).biasReadback (ch - 82) y))) ∧
  (∀ (x : BitVec 18) (s : State), s.dev.st ≠ .off →
    let base := max (s.bsc.hostSlot + 1) (ceilDiv s.now uUs)
    let slot := if base % 4 = 3 then base + 1 else base
    let s1 := (s.advanceTo (slot * uUs)).onBsc fun b =>
      { b with hostSlot := slot, seq := { b.seq with passFrom := if b.seq.run && b.seq.passFrom.isNone then some slot else b.seq.passFrom } }
    let s2 := s1.bsc.calRuns.foldl (fun (a : State) r => a.biasCalNext r) s1
    (s2.bsc.injs = [] → Machine.exec (.hostSlot x) s = .next ((s2.seqSlot slot (rawOf x)).advanceTo ((slot + 1) * uUs))) ∧
    (∀ i rest, s2.bsc.injs = i :: rest →
      let q := s2.bsc.seq
      ((i.begun = true ∨ q.run = false) → Machine.exec (.hostSlot x) s = .next ((s2.injSlot i rest slot (rawOf x)).advanceTo ((slot + 1) * uUs))) ∧
      (i.begun = false → q.run = true → 8 ≤ q.again →
        Machine.exec (.hostSlot x) s = .next (((if q.delayed then s2 else s2.onSeq fun q => { q with delayed := true, injDelayed := inc32 q.injDelayed }).seqSlot
          slot (rawOf x)).advanceTo ((slot + 1) * uUs))) ∧
      (i.begun = false → q.run = true → q.again < 8 →
        Machine.exec (.hostSlot x) s = .next (((if q.idle = 0 ∧ q.conv = 0 then s2 else s2.onSeq fun q =>
          { q with idle := 0, conv := 0, sum := 0, again := q.again + 1, restarts := inc32 q.restarts }).injSlot i rest slot (rawOf x)).advanceTo
            ((slot + 1) * uUs))))) ∧
  (∀ (a b : BitVec 18) (s : State), s.dev.st ≠ .off →
    let s1 := (s.advanceTo (s.bsc.bgAt + 10 * uS)).onBsc fun b => { b with bgAt := s.bsc.bgAt + 10 * uS }
    let va := s1.monUnit 32 0 (s1.bsc.corrected 32 0 (rawOf a))
    let vb := s1.monUnit 33 0 (s1.bsc.corrected 33 0 (rawOf b))
    let d := roundDiv ((va - vb) * 1000000) (max 1 va.natAbs)
    let agrees := decide ((va - vb).natAbs * 1000000 ≤ s1.bsc.cal.tolPpm * max 1 va.natAbs)
    let s2 := s1.onCal fun c => { c with bgA := va, bgB := vb, bgDiff := d, agree := if agrees then min 10 (c.agree + 1) else 0 }
    let s3 := s2.noting fun s =>
      if !agrees then s.onCal fun c => { c with suspended := true, suspends := if c.suspended then c.suspends else inc32 c.suspends }
      else if 10 ≤ s.bsc.cal.agree ∧ (s.newest 0x080).isSome then s.onCal fun c => { c with suspended := false } else s
    Machine.exec (.bandgapCompare a b) s = .next (if s3.bsc.cal.suspended then s3 else s3.internalCal)) ∧
  (∀ (k : Fin 4) (s : State), s.dev.st ≠ .off →
    let c := lget ⟨1, 10, 0⟩ s.bsc.cal.classes k
    let t := (max c.last s.now / (c.intervalMs * uMs) + 1) * (c.intervalMs * uMs)
    let s1 := (s.advanceTo t).onCal fun x => { x with classes := lput x.classes k { c with last := t } }
    (s1.bsc.cal.suspended = true → Machine.exec (.correctionInterval k) s = .next s1) ∧
    (s1.bsc.cal.suspended = false → k.val < 2 →
      Machine.exec (.correctionInterval k) s = .next (s1.onCal fun x => { x with corrs := moveCorrs x.corrs (k.val == 0) c.div })) ∧
    (s1.bsc.cal.suspended = false → k.val = 2 → Machine.exec (.correctionInterval k) s = .next (s1.onRf fun r =>
      { r with dacs := r.dacs.map fun (e : Nat × DacLine) => (e.1, { e.2 with cal := e.2.cal.move c.div }) })) ∧
    (s1.bsc.cal.suspended = false → k.val = 3 → Machine.exec (.correctionInterval k) s = .next (s1.onRf fun r =>
      { r with adcs := r.adcs.map fun (e : Nat × AdcLine) => (e.1, { e.2 with cal := e.2.cal.move c.div }) })))

/-- O43. Event activations, migrations, hand-overs, self-tests, moves, nonces, flash and regions have their effect: the host's fires and the flights of the fabric
activate their channels, those of one cycle as one (R502 to R504); a Quire is copied and switched (R541 to R543); firmware is staged, takes over or hands
back (R544 to R546); an error is logged and contained or tested (R527 to R530), a test decides for its unit, a unit moves to its spare or back (R533 to R535); a
nonce ends (R562), flash work ends or fails (R75, R76), a region is zeroed (R540), a stall counted (R33). The model's choices are in the log entries 121,
122, 179, 182, 176, 175, 78 and 181. [14_event_fabric, 16_faults_sparing_live_service,
17_identity_trust] -/
def Obligations.EventAndServiceRowsComplete : Prop :=
  (∀ (r : Fin 8) (v : BitVec 32) (s : State), s.dev.st ≠ .off → s.hifUp = true → Machine.exec (.evFireWrite r v) s = .next (s.fireWrite r v.toNat)) ∧
  (∀ (k n : Nat) (s : State) (y : Flight) (tl : List Flight), s.ev.flights.drop k = y :: tl →
    let x := s.oldest y
    let e := s.actEnd x
    let all := (s.advanceTo e).ev.flights.filter x.same
    let near := all.filter (x.meets e)
    let hit := near.take (n + 1)
    let s1 := (s.advanceTo e).onEv fun v =>
      { v with flights := v.flights.filter (fun f => !x.same f) ++ near.drop (n + 1) ++ all.filter fun f => !x.meets e f,
               acted := (x.ch, x.task, e) :: v.acted.filter fun a => decide (e ≤ a.2.2) }
    let s2 := if 2 ≤ hit.length then s1.coincide x.ch x.task (hit.map fun f => f.prod) (e - x.task.cycle) else s1
    Machine.exec (.eventActivation k n) s = .next (if hit = [] then s.advanceTo e else s2.activate x.ch x.task (hit.flatMap fun f => f.fields)
      (hit.foldl (fun (m : Nat) f => min m f.prod) x.prod) (hit.foldl (fun (m : Nat) f => max m f.ehops) 0)
      (hit.foldl (fun (m : Nat) f => min m f.time) x.time))) ∧
  (∀ (d : Nat) (s : State) (m : Migration), s.svc.migration = some m → m.copied = false →
    let s1 := s.advanceTo (m.since + copyTime (if m.first then copyBytes else m.dirty))
    Machine.exec (.precopyDone d) s = .next (s1.onSvc fun v =>
      { v with migration := some { m with since := s1.now, first := false, copied := decide (d ≤ 524288), dirty := d } })) ∧
  (∀ (s : State) (m : Migration), s.svc.migration = some m → s.maySwitch m = true →
    Machine.exec .migrationSwitch s = .next ((s.advanceTo (s.now + 6 * uUs + copyTime m.dirty)).switch m)) ∧
  (∀ (a b : Nat) (s : State), s.svc.handover = .staging a b →
    Machine.exec (.firmwareStaged true) s = .next (s.onSvc fun v => { v with handover := .waitPause a b }) ∧
    Machine.exec (.firmwareStaged false) s = .next ((s.onSvc fun v => { v with handover := .idle }).failWait (wait .fwActivate 0 0)
      { status := Status.fwStateIncompat, word := 0, more := [] })) ∧
  (∀ (a b : Nat) (s : State), s.svc.handover = .waitPause a b →
    Machine.exec .handoverPause s = .next (s.noting fun s => s.onSvc fun v => { v with handover := .pause a b s.now (b == 0) }).dropExchanges) ∧
  (∀ (host : List (List (Option (List Byte)))) (a b since : Nat) (back : Bool) (s : State), s.svc.handover = .pause a b since back →
    let s1 := (s.advanceTo (since + 150 * uUs)).noting fun s => s.onSvc fun v => { v with handover := .idle }
    Machine.exec (.handoverReadyTimeout host) s = .next ((if back then s1 else s1.timeoutWait (wait .fwActivate 0 0)).goOn host)) ∧
  (∀ (host : List (List (Option (List Byte)))) (a b since : Nat) (s : State), s.now ≤ since + 150 * uUs →
    (s.svc.handover = .pause a b since true → Machine.exec (.newFirmwareReady host) s = .next ((s.noting fun s =>
      (s.onSvc fun v => { v with handover := .idle, trial := none }).onDev fun d => { d with fwRunning := a }).goOn host)) ∧
    (s.svc.handover = .pause a b since false → Machine.exec (.newFirmwareReady host) s = .next (((s.noting fun t =>
      (t.onSvc fun v => { v with handover := .idle, trial := some (s.dev.fwRunning, s.now + b * uS) }).onDev fun d => { d with fwRunning := a }).resolve
        (wait .fwActivate 0 0) []).goOn host))) ∧
  (∀ (n t : Nat) (s : State), s.svc.trial = some (n, t) → Machine.exec .trialTimeout s = .next (s.advanceTo t).handBack) ∧
  (∀ s : State, Machine.exec .watchdogExpiry s = .next s.handBack ∧ Machine.exec .lockstepMismatch s = .next s.handBack) ∧
  (∀ (k : Fin 14) (ph d : BitVec 32) (l : Lost) (pg : Option (Nat × Nat)) (s : State), errorKind k.val = true → s.dev.st ≠ .off →
    let x : FUnit := { kind := k.val, phys := ph.toNat }
    x.ok = true → s.isRetired x = false →
    (l = .corrected → Machine.exec (.errorDetected k ph d l pg) s = .next (s.correctedError x d.toNat pg)) ∧
    (l ≠ .corrected → Machine.exec (.errorDetected k ph d l pg) s = .next ((s.consume x l).detect x d.toNat (if l = .no then 0 else 2) pg))) ∧
  (∀ (i : Nat) (t : RunTest) (tl : List RunTest) (s : State), s.svc.tests.drop i = t :: tl → t.why = .selftest →
    let s1 := (s.advanceTo t.till).onSvc fun v => { v with tests := v.tests.take i ++ v.tests.drop (i + 1) }
    let w := wait .selftest t.unit.kind t.unit.phys
    Machine.exec (.selftestDone i true) s = .next (s1.resolve w []).raisePoints ∧
    Machine.exec (.selftestDone i false) s = .next (s1.failWait w { status := 0x1101, word := 0, more := [] }).raisePoints) ∧
  (∀ (i : Nat) (t : RunTest) (tl : List RunTest) (s : State), s.svc.tests.drop i = t :: tl → t.why = .error →
    let s1 := (s.advanceTo t.till).onSvc fun v => { v with tests := v.tests.take i ++ v.tests.drop (i + 1) }
    Machine.exec (.selftestDone i true) s = .next ((s1.transientPass t.unit t.object t.detail).unitPass t).raisePoints ∧
    Machine.exec (.selftestDone i false) s = .next (s1.unitFail t.unit t.object t.detail none 0 t.remapped t.page).raisePoints) ∧
  (∀ (i : Nat) (t : RunTest) (tl : List RunTest) (s : State), s.svc.tests.drop i = t :: tl → t.why = .readmit →
    let s1 := (s.advanceTo t.till).onSvc fun v => { v with tests := v.tests.take i ++ v.tests.drop (i + 1) }
    let w := wait .readmit t.unit.kind t.unit.phys
    Machine.exec (.selftestDone i true) s =
      .next ((((s1.unitBack t.unit).logFault t.unit 4 0 (s1.objectOf t.unit) t.detail).backToRun).resolve w []).raisePoints ∧
    Machine.exec (.selftestDone i false) s = .next (s1.failWait w { status := 0x1101, word := 0, more := [] }).raisePoints) ∧
  (∀ (i q : Nat) (m : PendMove) (tl : List PendMove) (s : State), s.svc.moves.drop i = m :: tl → s.boundTo m.unit.pq = some q → s.moveReady q m.unit = true →
    let s0 := s.onSvc fun v => { v with moves := v.moves.take i ++ v.moves.drop (i + 1) }
    let s1 := s0.setHole q m.unit (if m.unit.kind = 6 then m.unit.a else m.unit.b)
    (m.back = true → Machine.exec (.spareMove i) s = .next (s0.setHole q m.unit 32)) ∧
    (m.back = false → m.verdict = none → Machine.exec (.spareMove i) s = .next (s1.startTest m.unit .error m.object m.detail false none)) ∧
    (∀ o, m.back = false → m.verdict = some o → Machine.exec (.spareMove i) s =
      .next ((s1.unitFail m.unit m.object m.detail o m.flags false none).resolve (wait .retire m.unit.kind m.unit.phys) []))) ∧
  (∀ (i : Nat) (m : PendMove) (tl : List PendMove) (s : State), s.svc.moves.drop i = m :: tl → s.boundTo m.unit.pq = none →
    let s0 := s.onSvc fun v => { v with moves := v.moves.take i ++ v.moves.drop (i + 1) }
    (m.back = true → Machine.exec (.spareMove i) s = .next s0) ∧
    (m.back = false → m.verdict = none → Machine.exec (.spareMove i) s = .next (s0.startTest m.unit .error noObject m.detail false none)) ∧
    (∀ o, m.back = false → m.verdict = some o → Machine.exec (.spareMove i) s =
      .next ((s0.unitFail m.unit noObject m.detail o m.flags false none).resolve (wait .retire m.unit.kind m.unit.phys) []))) ∧
  (∀ (src : Src) (b : List Byte) (t : Nat) (s : State), tget none s.trust.nonces src.key = some (b, t) →
    Machine.exec (.nonceExpiry src) s = .next ((s.advanceTo (t + 300 * uS)).onTrust fun x => { x with nonces := terase x.nonces src.key })) ∧
  (∀ (ok : Bool) (s : State), (s.heldOn (wait .ownerRelease 0 0)).isSome = true →
    Machine.exec (.flashOperationDone .release ok) s =
      .next (if ok then s.release.resolve (wait .ownerRelease 0 0) [] else s.failWait (wait .ownerRelease 0 0) { status := Status.imgFlash, word := 0, more := [] })) ∧
  (∀ (i : Fin 131) (s : State),
    let fails := fun (w : Wait) => (s.onImg i.val ImgSlot.failed).failWait w { status := Status.imgFlash, word := 0, more := [] }
    (s.heldOn (wait .imageBegin i 0) ≠ none →
      Machine.exec (.flashOperationDone (.slot i) true) s = .next ((s.onImg i.val fun x => { x with begun := true }).resolve (wait .imageBegin i 0) []) ∧
      Machine.exec (.flashOperationDone (.slot i) false) s = .next (fails (wait .imageBegin i 0))) ∧
    (s.heldOn (wait .imageBegin i 0) = none → s.heldOn (wait .imageCommit i 0) ≠ none →
      Machine.exec (.flashOperationDone (.slot i) true) s = .next (((s.onImg i.val fun x =>
        { x.onCopy (x.opened.getD 0) (fun y => { y with valid := true, age := s.dev.imgAge + 1 }) with opened := none, begun := false }).onDev fun d =>
          { d with imgAge := s.dev.imgAge + 1 }).resolve (wait .imageCommit i 0) []) ∧
      Machine.exec (.flashOperationDone (.slot i) false) s = .next (fails (wait .imageCommit i 0))) ∧
    (s.heldOn (wait .imageBegin i 0) = none → s.heldOn (wait .imageCommit i 0) = none → s.heldOn (wait .imageErase i 0) ≠ none →
      Machine.exec (.flashOperationDone (.slot i) true) s = .next (s.resolve (wait .imageErase i 0) []) ∧
      Machine.exec (.flashOperationDone (.slot i) false) s =
        .next (s.failWait (wait .imageErase i 0) { status := Status.imgFlash, word := 0, more := [] }))) ∧
  (∀ (h : Fin 2048) (r : Region) (s : State), tget none s.svc.regions h.val = some r → r.zeroed = false →
    Machine.exec (.regionZeroed h) s = .next ((s.onSvc fun v => { v with regions := tput none v.regions h.val (some { r with zeroed := true }) }).resolve
      (wait .memAlloc h 0) (leBytes 2 h.val ++ zeros 2))) ∧
  (∀ (p : Fin 26) (s : State), Machine.exec (.fabricStall p) s = .next (s.onDev fun d => { d with stalls := tmod 0 d.stalls p.val inc32 }))

/-- O44. A port below the opcode's lowest privilege gets E_PRIVILEGE. [02_command_ports (R40), 02_command_ports (R50)] -/
def Obligations.PrivilegeIsRequired : Prop :=
  ∀ (s : State) (p : Pkt) (sp : OpSpec) (o : Obj) (c : Cmd) (pl : Place), specOf p.code = some sp → pl.waited = false →
    p.flagsOk sp pl = true → (p.quiet = true → sp.bcast = true) →
    p.extra ≤ p.req.params.length → sp.fits (p.req.params.length - p.extra) = true →
    Obj.ofId p.req.object.toNat = some o → sp.takes o = true → o.wild = false → p.cmds s.live o = [c] → sp.objOk c.obj = true →
    (s.privOf c.port).code < (sp.priv c).code →
    s.check p pl = (s, .error { status := Status.ePrivilege, word := 0xFF, more := [] })

/-- O45. Outside RUN and REDUCED an opcode that is not marked EP gets E_STATE with the device state. [01_organization (R29), 02_command_ports (R40)] -/
def Obligations.StoppedDeviceTakesItsSubsetOnly : Prop :=
  ∀ (s t : State) (p : Pkt) (sp : OpSpec) (o : Obj) (c : Cmd) (pl : Place), specOf p.code = some sp → pl.waited = false →
    p.flagsOk sp pl = true → (p.quiet = true → sp.bcast = true) →
    p.extra ≤ p.req.params.length → sp.fits (p.req.params.length - p.extra) = true →
    Obj.ofId p.req.object.toNat = some o → sp.takes o = true → o.wild = false → p.cmds s.live o = [c] → sp.objOk c.obj = true →
    sp.portErr c s = none → sp.tokenErr c s = (t, none) →
    t.dev.st ≠ .run → t.dev.st ≠ .reduced → (sp.ep c = false ∨ (1 ≤ c.port ∧ c.port ≤ 4)) →
    s.check p pl = (t, .error { status := Status.eState, word := t.dev.st.code, more := [] })

/-- O46. A device time written in its 12 bytes reads back, and an NS field out of range gives none. [10_time_timed_outputs (R342)] -/
def Obligations.DeviceTimeFieldsRoundTrip : Prop :=
  (∀ t : Nat, t % 25 = 0 → t < 2 ^ 48 * uS → (dtBytes t).length = 12 ∧ dtOf (dtBytes t) = some t) ∧
  (∀ b : List Byte, b.length = 12 → (dtOf b = none ↔ 999999999 < leNat (slice b 2 4)))

/-- O47. An object's ID spells the object, and an ID is the ID of the object it spells. [01_organization (R3), 01_organization (R4)] -/
def Obligations.ObjectIdsRoundTrip : Prop :=
  (∀ o : Obj, o.quire < 64 → o.folio < 64 → o.ctx < 8 → o.index < 2048 → o.id < 2 ^ 32 ∧ Obj.ofId o.id = some o) ∧
  (∀ (n : Nat) (o : Obj), n < 2 ^ 32 → Obj.ofId n = some o → o.id = n) ∧
  (∀ n : Nat, Obj.ofId n = none ↔ Cls.ofCode (bits n 26 6) = none)

/-- O48. Decoding a step word's encoding gives it back, and each word of 128 bits has one reading. [03_pulse_synthesis (R90), 03_pulse_synthesis (R91),
03_pulse_synthesis (R93)] -/
def Obligations.StepWordsDecodeTheirEncoding : Prop :=
  (∀ w : StepWord, w.ok = true → w.enc < 2 ^ 128 ∧ decodeStep w.enc = some w) ∧
  (∀ (n : Nat) (w : StepWord), decodeStep n = some w ↔ w.ok = true ∧ w.enc = n)

/-- O49. Decoding a core instruction's encoding gives it back, and each word of 32 bits has one reading. [05_feedback_cores (R169), 05_feedback_cores
(R170), 05_feedback_cores (R189)] -/
def Obligations.CoreWordsDecodeTheirEncoding : Prop :=
  (∀ w : CoreWord, w.ok = true → w.enc < 2 ^ 32 ∧ decodeCore w.enc = some w) ∧
  (∀ (n : Nat) (w : CoreWord), decodeCore n = some w ↔ w.ok = true ∧ w.enc = n)

/-- O50. The check of R511 refuses exactly the channel tables whose graph has a cycle. [14_event_fabric (R511)] -/
def Obligations.LoopCheckFindsExactlyTheCycles : Prop :=
  (∀ t : List (Nat × EvChan), twf EvChan.reset t = true → (∀ e ∈ t, e.1 < 256) → (evLoop t = true ↔ EvCycle t)) ∧
  (∀ (s : State) (port : Nat) (t : List (Nat × EvChan)), twf EvChan.reset t = true → (∀ e ∈ t, e.1 < 256) →
    s.evCheck port t = none → evChanged s.ev.chans t = [] ∨ ¬ EvCycle t)

/-- O51. Every instruction row keeps its core well-formed: stacks no deeper than four, PC inside its program. [05_feedback_cores (R164), 05_feedback_cores
(R174), 05_feedback_cores (R176)] -/
def Obligations.CoreRowsKeepTheirCoreWellFormed : Prop :=
  ∀ (q : Fin 16) (k : Fin 4) (i : Instr) (w : CoreWord) (s t : State), i ∈ coreRows q k → Issues s q k w → CoreReady s q k →
    CoreReady (issueState s q k w.opc) q k → ((issueState s q k w.opc).core q k).st = .running →
    Machine.exec i s = .next t → CoreReady t q k

/-- O52. At reset every core is well-formed, and every table is in its canonical form. [05_feedback_cores (R166)] -/
def Obligations.CoresAreWellFormedAtReset : Prop :=
  (∀ (q : Fin 16) (k : Fin 4), CoreReady State.reset q k) ∧ Memory.wf State.reset.svc.dram = true ∧
    twf .reset State.reset.dev.streams = true ∧ State.reset.pending = []

/-- O53. An instruction that changes its core alone changes nothing else of the device. [05_feedback_cores (R162), 05_feedback_cores (R170)] -/
def Obligations.CoreStepsLeaveEverythingElse : Prop :=
  ∀ (s : State) (q k opc : Nat) (g : FbCore → FbCore), (g ((issueState s q k opc).core q k)).pc < 4096 →
    twf FbQuire.reset (issueState s q k opc).fb = true → twf FbCore.reset ((issueState s q k opc).fbq q).cores = true →
    let a := issueState s q k opc
    let t := coreStep s q k opc g
    t.core q k = g (a.core q k) ∧ (∀ j, j ≠ k → t.core q j = a.core q j) ∧ (∀ p, p ≠ q → t.fbq p = a.fbq p) ∧
      (t.fbq q).flags = (a.fbq q).flags ∧ (t.fbq q).owners = (a.fbq q).owners ∧ (t.fbq q).routes = (a.fbq q).routes ∧
      (t.fbq q).sendq = (a.fbq q).sendq ∧ (t.fbq q).inbound = (a.fbq q).inbound ∧
      t.now = a.now ∧ t.dev = a.dev ∧ t.svc = a.svc ∧ t.trust = a.trust ∧ t.ev = a.ev ∧ t.syn = a.syn ∧ t.ro = a.ro ∧ t.clk = a.clk ∧
      t.plans = a.plans ∧ t.link = a.link ∧ t.rf = a.rf ∧ t.cap = a.cap ∧ t.bsc = a.bsc ∧ t.delayed = a.delayed ∧ t.sent = a.sent ∧
      (∀ h off, t.memByte h off = a.memByte h off)

/-- O54. Accumulator arithmetic wraps at 40 bits and sets OV on a wrap; 256 full-scale products do not wrap. [stated: R167] -/
def Obligations.GuardBitsHold256Products : Prop :=
  (∀ (q : Fin 16) (k : Fin 4) (s : State) (a : Bool) (p r : Nat) (m : Moves), m.xen = false → m.yen = false →
    (Issues s q k (.mac 2 a p r m) → Machine.exec (.coreMpy q k) s = .next (coreStep s q k 2 fun c =>
      (c.setA a (BitVec.ofInt 40 ((c.dr p).toInt * (c.dr r).toInt))).after 1)) ∧
    (Issues s q k (.mac 3 a p r m) → Machine.exec (.coreMac q k) s = .next (coreStep s q k 3 fun c =>
      (c.accum a ((c.a a).toInt + (c.dr p).toInt * (c.dr r).toInt)).after 1)) ∧
    (Issues s q k (.mac 4 a p r m) → Machine.exec (.coreMsu q k) s = .next (coreStep s q k 4 fun c =>
      (c.accum a ((c.a a).toInt - (c.dr p).toInt * (c.dr r).toInt)).after 1))) ∧
  (∀ (c : FbCore) (a : Bool) (x y : BitVec 16), ((c.setA a (BitVec.ofInt 40 (x.toInt * y.toInt))).a a).toInt = x.toInt * y.toInt) ∧
  (∀ (c : FbCore) (a : Bool) (v : Int), (c.accum a v).a a = BitVec.ofInt 40 v ∧
    (c.accum a v).sr.ov = (c.sr.ov || decide ((BitVec.ofInt 40 v).toInt ≠ v))) ∧
  (∀ (c : FbCore) (a : Bool) (l : List (BitVec 16 × BitVec 16)), l.length ≤ 256 →
    let t := l.foldl (fun (x : FbCore) e => x.accum a ((x.a a).toInt + e.1.toInt * e.2.toInt)) (c.setA a 0)
    (t.a a).toInt = (l.map fun e => e.1.toInt * e.2.toInt).sum ∧ t.sr = c.sr)

/-- O55. A repeat level of the library runs its iterations from the word after its REPEAT_BEGIN, then closes. [03_pulse_synthesis (R103)] -/
def Obligations.RepeatLevelsRunCountPlusOneTimes : Prop :=
  (∀ (x : Folio) (n t : Nat), x.inRing = false → x.pc + 1 < x.ring.base → x.reps.length < 3 →
    (∀ j, j ≤ n → ∃ l, (Nat.rec (x.repBegin n false 0 t) (fun _ y => y.repEnd) j : Folio).reps = l :: x.reps ∧ l.index = j ∧ l.iters = n + 1 ∧
      l.body = x.pc + 1 ∧ (Nat.rec (x.repBegin n false 0 t) (fun _ y => y.repEnd) j : Folio).pc = x.pc + 1) ∧
    (Nat.rec (x.repBegin n false 0 t) (fun _ y => y.repEnd) (n + 1) : Folio).reps = x.reps) ∧
  (∀ (x : Folio) (n r t : Nat) (b : Bool), 3 ≤ x.reps.length → x.pendHalt = none → (x.repBegin n b r t).pendHalt = some 8) ∧
  (∀ x : Folio, x.reps = [] → x.pendHalt = none → x.repEnd.pendHalt = some 8)

/-- O56. CTX_PHASE_SHIFT takes a DELTA of 4 bytes, accepts TIMED, and adds it to PHASE modulo 2^32. [stated: R118] -/
def Obligations.PhaseShiftsAddModulo : Prop :=
  specOf 0x0204 = some opCtxPhaseShift ∧ opCtxPhaseShift.timed = true ∧ opCtxPhaseShift.len = some 4 ∧
  (∀ (c : Cmd) (s : State), c.range (opCtxPhaseShift.fields c s) = none ∧ opCtxPhaseShift.more c s = none) ∧
  (∀ (c : Cmd) (s : State),
    let e : Effect := .ctxShift c.q c.f c.obj.ctx (BitVec.ofNat 32 (c.u 0 4))
    (((s.folio c.q c.f).busy = false ∨ c.timed = true) → opCtxPhaseShift.run c s = (s.apply e, .ok [])) ∧
    ((s.folio c.q c.f).busy = true → c.timed = false → opCtxPhaseShift.run c s = (s.delay (tickAfter s.now) e, .ok []))) ∧
  (∀ (s : State) (q f n : Nat) (d : BitVec 32), s.apply (.ctxShift q f n d) = s.onFolio q f fun x => x.onCtx n fun y => { y with phase := y.phase + d })

/-- O57. What a BAR2 write stores through an enabled window a BAR2 read at the same place returns. [02_command_ports (R65)] -/
def Obligations.WindowWritesReadBack : Prop :=
  ∀ (off : Nat) (b : List Byte) (r : Region) (s : State), s.reaches .mailbox = true → s.dev.winEn = true → s.dev.st ≠ .endpaper →
    s.region s.dev.winRegion = some r → off + b.length ≤ 2 ^ 30 → s.dev.winBase + off + b.length ≤ r.size → r.size ≤ 2 ^ 40 →
    (∀ j, j < b.length → pageRetired r (s.dev.winBase + off + j) = false) → Memory.wf s.svc.dram = true →
    ∃ t : State, Machine.exec (.bar2Access off (.write b)) s = .next t ∧
      Machine.exec (.bar2Access off (.read b.length)) t = .next (t.emit (.bar2 b))

/-- O58. A BAR2 write and a DMA pass change no byte but those they store to, and no other part of the device. [02_command_ports (R65), 02_command_ports
(R64)] -/
def Obligations.WindowAndDmaWritesStoreWhereTheySay : Prop :=
  (∀ (off : Nat) (b : List Byte) (r : Region) (s : State), s.reaches .mailbox = true → s.dev.winEn = true → s.dev.st ≠ .endpaper →
    s.region s.dev.winRegion = some r → off + b.length ≤ 2 ^ 30 → s.dev.winBase + off + b.length ≤ r.size → r.size ≤ 2 ^ 40 →
    ∃ t : State, Machine.exec (.bar2Access off (.write b)) s = .next t ∧ (∃ m, t = s.onSvc fun v => { v with dram := m }) ∧
      ∀ h o, o < 2 ^ 40 → ¬(h = s.dev.winRegion ∧ s.dev.winBase + off ≤ o ∧ o < s.dev.winBase + off + b.length) → t.memByte h o = s.memByte h o) ∧
  (∀ (n : Fin 16) (data : List Byte) (s : State), (s.dmaCh n).busy = true → (s.dmaCh n).stream = none → (s.dmaCh n).dir = false →
    (s.dmaCh n).regOffset + (s.dmaCh n).length ≤ 2 ^ 40 →
    ∃ t : State, Machine.exec (.dmaPassComplete n data true) s = .next t ∧
      ∀ h o, o < 2 ^ 40 → ¬(h = (s.dmaCh n).region ∧ (s.dmaCh n).regOffset ≤ o ∧ o < (s.dmaCh n).regOffset + (s.dmaCh n).length) →
        t.memByte h o = s.memByte h o)

/-- O59. Window accesses, DMA rows and zeroing keep the regions' contents in canonical form. [02_command_ports (R64), 02_command_ports (R65),
16_faults_sparing_live_service] -/
def Obligations.HostAccessesKeepMemoryCanonical : Prop :=
  ∀ (i : Instr) (s t : State),
    ((∃ off a, i = .bar2Access off a) ∨ (∃ w, i = .winCtl w) ∨ (∃ n v, i = .dmaGo n v) ∨ (∃ n v d, i = .dmaStop n v d) ∨
      (∃ n d b, i = .dmaPassComplete n d b) ∨ (∃ h, i = .regionZeroed h) ∨ (∃ p, i = .fabricStall p)) →
    Memory.wf s.svc.dram = true → Machine.exec i s = .next t → Memory.wf t.svc.dram = true

/-- O60. Every command ends in a next state, but for those at addresses that BAR0 and BAR2 do not have. What that state is the statements O4 and O13 to O43 say.
[02_command_ports (R56), 02_command_ports (R64)] -/
def Obligations.EveryCommandCompletes : Prop :=
  ∀ (i : Instr) (s : State),
    (∀ off b, i = .regWrite off b → off + b.length ≤ 65536) → (∀ off n, i = .bar2Access off (.read n) → off + n ≤ 2 ^ 30) →
    (∀ off b, i = .bar2Access off (.write b) → off + b.length ≤ 2 ^ 30) → ∃ t : State, Machine.exec i s = .next t
end

