-- ==== Sys2Proof/Laws/State.lean ====
section
/-! SUPPORT. Reading a part of the state after another part has been changed: one lemma per part and update, so that no proof unfolds a
record update. -/
namespace Sys2Proof.Machine

variable (s : State)

/-! ### `onDev` -/
@[simp] theorem State.onDev_pending (f : Dev → Dev) : (s.onDev f).pending = s.pending := rfl
@[simp] theorem State.onDev_now (f : Dev → Dev) : (s.onDev f).now = s.now := rfl
@[simp] theorem State.onDev_free (f : Dev → Dev) : (s.onDev f).free = s.free := rfl
@[simp] theorem State.onDev_sent (f : Dev → Dev) : (s.onDev f).sent = s.sent := rfl
@[simp] theorem State.onDev_dev (f : Dev → Dev) : (s.onDev f).dev = f s.dev := rfl
@[simp] theorem State.onDev_svc (f : Dev → Dev) : (s.onDev f).svc = s.svc := rfl
@[simp] theorem State.onDev_trust (f : Dev → Dev) : (s.onDev f).trust = s.trust := rfl
@[simp] theorem State.onDev_ev (f : Dev → Dev) : (s.onDev f).ev = s.ev := rfl
@[simp] theorem State.onDev_syn (f : Dev → Dev) : (s.onDev f).syn = s.syn := rfl
@[simp] theorem State.onDev_ro (f : Dev → Dev) : (s.onDev f).ro = s.ro := rfl
@[simp] theorem State.onDev_fb (f : Dev → Dev) : (s.onDev f).fb = s.fb := rfl
@[simp] theorem State.onDev_clk (f : Dev → Dev) : (s.onDev f).clk = s.clk := rfl
@[simp] theorem State.onDev_plans (f : Dev → Dev) : (s.onDev f).plans = s.plans := rfl
@[simp] theorem State.onDev_link (f : Dev → Dev) : (s.onDev f).link = s.link := rfl
@[simp] theorem State.onDev_rf (f : Dev → Dev) : (s.onDev f).rf = s.rf := rfl
@[simp] theorem State.onDev_cap (f : Dev → Dev) : (s.onDev f).cap = s.cap := rfl
@[simp] theorem State.onDev_bsc (f : Dev → Dev) : (s.onDev f).bsc = s.bsc := rfl
@[simp] theorem State.onDev_delayed (f : Dev → Dev) : (s.onDev f).delayed = s.delayed := rfl

/-! ### `onSvc` -/
@[simp] theorem State.onSvc_pending (f : Svc → Svc) : (s.onSvc f).pending = s.pending := rfl
@[simp] theorem State.onSvc_now (f : Svc → Svc) : (s.onSvc f).now = s.now := rfl
@[simp] theorem State.onSvc_free (f : Svc → Svc) : (s.onSvc f).free = s.free := rfl
@[simp] theorem State.onSvc_sent (f : Svc → Svc) : (s.onSvc f).sent = s.sent := rfl
@[simp] theorem State.onSvc_dev (f : Svc → Svc) : (s.onSvc f).dev = s.dev := rfl
@[simp] theorem State.onSvc_svc (f : Svc → Svc) : (s.onSvc f).svc = f s.svc := rfl
@[simp] theorem State.onSvc_trust (f : Svc → Svc) : (s.onSvc f).trust = s.trust := rfl
@[simp] theorem State.onSvc_ev (f : Svc → Svc) : (s.onSvc f).ev = s.ev := rfl
@[simp] theorem State.onSvc_syn (f : Svc → Svc) : (s.onSvc f).syn = s.syn := rfl
@[simp] theorem State.onSvc_ro (f : Svc → Svc) : (s.onSvc f).ro = s.ro := rfl
@[simp] theorem State.onSvc_fb (f : Svc → Svc) : (s.onSvc f).fb = s.fb := rfl
@[simp] theorem State.onSvc_clk (f : Svc → Svc) : (s.onSvc f).clk = s.clk := rfl
@[simp] theorem State.onSvc_plans (f : Svc → Svc) : (s.onSvc f).plans = s.plans := rfl
@[simp] theorem State.onSvc_link (f : Svc → Svc) : (s.onSvc f).link = s.link := rfl
@[simp] theorem State.onSvc_rf (f : Svc → Svc) : (s.onSvc f).rf = s.rf := rfl
@[simp] theorem State.onSvc_cap (f : Svc → Svc) : (s.onSvc f).cap = s.cap := rfl
@[simp] theorem State.onSvc_bsc (f : Svc → Svc) : (s.onSvc f).bsc = s.bsc := rfl
@[simp] theorem State.onSvc_delayed (f : Svc → Svc) : (s.onSvc f).delayed = s.delayed := rfl

/-! ### `onTrust` -/
@[simp] theorem State.onTrust_pending (f : Trust → Trust) : (s.onTrust f).pending = s.pending := rfl
@[simp] theorem State.onTrust_now (f : Trust → Trust) : (s.onTrust f).now = s.now := rfl
@[simp] theorem State.onTrust_free (f : Trust → Trust) : (s.onTrust f).free = s.free := rfl
@[simp] theorem State.onTrust_sent (f : Trust → Trust) : (s.onTrust f).sent = s.sent := rfl
@[simp] theorem State.onTrust_dev (f : Trust → Trust) : (s.onTrust f).dev = s.dev := rfl
@[simp] theorem State.onTrust_svc (f : Trust → Trust) : (s.onTrust f).svc = s.svc := rfl
@[simp] theorem State.onTrust_trust (f : Trust → Trust) : (s.onTrust f).trust = f s.trust := rfl
@[simp] theorem State.onTrust_ev (f : Trust → Trust) : (s.onTrust f).ev = s.ev := rfl
@[simp] theorem State.onTrust_syn (f : Trust → Trust) : (s.onTrust f).syn = s.syn := rfl
@[simp] theorem State.onTrust_ro (f : Trust → Trust) : (s.onTrust f).ro = s.ro := rfl
@[simp] theorem State.onTrust_fb (f : Trust → Trust) : (s.onTrust f).fb = s.fb := rfl
@[simp] theorem State.onTrust_clk (f : Trust → Trust) : (s.onTrust f).clk = s.clk := rfl
@[simp] theorem State.onTrust_plans (f : Trust → Trust) : (s.onTrust f).plans = s.plans := rfl
@[simp] theorem State.onTrust_link (f : Trust → Trust) : (s.onTrust f).link = s.link := rfl
@[simp] theorem State.onTrust_rf (f : Trust → Trust) : (s.onTrust f).rf = s.rf := rfl
@[simp] theorem State.onTrust_cap (f : Trust → Trust) : (s.onTrust f).cap = s.cap := rfl
@[simp] theorem State.onTrust_bsc (f : Trust → Trust) : (s.onTrust f).bsc = s.bsc := rfl
@[simp] theorem State.onTrust_delayed (f : Trust → Trust) : (s.onTrust f).delayed = s.delayed := rfl

/-! ### `onEv` -/
@[simp] theorem State.onEv_pending (f : Ev → Ev) : (s.onEv f).pending = s.pending := rfl
@[simp] theorem State.onEv_now (f : Ev → Ev) : (s.onEv f).now = s.now := rfl
@[simp] theorem State.onEv_free (f : Ev → Ev) : (s.onEv f).free = s.free := rfl
@[simp] theorem State.onEv_sent (f : Ev → Ev) : (s.onEv f).sent = s.sent := rfl
@[simp] theorem State.onEv_dev (f : Ev → Ev) : (s.onEv f).dev = s.dev := rfl
@[simp] theorem State.onEv_svc (f : Ev → Ev) : (s.onEv f).svc = s.svc := rfl
@[simp] theorem State.onEv_trust (f : Ev → Ev) : (s.onEv f).trust = s.trust := rfl
@[simp] theorem State.onEv_ev (f : Ev → Ev) : (s.onEv f).ev = f s.ev := rfl
@[simp] theorem State.onEv_syn (f : Ev → Ev) : (s.onEv f).syn = s.syn := rfl
@[simp] theorem State.onEv_ro (f : Ev → Ev) : (s.onEv f).ro = s.ro := rfl
@[simp] theorem State.onEv_fb (f : Ev → Ev) : (s.onEv f).fb = s.fb := rfl
@[simp] theorem State.onEv_clk (f : Ev → Ev) : (s.onEv f).clk = s.clk := rfl
@[simp] theorem State.onEv_plans (f : Ev → Ev) : (s.onEv f).plans = s.plans := rfl
@[simp] theorem State.onEv_link (f : Ev → Ev) : (s.onEv f).link = s.link := rfl
@[simp] theorem State.onEv_rf (f : Ev → Ev) : (s.onEv f).rf = s.rf := rfl
@[simp] theorem State.onEv_cap (f : Ev → Ev) : (s.onEv f).cap = s.cap := rfl
@[simp] theorem State.onEv_bsc (f : Ev → Ev) : (s.onEv f).bsc = s.bsc := rfl
@[simp] theorem State.onEv_delayed (f : Ev → Ev) : (s.onEv f).delayed = s.delayed := rfl

/-! ### `onLink` -/
@[simp] theorem State.onLink_pending (f : Link → Link) : (s.onLink f).pending = s.pending := rfl
@[simp] theorem State.onLink_now (f : Link → Link) : (s.onLink f).now = s.now := rfl
@[simp] theorem State.onLink_free (f : Link → Link) : (s.onLink f).free = s.free := rfl
@[simp] theorem State.onLink_sent (f : Link → Link) : (s.onLink f).sent = s.sent := rfl
@[simp] theorem State.onLink_dev (f : Link → Link) : (s.onLink f).dev = s.dev := rfl
@[simp] theorem State.onLink_svc (f : Link → Link) : (s.onLink f).svc = s.svc := rfl
@[simp] theorem State.onLink_trust (f : Link → Link) : (s.onLink f).trust = s.trust := rfl
@[simp] theorem State.onLink_ev (f : Link → Link) : (s.onLink f).ev = s.ev := rfl
@[simp] theorem State.onLink_syn (f : Link → Link) : (s.onLink f).syn = s.syn := rfl
@[simp] theorem State.onLink_ro (f : Link → Link) : (s.onLink f).ro = s.ro := rfl
@[simp] theorem State.onLink_fb (f : Link → Link) : (s.onLink f).fb = s.fb := rfl
@[simp] theorem State.onLink_clk (f : Link → Link) : (s.onLink f).clk = s.clk := rfl
@[simp] theorem State.onLink_plans (f : Link → Link) : (s.onLink f).plans = s.plans := rfl
@[simp] theorem State.onLink_link (f : Link → Link) : (s.onLink f).link = f s.link := rfl
@[simp] theorem State.onLink_rf (f : Link → Link) : (s.onLink f).rf = s.rf := rfl
@[simp] theorem State.onLink_cap (f : Link → Link) : (s.onLink f).cap = s.cap := rfl
@[simp] theorem State.onLink_bsc (f : Link → Link) : (s.onLink f).bsc = s.bsc := rfl
@[simp] theorem State.onLink_delayed (f : Link → Link) : (s.onLink f).delayed = s.delayed := rfl

/-! ### `onClk` -/
@[simp] theorem State.onClk_pending (f : Clk → Clk) : (s.onClk f).pending = s.pending := rfl
@[simp] theorem State.onClk_now (f : Clk → Clk) : (s.onClk f).now = s.now := rfl
@[simp] theorem State.onClk_free (f : Clk → Clk) : (s.onClk f).free = s.free := rfl
@[simp] theorem State.onClk_sent (f : Clk → Clk) : (s.onClk f).sent = s.sent := rfl
@[simp] theorem State.onClk_dev (f : Clk → Clk) : (s.onClk f).dev = s.dev := rfl
@[simp] theorem State.onClk_svc (f : Clk → Clk) : (s.onClk f).svc = s.svc := rfl
@[simp] theorem State.onClk_trust (f : Clk → Clk) : (s.onClk f).trust = s.trust := rfl
@[simp] theorem State.onClk_ev (f : Clk → Clk) : (s.onClk f).ev = s.ev := rfl
@[simp] theorem State.onClk_syn (f : Clk → Clk) : (s.onClk f).syn = s.syn := rfl
@[simp] theorem State.onClk_ro (f : Clk → Clk) : (s.onClk f).ro = s.ro := rfl
@[simp] theorem State.onClk_fb (f : Clk → Clk) : (s.onClk f).fb = s.fb := rfl
@[simp] theorem State.onClk_clk (f : Clk → Clk) : (s.onClk f).clk = f s.clk := rfl
@[simp] theorem State.onClk_plans (f : Clk → Clk) : (s.onClk f).plans = s.plans := rfl
@[simp] theorem State.onClk_link (f : Clk → Clk) : (s.onClk f).link = s.link := rfl
@[simp] theorem State.onClk_rf (f : Clk → Clk) : (s.onClk f).rf = s.rf := rfl
@[simp] theorem State.onClk_cap (f : Clk → Clk) : (s.onClk f).cap = s.cap := rfl
@[simp] theorem State.onClk_bsc (f : Clk → Clk) : (s.onClk f).bsc = s.bsc := rfl
@[simp] theorem State.onClk_delayed (f : Clk → Clk) : (s.onClk f).delayed = s.delayed := rfl

/-! ### `onRf` -/
@[simp] theorem State.onRf_pending (f : Rf → Rf) : (s.onRf f).pending = s.pending := rfl
@[simp] theorem State.onRf_now (f : Rf → Rf) : (s.onRf f).now = s.now := rfl
@[simp] theorem State.onRf_free (f : Rf → Rf) : (s.onRf f).free = s.free := rfl
@[simp] theorem State.onRf_sent (f : Rf → Rf) : (s.onRf f).sent = s.sent := rfl
@[simp] theorem State.onRf_dev (f : Rf → Rf) : (s.onRf f).dev = s.dev := rfl
@[simp] theorem State.onRf_svc (f : Rf → Rf) : (s.onRf f).svc = s.svc := rfl
@[simp] theorem State.onRf_trust (f : Rf → Rf) : (s.onRf f).trust = s.trust := rfl
@[simp] theorem State.onRf_ev (f : Rf → Rf) : (s.onRf f).ev = s.ev := rfl
@[simp] theorem State.onRf_syn (f : Rf → Rf) : (s.onRf f).syn = s.syn := rfl
@[simp] theorem State.onRf_ro (f : Rf → Rf) : (s.onRf f).ro = s.ro := rfl
@[simp] theorem State.onRf_fb (f : Rf → Rf) : (s.onRf f).fb = s.fb := rfl
@[simp] theorem State.onRf_clk (f : Rf → Rf) : (s.onRf f).clk = s.clk := rfl
@[simp] theorem State.onRf_plans (f : Rf → Rf) : (s.onRf f).plans = s.plans := rfl
@[simp] theorem State.onRf_link (f : Rf → Rf) : (s.onRf f).link = s.link := rfl
@[simp] theorem State.onRf_rf (f : Rf → Rf) : (s.onRf f).rf = f s.rf := rfl
@[simp] theorem State.onRf_cap (f : Rf → Rf) : (s.onRf f).cap = s.cap := rfl
@[simp] theorem State.onRf_bsc (f : Rf → Rf) : (s.onRf f).bsc = s.bsc := rfl
@[simp] theorem State.onRf_delayed (f : Rf → Rf) : (s.onRf f).delayed = s.delayed := rfl

/-! ### `onCap` -/
@[simp] theorem State.onCap_pending (f : Caps → Caps) : (s.onCap f).pending = s.pending := rfl
@[simp] theorem State.onCap_now (f : Caps → Caps) : (s.onCap f).now = s.now := rfl
@[simp] theorem State.onCap_free (f : Caps → Caps) : (s.onCap f).free = s.free := rfl
@[simp] theorem State.onCap_sent (f : Caps → Caps) : (s.onCap f).sent = s.sent := rfl
@[simp] theorem State.onCap_dev (f : Caps → Caps) : (s.onCap f).dev = s.dev := rfl
@[simp] theorem State.onCap_svc (f : Caps → Caps) : (s.onCap f).svc = s.svc := rfl
@[simp] theorem State.onCap_trust (f : Caps → Caps) : (s.onCap f).trust = s.trust := rfl
@[simp] theorem State.onCap_ev (f : Caps → Caps) : (s.onCap f).ev = s.ev := rfl
@[simp] theorem State.onCap_syn (f : Caps → Caps) : (s.onCap f).syn = s.syn := rfl
@[simp] theorem State.onCap_ro (f : Caps → Caps) : (s.onCap f).ro = s.ro := rfl
@[simp] theorem State.onCap_fb (f : Caps → Caps) : (s.onCap f).fb = s.fb := rfl
@[simp] theorem State.onCap_clk (f : Caps → Caps) : (s.onCap f).clk = s.clk := rfl
@[simp] theorem State.onCap_plans (f : Caps → Caps) : (s.onCap f).plans = s.plans := rfl
@[simp] theorem State.onCap_link (f : Caps → Caps) : (s.onCap f).link = s.link := rfl
@[simp] theorem State.onCap_rf (f : Caps → Caps) : (s.onCap f).rf = s.rf := rfl
@[simp] theorem State.onCap_cap (f : Caps → Caps) : (s.onCap f).cap = f s.cap := rfl
@[simp] theorem State.onCap_bsc (f : Caps → Caps) : (s.onCap f).bsc = s.bsc := rfl
@[simp] theorem State.onCap_delayed (f : Caps → Caps) : (s.onCap f).delayed = s.delayed := rfl

/-! ### `onBsc` -/
@[simp] theorem State.onBsc_pending (f : Bsc → Bsc) : (s.onBsc f).pending = s.pending := rfl
@[simp] theorem State.onBsc_now (f : Bsc → Bsc) : (s.onBsc f).now = s.now := rfl
@[simp] theorem State.onBsc_free (f : Bsc → Bsc) : (s.onBsc f).free = s.free := rfl
@[simp] theorem State.onBsc_sent (f : Bsc → Bsc) : (s.onBsc f).sent = s.sent := rfl
@[simp] theorem State.onBsc_dev (f : Bsc → Bsc) : (s.onBsc f).dev = s.dev := rfl
@[simp] theorem State.onBsc_svc (f : Bsc → Bsc) : (s.onBsc f).svc = s.svc := rfl
@[simp] theorem State.onBsc_trust (f : Bsc → Bsc) : (s.onBsc f).trust = s.trust := rfl
@[simp] theorem State.onBsc_ev (f : Bsc → Bsc) : (s.onBsc f).ev = s.ev := rfl
@[simp] theorem State.onBsc_syn (f : Bsc → Bsc) : (s.onBsc f).syn = s.syn := rfl
@[simp] theorem State.onBsc_ro (f : Bsc → Bsc) : (s.onBsc f).ro = s.ro := rfl
@[simp] theorem State.onBsc_fb (f : Bsc → Bsc) : (s.onBsc f).fb = s.fb := rfl
@[simp] theorem State.onBsc_clk (f : Bsc → Bsc) : (s.onBsc f).clk = s.clk := rfl
@[simp] theorem State.onBsc_plans (f : Bsc → Bsc) : (s.onBsc f).plans = s.plans := rfl
@[simp] theorem State.onBsc_link (f : Bsc → Bsc) : (s.onBsc f).link = s.link := rfl
@[simp] theorem State.onBsc_rf (f : Bsc → Bsc) : (s.onBsc f).rf = s.rf := rfl
@[simp] theorem State.onBsc_cap (f : Bsc → Bsc) : (s.onBsc f).cap = s.cap := rfl
@[simp] theorem State.onBsc_bsc (f : Bsc → Bsc) : (s.onBsc f).bsc = f s.bsc := rfl
@[simp] theorem State.onBsc_delayed (f : Bsc → Bsc) : (s.onBsc f).delayed = s.delayed := rfl

/-! ### `onPlans` -/
@[simp] theorem State.onPlans_pending (f : Plans → Plans) : (s.onPlans f).pending = s.pending := rfl
@[simp] theorem State.onPlans_now (f : Plans → Plans) : (s.onPlans f).now = s.now := rfl
@[simp] theorem State.onPlans_free (f : Plans → Plans) : (s.onPlans f).free = s.free := rfl
@[simp] theorem State.onPlans_sent (f : Plans → Plans) : (s.onPlans f).sent = s.sent := rfl
@[simp] theorem State.onPlans_dev (f : Plans → Plans) : (s.onPlans f).dev = s.dev := rfl
@[simp] theorem State.onPlans_svc (f : Plans → Plans) : (s.onPlans f).svc = s.svc := rfl
@[simp] theorem State.onPlans_trust (f : Plans → Plans) : (s.onPlans f).trust = s.trust := rfl
@[simp] theorem State.onPlans_ev (f : Plans → Plans) : (s.onPlans f).ev = s.ev := rfl
@[simp] theorem State.onPlans_syn (f : Plans → Plans) : (s.onPlans f).syn = s.syn := rfl
@[simp] theorem State.onPlans_ro (f : Plans → Plans) : (s.onPlans f).ro = s.ro := rfl
@[simp] theorem State.onPlans_fb (f : Plans → Plans) : (s.onPlans f).fb = s.fb := rfl
@[simp] theorem State.onPlans_clk (f : Plans → Plans) : (s.onPlans f).clk = s.clk := rfl
@[simp] theorem State.onPlans_plans (f : Plans → Plans) : (s.onPlans f).plans = f s.plans := rfl
@[simp] theorem State.onPlans_link (f : Plans → Plans) : (s.onPlans f).link = s.link := rfl
@[simp] theorem State.onPlans_rf (f : Plans → Plans) : (s.onPlans f).rf = s.rf := rfl
@[simp] theorem State.onPlans_cap (f : Plans → Plans) : (s.onPlans f).cap = s.cap := rfl
@[simp] theorem State.onPlans_bsc (f : Plans → Plans) : (s.onPlans f).bsc = s.bsc := rfl
@[simp] theorem State.onPlans_delayed (f : Plans → Plans) : (s.onPlans f).delayed = s.delayed := rfl

/-! ### `onSynq` -/
@[simp] theorem State.onSynq_pending (q : Nat) (f : SynQuire → SynQuire) : (s.onSynq q f).pending = s.pending := rfl
@[simp] theorem State.onSynq_now (q : Nat) (f : SynQuire → SynQuire) : (s.onSynq q f).now = s.now := rfl
@[simp] theorem State.onSynq_free (q : Nat) (f : SynQuire → SynQuire) : (s.onSynq q f).free = s.free := rfl
@[simp] theorem State.onSynq_sent (q : Nat) (f : SynQuire → SynQuire) : (s.onSynq q f).sent = s.sent := rfl
@[simp] theorem State.onSynq_dev (q : Nat) (f : SynQuire → SynQuire) : (s.onSynq q f).dev = s.dev := rfl
@[simp] theorem State.onSynq_svc (q : Nat) (f : SynQuire → SynQuire) : (s.onSynq q f).svc = s.svc := rfl
@[simp] theorem State.onSynq_trust (q : Nat) (f : SynQuire → SynQuire) : (s.onSynq q f).trust = s.trust := rfl
@[simp] theorem State.onSynq_ev (q : Nat) (f : SynQuire → SynQuire) : (s.onSynq q f).ev = s.ev := rfl
@[simp] theorem State.onSynq_ro (q : Nat) (f : SynQuire → SynQuire) : (s.onSynq q f).ro = s.ro := rfl
@[simp] theorem State.onSynq_fb (q : Nat) (f : SynQuire → SynQuire) : (s.onSynq q f).fb = s.fb := rfl
@[simp] theorem State.onSynq_clk (q : Nat) (f : SynQuire → SynQuire) : (s.onSynq q f).clk = s.clk := rfl
@[simp] theorem State.onSynq_plans (q : Nat) (f : SynQuire → SynQuire) : (s.onSynq q f).plans = s.plans := rfl
@[simp] theorem State.onSynq_link (q : Nat) (f : SynQuire → SynQuire) : (s.onSynq q f).link = s.link := rfl
@[simp] theorem State.onSynq_rf (q : Nat) (f : SynQuire → SynQuire) : (s.onSynq q f).rf = s.rf := rfl
@[simp] theorem State.onSynq_cap (q : Nat) (f : SynQuire → SynQuire) : (s.onSynq q f).cap = s.cap := rfl
@[simp] theorem State.onSynq_bsc (q : Nat) (f : SynQuire → SynQuire) : (s.onSynq q f).bsc = s.bsc := rfl
@[simp] theorem State.onSynq_delayed (q : Nat) (f : SynQuire → SynQuire) : (s.onSynq q f).delayed = s.delayed := rfl

/-! ### `onRo` -/
@[simp] theorem State.onRo_pending (q : Nat) (f : RoQuire → RoQuire) : (s.onRo q f).pending = s.pending := rfl
@[simp] theorem State.onRo_now (q : Nat) (f : RoQuire → RoQuire) : (s.onRo q f).now = s.now := rfl
@[simp] theorem State.onRo_free (q : Nat) (f : RoQuire → RoQuire) : (s.onRo q f).free = s.free := rfl
@[simp] theorem State.onRo_sent (q : Nat) (f : RoQuire → RoQuire) : (s.onRo q f).sent = s.sent := rfl
@[simp] theorem State.onRo_dev (q : Nat) (f : RoQuire → RoQuire) : (s.onRo q f).dev = s.dev := rfl
@[simp] theorem State.onRo_svc (q : Nat) (f : RoQuire → RoQuire) : (s.onRo q f).svc = s.svc := rfl
@[simp] theorem State.onRo_trust (q : Nat) (f : RoQuire → RoQuire) : (s.onRo q f).trust = s.trust := rfl
@[simp] theorem State.onRo_ev (q : Nat) (f : RoQuire → RoQuire) : (s.onRo q f).ev = s.ev := rfl
@[simp] theorem State.onRo_syn (q : Nat) (f : RoQuire → RoQuire) : (s.onRo q f).syn = s.syn := rfl
@[simp] theorem State.onRo_fb (q : Nat) (f : RoQuire → RoQuire) : (s.onRo q f).fb = s.fb := rfl
@[simp] theorem State.onRo_clk (q : Nat) (f : RoQuire → RoQuire) : (s.onRo q f).clk = s.clk := rfl
@[simp] theorem State.onRo_plans (q : Nat) (f : RoQuire → RoQuire) : (s.onRo q f).plans = s.plans := rfl
@[simp] theorem State.onRo_link (q : Nat) (f : RoQuire → RoQuire) : (s.onRo q f).link = s.link := rfl
@[simp] theorem State.onRo_rf (q : Nat) (f : RoQuire → RoQuire) : (s.onRo q f).rf = s.rf := rfl
@[simp] theorem State.onRo_cap (q : Nat) (f : RoQuire → RoQuire) : (s.onRo q f).cap = s.cap := rfl
@[simp] theorem State.onRo_bsc (q : Nat) (f : RoQuire → RoQuire) : (s.onRo q f).bsc = s.bsc := rfl
@[simp] theorem State.onRo_delayed (q : Nat) (f : RoQuire → RoQuire) : (s.onRo q f).delayed = s.delayed := rfl

/-! ### `onFb` -/
@[simp] theorem State.onFb_pending (q : Nat) (f : FbQuire → FbQuire) : (s.onFb q f).pending = s.pending := rfl
@[simp] theorem State.onFb_now (q : Nat) (f : FbQuire → FbQuire) : (s.onFb q f).now = s.now := rfl
@[simp] theorem State.onFb_free (q : Nat) (f : FbQuire → FbQuire) : (s.onFb q f).free = s.free := rfl
@[simp] theorem State.onFb_sent (q : Nat) (f : FbQuire → FbQuire) : (s.onFb q f).sent = s.sent := rfl
@[simp] theorem State.onFb_dev (q : Nat) (f : FbQuire → FbQuire) : (s.onFb q f).dev = s.dev := rfl
@[simp] theorem State.onFb_svc (q : Nat) (f : FbQuire → FbQuire) : (s.onFb q f).svc = s.svc := rfl
@[simp] theorem State.onFb_trust (q : Nat) (f : FbQuire → FbQuire) : (s.onFb q f).trust = s.trust := rfl
@[simp] theorem State.onFb_ev (q : Nat) (f : FbQuire → FbQuire) : (s.onFb q f).ev = s.ev := rfl
@[simp] theorem State.onFb_syn (q : Nat) (f : FbQuire → FbQuire) : (s.onFb q f).syn = s.syn := rfl
@[simp] theorem State.onFb_ro (q : Nat) (f : FbQuire → FbQuire) : (s.onFb q f).ro = s.ro := rfl
@[simp] theorem State.onFb_clk (q : Nat) (f : FbQuire → FbQuire) : (s.onFb q f).clk = s.clk := rfl
@[simp] theorem State.onFb_plans (q : Nat) (f : FbQuire → FbQuire) : (s.onFb q f).plans = s.plans := rfl
@[simp] theorem State.onFb_link (q : Nat) (f : FbQuire → FbQuire) : (s.onFb q f).link = s.link := rfl
@[simp] theorem State.onFb_rf (q : Nat) (f : FbQuire → FbQuire) : (s.onFb q f).rf = s.rf := rfl
@[simp] theorem State.onFb_cap (q : Nat) (f : FbQuire → FbQuire) : (s.onFb q f).cap = s.cap := rfl
@[simp] theorem State.onFb_bsc (q : Nat) (f : FbQuire → FbQuire) : (s.onFb q f).bsc = s.bsc := rfl
@[simp] theorem State.onFb_delayed (q : Nat) (f : FbQuire → FbQuire) : (s.onFb q f).delayed = s.delayed := rfl

/-! ### `emit` -/
@[simp] theorem State.emit_pending (o : Out) : (s.emit o).pending = s.pending := rfl
@[simp] theorem State.emit_now (o : Out) : (s.emit o).now = s.now := rfl
@[simp] theorem State.emit_free (o : Out) : (s.emit o).free = s.free := rfl
@[simp] theorem State.emit_sent (o : Out) : (s.emit o).sent = o :: s.sent := rfl
@[simp] theorem State.emit_dev (o : Out) : (s.emit o).dev = s.dev := rfl
@[simp] theorem State.emit_svc (o : Out) : (s.emit o).svc = s.svc := rfl
@[simp] theorem State.emit_trust (o : Out) : (s.emit o).trust = s.trust := rfl
@[simp] theorem State.emit_ev (o : Out) : (s.emit o).ev = s.ev := rfl
@[simp] theorem State.emit_syn (o : Out) : (s.emit o).syn = s.syn := rfl
@[simp] theorem State.emit_ro (o : Out) : (s.emit o).ro = s.ro := rfl
@[simp] theorem State.emit_fb (o : Out) : (s.emit o).fb = s.fb := rfl
@[simp] theorem State.emit_clk (o : Out) : (s.emit o).clk = s.clk := rfl
@[simp] theorem State.emit_plans (o : Out) : (s.emit o).plans = s.plans := rfl
@[simp] theorem State.emit_link (o : Out) : (s.emit o).link = s.link := rfl
@[simp] theorem State.emit_rf (o : Out) : (s.emit o).rf = s.rf := rfl
@[simp] theorem State.emit_cap (o : Out) : (s.emit o).cap = s.cap := rfl
@[simp] theorem State.emit_bsc (o : Out) : (s.emit o).bsc = s.bsc := rfl
@[simp] theorem State.emit_delayed (o : Out) : (s.emit o).delayed = s.delayed := rfl

/-! ### `onStream` -/
@[simp] theorem State.onStream_pending (src : Src) (f : Stream → Stream) : (s.onStream src f).pending = s.pending := rfl
@[simp] theorem State.onStream_now (src : Src) (f : Stream → Stream) : (s.onStream src f).now = s.now := rfl
@[simp] theorem State.onStream_free (src : Src) (f : Stream → Stream) : (s.onStream src f).free = s.free := rfl
@[simp] theorem State.onStream_sent (src : Src) (f : Stream → Stream) : (s.onStream src f).sent = s.sent := rfl
@[simp] theorem State.onStream_svc (src : Src) (f : Stream → Stream) : (s.onStream src f).svc = s.svc := rfl
@[simp] theorem State.onStream_trust (src : Src) (f : Stream → Stream) : (s.onStream src f).trust = s.trust := rfl
@[simp] theorem State.onStream_ev (src : Src) (f : Stream → Stream) : (s.onStream src f).ev = s.ev := rfl
@[simp] theorem State.onStream_syn (src : Src) (f : Stream → Stream) : (s.onStream src f).syn = s.syn := rfl
@[simp] theorem State.onStream_ro (src : Src) (f : Stream → Stream) : (s.onStream src f).ro = s.ro := rfl
@[simp] theorem State.onStream_fb (src : Src) (f : Stream → Stream) : (s.onStream src f).fb = s.fb := rfl
@[simp] theorem State.onStream_clk (src : Src) (f : Stream → Stream) : (s.onStream src f).clk = s.clk := rfl
@[simp] theorem State.onStream_plans (src : Src) (f : Stream → Stream) : (s.onStream src f).plans = s.plans := rfl
@[simp] theorem State.onStream_link (src : Src) (f : Stream → Stream) : (s.onStream src f).link = s.link := rfl
@[simp] theorem State.onStream_rf (src : Src) (f : Stream → Stream) : (s.onStream src f).rf = s.rf := rfl
@[simp] theorem State.onStream_cap (src : Src) (f : Stream → Stream) : (s.onStream src f).cap = s.cap := rfl
@[simp] theorem State.onStream_bsc (src : Src) (f : Stream → Stream) : (s.onStream src f).bsc = s.bsc := rfl
@[simp] theorem State.onStream_delayed (src : Src) (f : Stream → Stream) : (s.onStream src f).delayed = s.delayed := rfl

/-! ### `onQb` -/
@[simp] theorem State.onQb_pending (q : Nat) (f : QBind → QBind) : (s.onQb q f).pending = s.pending := rfl
@[simp] theorem State.onQb_now (q : Nat) (f : QBind → QBind) : (s.onQb q f).now = s.now := rfl
@[simp] theorem State.onQb_free (q : Nat) (f : QBind → QBind) : (s.onQb q f).free = s.free := rfl
@[simp] theorem State.onQb_sent (q : Nat) (f : QBind → QBind) : (s.onQb q f).sent = s.sent := rfl
@[simp] theorem State.onQb_svc (q : Nat) (f : QBind → QBind) : (s.onQb q f).svc = s.svc := rfl
@[simp] theorem State.onQb_trust (q : Nat) (f : QBind → QBind) : (s.onQb q f).trust = s.trust := rfl
@[simp] theorem State.onQb_ev (q : Nat) (f : QBind → QBind) : (s.onQb q f).ev = s.ev := rfl
@[simp] theorem State.onQb_syn (q : Nat) (f : QBind → QBind) : (s.onQb q f).syn = s.syn := rfl
@[simp] theorem State.onQb_ro (q : Nat) (f : QBind → QBind) : (s.onQb q f).ro = s.ro := rfl
@[simp] theorem State.onQb_fb (q : Nat) (f : QBind → QBind) : (s.onQb q f).fb = s.fb := rfl
@[simp] theorem State.onQb_clk (q : Nat) (f : QBind → QBind) : (s.onQb q f).clk = s.clk := rfl
@[simp] theorem State.onQb_plans (q : Nat) (f : QBind → QBind) : (s.onQb q f).plans = s.plans := rfl
@[simp] theorem State.onQb_link (q : Nat) (f : QBind → QBind) : (s.onQb q f).link = s.link := rfl
@[simp] theorem State.onQb_rf (q : Nat) (f : QBind → QBind) : (s.onQb q f).rf = s.rf := rfl
@[simp] theorem State.onQb_cap (q : Nat) (f : QBind → QBind) : (s.onQb q f).cap = s.cap := rfl
@[simp] theorem State.onQb_bsc (q : Nat) (f : QBind → QBind) : (s.onQb q f).bsc = s.bsc := rfl
@[simp] theorem State.onQb_delayed (q : Nat) (f : QBind → QBind) : (s.onQb q f).delayed = s.delayed := rfl

/-! ### `onRing` -/
@[simp] theorem State.onRing_pending (n : Nat) (f : Ring → Ring) : (s.onRing n f).pending = s.pending := rfl
@[simp] theorem State.onRing_now (n : Nat) (f : Ring → Ring) : (s.onRing n f).now = s.now := rfl
@[simp] theorem State.onRing_free (n : Nat) (f : Ring → Ring) : (s.onRing n f).free = s.free := rfl
@[simp] theorem State.onRing_sent (n : Nat) (f : Ring → Ring) : (s.onRing n f).sent = s.sent := rfl
@[simp] theorem State.onRing_svc (n : Nat) (f : Ring → Ring) : (s.onRing n f).svc = s.svc := rfl
@[simp] theorem State.onRing_trust (n : Nat) (f : Ring → Ring) : (s.onRing n f).trust = s.trust := rfl
@[simp] theorem State.onRing_ev (n : Nat) (f : Ring → Ring) : (s.onRing n f).ev = s.ev := rfl
@[simp] theorem State.onRing_syn (n : Nat) (f : Ring → Ring) : (s.onRing n f).syn = s.syn := rfl
@[simp] theorem State.onRing_ro (n : Nat) (f : Ring → Ring) : (s.onRing n f).ro = s.ro := rfl
@[simp] theorem State.onRing_fb (n : Nat) (f : Ring → Ring) : (s.onRing n f).fb = s.fb := rfl
@[simp] theorem State.onRing_clk (n : Nat) (f : Ring → Ring) : (s.onRing n f).clk = s.clk := rfl
@[simp] theorem State.onRing_plans (n : Nat) (f : Ring → Ring) : (s.onRing n f).plans = s.plans := rfl
@[simp] theorem State.onRing_link (n : Nat) (f : Ring → Ring) : (s.onRing n f).link = s.link := rfl
@[simp] theorem State.onRing_rf (n : Nat) (f : Ring → Ring) : (s.onRing n f).rf = s.rf := rfl
@[simp] theorem State.onRing_cap (n : Nat) (f : Ring → Ring) : (s.onRing n f).cap = s.cap := rfl
@[simp] theorem State.onRing_bsc (n : Nat) (f : Ring → Ring) : (s.onRing n f).bsc = s.bsc := rfl
@[simp] theorem State.onRing_delayed (n : Nat) (f : Ring → Ring) : (s.onRing n f).delayed = s.delayed := rfl

/-! ### `onDma` -/
@[simp] theorem State.onDma_pending (n : Nat) (f : Dma → Dma) : (s.onDma n f).pending = s.pending := rfl
@[simp] theorem State.onDma_now (n : Nat) (f : Dma → Dma) : (s.onDma n f).now = s.now := rfl
@[simp] theorem State.onDma_free (n : Nat) (f : Dma → Dma) : (s.onDma n f).free = s.free := rfl
@[simp] theorem State.onDma_sent (n : Nat) (f : Dma → Dma) : (s.onDma n f).sent = s.sent := rfl
@[simp] theorem State.onDma_svc (n : Nat) (f : Dma → Dma) : (s.onDma n f).svc = s.svc := rfl
@[simp] theorem State.onDma_trust (n : Nat) (f : Dma → Dma) : (s.onDma n f).trust = s.trust := rfl
@[simp] theorem State.onDma_ev (n : Nat) (f : Dma → Dma) : (s.onDma n f).ev = s.ev := rfl
@[simp] theorem State.onDma_syn (n : Nat) (f : Dma → Dma) : (s.onDma n f).syn = s.syn := rfl
@[simp] theorem State.onDma_ro (n : Nat) (f : Dma → Dma) : (s.onDma n f).ro = s.ro := rfl
@[simp] theorem State.onDma_fb (n : Nat) (f : Dma → Dma) : (s.onDma n f).fb = s.fb := rfl
@[simp] theorem State.onDma_clk (n : Nat) (f : Dma → Dma) : (s.onDma n f).clk = s.clk := rfl
@[simp] theorem State.onDma_plans (n : Nat) (f : Dma → Dma) : (s.onDma n f).plans = s.plans := rfl
@[simp] theorem State.onDma_link (n : Nat) (f : Dma → Dma) : (s.onDma n f).link = s.link := rfl
@[simp] theorem State.onDma_rf (n : Nat) (f : Dma → Dma) : (s.onDma n f).rf = s.rf := rfl
@[simp] theorem State.onDma_cap (n : Nat) (f : Dma → Dma) : (s.onDma n f).cap = s.cap := rfl
@[simp] theorem State.onDma_bsc (n : Nat) (f : Dma → Dma) : (s.onDma n f).bsc = s.bsc := rfl
@[simp] theorem State.onDma_delayed (n : Nat) (f : Dma → Dma) : (s.onDma n f).delayed = s.delayed := rfl

/-! ### `onImg` -/
@[simp] theorem State.onImg_pending (n : Nat) (f : ImgSlot → ImgSlot) : (s.onImg n f).pending = s.pending := rfl
@[simp] theorem State.onImg_now (n : Nat) (f : ImgSlot → ImgSlot) : (s.onImg n f).now = s.now := rfl
@[simp] theorem State.onImg_free (n : Nat) (f : ImgSlot → ImgSlot) : (s.onImg n f).free = s.free := rfl
@[simp] theorem State.onImg_sent (n : Nat) (f : ImgSlot → ImgSlot) : (s.onImg n f).sent = s.sent := rfl
@[simp] theorem State.onImg_svc (n : Nat) (f : ImgSlot → ImgSlot) : (s.onImg n f).svc = s.svc := rfl
@[simp] theorem State.onImg_trust (n : Nat) (f : ImgSlot → ImgSlot) : (s.onImg n f).trust = s.trust := rfl
@[simp] theorem State.onImg_ev (n : Nat) (f : ImgSlot → ImgSlot) : (s.onImg n f).ev = s.ev := rfl
@[simp] theorem State.onImg_syn (n : Nat) (f : ImgSlot → ImgSlot) : (s.onImg n f).syn = s.syn := rfl
@[simp] theorem State.onImg_ro (n : Nat) (f : ImgSlot → ImgSlot) : (s.onImg n f).ro = s.ro := rfl
@[simp] theorem State.onImg_fb (n : Nat) (f : ImgSlot → ImgSlot) : (s.onImg n f).fb = s.fb := rfl
@[simp] theorem State.onImg_clk (n : Nat) (f : ImgSlot → ImgSlot) : (s.onImg n f).clk = s.clk := rfl
@[simp] theorem State.onImg_plans (n : Nat) (f : ImgSlot → ImgSlot) : (s.onImg n f).plans = s.plans := rfl
@[simp] theorem State.onImg_link (n : Nat) (f : ImgSlot → ImgSlot) : (s.onImg n f).link = s.link := rfl
@[simp] theorem State.onImg_rf (n : Nat) (f : ImgSlot → ImgSlot) : (s.onImg n f).rf = s.rf := rfl
@[simp] theorem State.onImg_cap (n : Nat) (f : ImgSlot → ImgSlot) : (s.onImg n f).cap = s.cap := rfl
@[simp] theorem State.onImg_bsc (n : Nat) (f : ImgSlot → ImgSlot) : (s.onImg n f).bsc = s.bsc := rfl
@[simp] theorem State.onImg_delayed (n : Nat) (f : ImgSlot → ImgSlot) : (s.onImg n f).delayed = s.delayed := rfl

/-! ### `onLane` -/
@[simp] theorem State.onLane_pending (n : Nat) (f : LaneSt → LaneSt) : (s.onLane n f).pending = s.pending := rfl
@[simp] theorem State.onLane_now (n : Nat) (f : LaneSt → LaneSt) : (s.onLane n f).now = s.now := rfl
@[simp] theorem State.onLane_free (n : Nat) (f : LaneSt → LaneSt) : (s.onLane n f).free = s.free := rfl
@[simp] theorem State.onLane_sent (n : Nat) (f : LaneSt → LaneSt) : (s.onLane n f).sent = s.sent := rfl
@[simp] theorem State.onLane_dev (n : Nat) (f : LaneSt → LaneSt) : (s.onLane n f).dev = s.dev := rfl
@[simp] theorem State.onLane_svc (n : Nat) (f : LaneSt → LaneSt) : (s.onLane n f).svc = s.svc := rfl
@[simp] theorem State.onLane_trust (n : Nat) (f : LaneSt → LaneSt) : (s.onLane n f).trust = s.trust := rfl
@[simp] theorem State.onLane_ev (n : Nat) (f : LaneSt → LaneSt) : (s.onLane n f).ev = s.ev := rfl
@[simp] theorem State.onLane_syn (n : Nat) (f : LaneSt → LaneSt) : (s.onLane n f).syn = s.syn := rfl
@[simp] theorem State.onLane_ro (n : Nat) (f : LaneSt → LaneSt) : (s.onLane n f).ro = s.ro := rfl
@[simp] theorem State.onLane_fb (n : Nat) (f : LaneSt → LaneSt) : (s.onLane n f).fb = s.fb := rfl
@[simp] theorem State.onLane_clk (n : Nat) (f : LaneSt → LaneSt) : (s.onLane n f).clk = s.clk := rfl
@[simp] theorem State.onLane_plans (n : Nat) (f : LaneSt → LaneSt) : (s.onLane n f).plans = s.plans := rfl
@[simp] theorem State.onLane_rf (n : Nat) (f : LaneSt → LaneSt) : (s.onLane n f).rf = s.rf := rfl
@[simp] theorem State.onLane_cap (n : Nat) (f : LaneSt → LaneSt) : (s.onLane n f).cap = s.cap := rfl
@[simp] theorem State.onLane_bsc (n : Nat) (f : LaneSt → LaneSt) : (s.onLane n f).bsc = s.bsc := rfl
@[simp] theorem State.onLane_delayed (n : Nat) (f : LaneSt → LaneSt) : (s.onLane n f).delayed = s.delayed := rfl

/-! ### `onPort` -/
@[simp] theorem State.onPort_pending (n : Nat) (f : LinkPort → LinkPort) : (s.onPort n f).pending = s.pending := rfl
@[simp] theorem State.onPort_now (n : Nat) (f : LinkPort → LinkPort) : (s.onPort n f).now = s.now := rfl
@[simp] theorem State.onPort_free (n : Nat) (f : LinkPort → LinkPort) : (s.onPort n f).free = s.free := rfl
@[simp] theorem State.onPort_sent (n : Nat) (f : LinkPort → LinkPort) : (s.onPort n f).sent = s.sent := rfl
@[simp] theorem State.onPort_dev (n : Nat) (f : LinkPort → LinkPort) : (s.onPort n f).dev = s.dev := rfl
@[simp] theorem State.onPort_svc (n : Nat) (f : LinkPort → LinkPort) : (s.onPort n f).svc = s.svc := rfl
@[simp] theorem State.onPort_trust (n : Nat) (f : LinkPort → LinkPort) : (s.onPort n f).trust = s.trust := rfl
@[simp] theorem State.onPort_ev (n : Nat) (f : LinkPort → LinkPort) : (s.onPort n f).ev = s.ev := rfl
@[simp] theorem State.onPort_syn (n : Nat) (f : LinkPort → LinkPort) : (s.onPort n f).syn = s.syn := rfl
@[simp] theorem State.onPort_ro (n : Nat) (f : LinkPort → LinkPort) : (s.onPort n f).ro = s.ro := rfl
@[simp] theorem State.onPort_fb (n : Nat) (f : LinkPort → LinkPort) : (s.onPort n f).fb = s.fb := rfl
@[simp] theorem State.onPort_clk (n : Nat) (f : LinkPort → LinkPort) : (s.onPort n f).clk = s.clk := rfl
@[simp] theorem State.onPort_plans (n : Nat) (f : LinkPort → LinkPort) : (s.onPort n f).plans = s.plans := rfl
@[simp] theorem State.onPort_rf (n : Nat) (f : LinkPort → LinkPort) : (s.onPort n f).rf = s.rf := rfl
@[simp] theorem State.onPort_cap (n : Nat) (f : LinkPort → LinkPort) : (s.onPort n f).cap = s.cap := rfl
@[simp] theorem State.onPort_bsc (n : Nat) (f : LinkPort → LinkPort) : (s.onPort n f).bsc = s.bsc := rfl
@[simp] theorem State.onPort_delayed (n : Nat) (f : LinkPort → LinkPort) : (s.onPort n f).delayed = s.delayed := rfl

/-! ### `onTmu` -/
@[simp] theorem State.onTmu_pending (f : Tmu → Tmu) : (s.onTmu f).pending = s.pending := rfl
@[simp] theorem State.onTmu_now (f : Tmu → Tmu) : (s.onTmu f).now = s.now := rfl
@[simp] theorem State.onTmu_free (f : Tmu → Tmu) : (s.onTmu f).free = s.free := rfl
@[simp] theorem State.onTmu_sent (f : Tmu → Tmu) : (s.onTmu f).sent = s.sent := rfl
@[simp] theorem State.onTmu_dev (f : Tmu → Tmu) : (s.onTmu f).dev = s.dev := rfl
@[simp] theorem State.onTmu_svc (f : Tmu → Tmu) : (s.onTmu f).svc = s.svc := rfl
@[simp] theorem State.onTmu_trust (f : Tmu → Tmu) : (s.onTmu f).trust = s.trust := rfl
@[simp] theorem State.onTmu_ev (f : Tmu → Tmu) : (s.onTmu f).ev = s.ev := rfl
@[simp] theorem State.onTmu_syn (f : Tmu → Tmu) : (s.onTmu f).syn = s.syn := rfl
@[simp] theorem State.onTmu_ro (f : Tmu → Tmu) : (s.onTmu f).ro = s.ro := rfl
@[simp] theorem State.onTmu_fb (f : Tmu → Tmu) : (s.onTmu f).fb = s.fb := rfl
@[simp] theorem State.onTmu_clk (f : Tmu → Tmu) : (s.onTmu f).clk = s.clk := rfl
@[simp] theorem State.onTmu_plans (f : Tmu → Tmu) : (s.onTmu f).plans = s.plans := rfl
@[simp] theorem State.onTmu_rf (f : Tmu → Tmu) : (s.onTmu f).rf = s.rf := rfl
@[simp] theorem State.onTmu_cap (f : Tmu → Tmu) : (s.onTmu f).cap = s.cap := rfl
@[simp] theorem State.onTmu_bsc (f : Tmu → Tmu) : (s.onTmu f).bsc = s.bsc := rfl
@[simp] theorem State.onTmu_delayed (f : Tmu → Tmu) : (s.onTmu f).delayed = s.delayed := rfl

/-! ### `onTrig` -/
@[simp] theorem State.onTrig_pending (n : Nat) (f : Trig → Trig) : (s.onTrig n f).pending = s.pending := rfl
@[simp] theorem State.onTrig_now (n : Nat) (f : Trig → Trig) : (s.onTrig n f).now = s.now := rfl
@[simp] theorem State.onTrig_free (n : Nat) (f : Trig → Trig) : (s.onTrig n f).free = s.free := rfl
@[simp] theorem State.onTrig_sent (n : Nat) (f : Trig → Trig) : (s.onTrig n f).sent = s.sent := rfl
@[simp] theorem State.onTrig_dev (n : Nat) (f : Trig → Trig) : (s.onTrig n f).dev = s.dev := rfl
@[simp] theorem State.onTrig_svc (n : Nat) (f : Trig → Trig) : (s.onTrig n f).svc = s.svc := rfl
@[simp] theorem State.onTrig_trust (n : Nat) (f : Trig → Trig) : (s.onTrig n f).trust = s.trust := rfl
@[simp] theorem State.onTrig_ev (n : Nat) (f : Trig → Trig) : (s.onTrig n f).ev = s.ev := rfl
@[simp] theorem State.onTrig_syn (n : Nat) (f : Trig → Trig) : (s.onTrig n f).syn = s.syn := rfl
@[simp] theorem State.onTrig_ro (n : Nat) (f : Trig → Trig) : (s.onTrig n f).ro = s.ro := rfl
@[simp] theorem State.onTrig_fb (n : Nat) (f : Trig → Trig) : (s.onTrig n f).fb = s.fb := rfl
@[simp] theorem State.onTrig_clk (n : Nat) (f : Trig → Trig) : (s.onTrig n f).clk = s.clk := rfl
@[simp] theorem State.onTrig_plans (n : Nat) (f : Trig → Trig) : (s.onTrig n f).plans = s.plans := rfl
@[simp] theorem State.onTrig_rf (n : Nat) (f : Trig → Trig) : (s.onTrig n f).rf = s.rf := rfl
@[simp] theorem State.onTrig_cap (n : Nat) (f : Trig → Trig) : (s.onTrig n f).cap = s.cap := rfl
@[simp] theorem State.onTrig_bsc (n : Nat) (f : Trig → Trig) : (s.onTrig n f).bsc = s.bsc := rfl
@[simp] theorem State.onTrig_delayed (n : Nat) (f : Trig → Trig) : (s.onTrig n f).delayed = s.delayed := rfl

/-! ### `onFolio` -/
@[simp] theorem State.onFolio_pending (q k : Nat) (f : Folio → Folio) : (s.onFolio q k f).pending = s.pending := rfl
@[simp] theorem State.onFolio_now (q k : Nat) (f : Folio → Folio) : (s.onFolio q k f).now = s.now := rfl
@[simp] theorem State.onFolio_free (q k : Nat) (f : Folio → Folio) : (s.onFolio q k f).free = s.free := rfl
@[simp] theorem State.onFolio_sent (q k : Nat) (f : Folio → Folio) : (s.onFolio q k f).sent = s.sent := rfl
@[simp] theorem State.onFolio_dev (q k : Nat) (f : Folio → Folio) : (s.onFolio q k f).dev = s.dev := rfl
@[simp] theorem State.onFolio_svc (q k : Nat) (f : Folio → Folio) : (s.onFolio q k f).svc = s.svc := rfl
@[simp] theorem State.onFolio_trust (q k : Nat) (f : Folio → Folio) : (s.onFolio q k f).trust = s.trust := rfl
@[simp] theorem State.onFolio_ev (q k : Nat) (f : Folio → Folio) : (s.onFolio q k f).ev = s.ev := rfl
@[simp] theorem State.onFolio_ro (q k : Nat) (f : Folio → Folio) : (s.onFolio q k f).ro = s.ro := rfl
@[simp] theorem State.onFolio_fb (q k : Nat) (f : Folio → Folio) : (s.onFolio q k f).fb = s.fb := rfl
@[simp] theorem State.onFolio_clk (q k : Nat) (f : Folio → Folio) : (s.onFolio q k f).clk = s.clk := rfl
@[simp] theorem State.onFolio_plans (q k : Nat) (f : Folio → Folio) : (s.onFolio q k f).plans = s.plans := rfl
@[simp] theorem State.onFolio_link (q k : Nat) (f : Folio → Folio) : (s.onFolio q k f).link = s.link := rfl
@[simp] theorem State.onFolio_rf (q k : Nat) (f : Folio → Folio) : (s.onFolio q k f).rf = s.rf := rfl
@[simp] theorem State.onFolio_cap (q k : Nat) (f : Folio → Folio) : (s.onFolio q k f).cap = s.cap := rfl
@[simp] theorem State.onFolio_bsc (q k : Nat) (f : Folio → Folio) : (s.onFolio q k f).bsc = s.bsc := rfl
@[simp] theorem State.onFolio_delayed (q k : Nat) (f : Folio → Folio) : (s.onFolio q k f).delayed = s.delayed := rfl

/-! ### `onDemod` -/
@[simp] theorem State.onDemod_pending (q k : Nat) (f : Demod → Demod) : (s.onDemod q k f).pending = s.pending := rfl
@[simp] theorem State.onDemod_now (q k : Nat) (f : Demod → Demod) : (s.onDemod q k f).now = s.now := rfl
@[simp] theorem State.onDemod_free (q k : Nat) (f : Demod → Demod) : (s.onDemod q k f).free = s.free := rfl
@[simp] theorem State.onDemod_sent (q k : Nat) (f : Demod → Demod) : (s.onDemod q k f).sent = s.sent := rfl
@[simp] theorem State.onDemod_dev (q k : Nat) (f : Demod → Demod) : (s.onDemod q k f).dev = s.dev := rfl
@[simp] theorem State.onDemod_svc (q k : Nat) (f : Demod → Demod) : (s.onDemod q k f).svc = s.svc := rfl
@[simp] theorem State.onDemod_trust (q k : Nat) (f : Demod → Demod) : (s.onDemod q k f).trust = s.trust := rfl
@[simp] theorem State.onDemod_ev (q k : Nat) (f : Demod → Demod) : (s.onDemod q k f).ev = s.ev := rfl
@[simp] theorem State.onDemod_syn (q k : Nat) (f : Demod → Demod) : (s.onDemod q k f).syn = s.syn := rfl
@[simp] theorem State.onDemod_fb (q k : Nat) (f : Demod → Demod) : (s.onDemod q k f).fb = s.fb := rfl
@[simp] theorem State.onDemod_clk (q k : Nat) (f : Demod → Demod) : (s.onDemod q k f).clk = s.clk := rfl
@[simp] theorem State.onDemod_plans (q k : Nat) (f : Demod → Demod) : (s.onDemod q k f).plans = s.plans := rfl
@[simp] theorem State.onDemod_link (q k : Nat) (f : Demod → Demod) : (s.onDemod q k f).link = s.link := rfl
@[simp] theorem State.onDemod_rf (q k : Nat) (f : Demod → Demod) : (s.onDemod q k f).rf = s.rf := rfl
@[simp] theorem State.onDemod_cap (q k : Nat) (f : Demod → Demod) : (s.onDemod q k f).cap = s.cap := rfl
@[simp] theorem State.onDemod_bsc (q k : Nat) (f : Demod → Demod) : (s.onDemod q k f).bsc = s.bsc := rfl
@[simp] theorem State.onDemod_delayed (q k : Nat) (f : Demod → Demod) : (s.onDemod q k f).delayed = s.delayed := rfl

/-! ### `onCore` -/
@[simp] theorem State.onCore_pending (q k : Nat) (f : FbCore → FbCore) : (s.onCore q k f).pending = s.pending := rfl
@[simp] theorem State.onCore_now (q k : Nat) (f : FbCore → FbCore) : (s.onCore q k f).now = s.now := rfl
@[simp] theorem State.onCore_free (q k : Nat) (f : FbCore → FbCore) : (s.onCore q k f).free = s.free := rfl
@[simp] theorem State.onCore_sent (q k : Nat) (f : FbCore → FbCore) : (s.onCore q k f).sent = s.sent := rfl
@[simp] theorem State.onCore_dev (q k : Nat) (f : FbCore → FbCore) : (s.onCore q k f).dev = s.dev := rfl
@[simp] theorem State.onCore_svc (q k : Nat) (f : FbCore → FbCore) : (s.onCore q k f).svc = s.svc := rfl
@[simp] theorem State.onCore_trust (q k : Nat) (f : FbCore → FbCore) : (s.onCore q k f).trust = s.trust := rfl
@[simp] theorem State.onCore_ev (q k : Nat) (f : FbCore → FbCore) : (s.onCore q k f).ev = s.ev := rfl
@[simp] theorem State.onCore_syn (q k : Nat) (f : FbCore → FbCore) : (s.onCore q k f).syn = s.syn := rfl
@[simp] theorem State.onCore_ro (q k : Nat) (f : FbCore → FbCore) : (s.onCore q k f).ro = s.ro := rfl
@[simp] theorem State.onCore_clk (q k : Nat) (f : FbCore → FbCore) : (s.onCore q k f).clk = s.clk := rfl
@[simp] theorem State.onCore_plans (q k : Nat) (f : FbCore → FbCore) : (s.onCore q k f).plans = s.plans := rfl
@[simp] theorem State.onCore_link (q k : Nat) (f : FbCore → FbCore) : (s.onCore q k f).link = s.link := rfl
@[simp] theorem State.onCore_rf (q k : Nat) (f : FbCore → FbCore) : (s.onCore q k f).rf = s.rf := rfl
@[simp] theorem State.onCore_cap (q k : Nat) (f : FbCore → FbCore) : (s.onCore q k f).cap = s.cap := rfl
@[simp] theorem State.onCore_bsc (q k : Nat) (f : FbCore → FbCore) : (s.onCore q k f).bsc = s.bsc := rfl
@[simp] theorem State.onCore_delayed (q k : Nat) (f : FbCore → FbCore) : (s.onCore q k f).delayed = s.delayed := rfl

/-! ### `onDac` -/
@[simp] theorem State.onDac_pending (n : Nat) (f : DacLine → DacLine) : (s.onDac n f).pending = s.pending := rfl
@[simp] theorem State.onDac_now (n : Nat) (f : DacLine → DacLine) : (s.onDac n f).now = s.now := rfl
@[simp] theorem State.onDac_free (n : Nat) (f : DacLine → DacLine) : (s.onDac n f).free = s.free := rfl
@[simp] theorem State.onDac_sent (n : Nat) (f : DacLine → DacLine) : (s.onDac n f).sent = s.sent := rfl
@[simp] theorem State.onDac_dev (n : Nat) (f : DacLine → DacLine) : (s.onDac n f).dev = s.dev := rfl
@[simp] theorem State.onDac_svc (n : Nat) (f : DacLine → DacLine) : (s.onDac n f).svc = s.svc := rfl
@[simp] theorem State.onDac_trust (n : Nat) (f : DacLine → DacLine) : (s.onDac n f).trust = s.trust := rfl
@[simp] theorem State.onDac_ev (n : Nat) (f : DacLine → DacLine) : (s.onDac n f).ev = s.ev := rfl
@[simp] theorem State.onDac_syn (n : Nat) (f : DacLine → DacLine) : (s.onDac n f).syn = s.syn := rfl
@[simp] theorem State.onDac_ro (n : Nat) (f : DacLine → DacLine) : (s.onDac n f).ro = s.ro := rfl
@[simp] theorem State.onDac_fb (n : Nat) (f : DacLine → DacLine) : (s.onDac n f).fb = s.fb := rfl
@[simp] theorem State.onDac_clk (n : Nat) (f : DacLine → DacLine) : (s.onDac n f).clk = s.clk := rfl
@[simp] theorem State.onDac_plans (n : Nat) (f : DacLine → DacLine) : (s.onDac n f).plans = s.plans := rfl
@[simp] theorem State.onDac_link (n : Nat) (f : DacLine → DacLine) : (s.onDac n f).link = s.link := rfl
@[simp] theorem State.onDac_cap (n : Nat) (f : DacLine → DacLine) : (s.onDac n f).cap = s.cap := rfl
@[simp] theorem State.onDac_bsc (n : Nat) (f : DacLine → DacLine) : (s.onDac n f).bsc = s.bsc := rfl
@[simp] theorem State.onDac_delayed (n : Nat) (f : DacLine → DacLine) : (s.onDac n f).delayed = s.delayed := rfl

/-! ### `onAdc` -/
@[simp] theorem State.onAdc_pending (n : Nat) (f : AdcLine → AdcLine) : (s.onAdc n f).pending = s.pending := rfl
@[simp] theorem State.onAdc_now (n : Nat) (f : AdcLine → AdcLine) : (s.onAdc n f).now = s.now := rfl
@[simp] theorem State.onAdc_free (n : Nat) (f : AdcLine → AdcLine) : (s.onAdc n f).free = s.free := rfl
@[simp] theorem State.onAdc_sent (n : Nat) (f : AdcLine → AdcLine) : (s.onAdc n f).sent = s.sent := rfl
@[simp] theorem State.onAdc_dev (n : Nat) (f : AdcLine → AdcLine) : (s.onAdc n f).dev = s.dev := rfl
@[simp] theorem State.onAdc_svc (n : Nat) (f : AdcLine → AdcLine) : (s.onAdc n f).svc = s.svc := rfl
@[simp] theorem State.onAdc_trust (n : Nat) (f : AdcLine → AdcLine) : (s.onAdc n f).trust = s.trust := rfl
@[simp] theorem State.onAdc_ev (n : Nat) (f : AdcLine → AdcLine) : (s.onAdc n f).ev = s.ev := rfl
@[simp] theorem State.onAdc_syn (n : Nat) (f : AdcLine → AdcLine) : (s.onAdc n f).syn = s.syn := rfl
@[simp] theorem State.onAdc_ro (n : Nat) (f : AdcLine → AdcLine) : (s.onAdc n f).ro = s.ro := rfl
@[simp] theorem State.onAdc_fb (n : Nat) (f : AdcLine → AdcLine) : (s.onAdc n f).fb = s.fb := rfl
@[simp] theorem State.onAdc_clk (n : Nat) (f : AdcLine → AdcLine) : (s.onAdc n f).clk = s.clk := rfl
@[simp] theorem State.onAdc_plans (n : Nat) (f : AdcLine → AdcLine) : (s.onAdc n f).plans = s.plans := rfl
@[simp] theorem State.onAdc_link (n : Nat) (f : AdcLine → AdcLine) : (s.onAdc n f).link = s.link := rfl
@[simp] theorem State.onAdc_cap (n : Nat) (f : AdcLine → AdcLine) : (s.onAdc n f).cap = s.cap := rfl
@[simp] theorem State.onAdc_bsc (n : Nat) (f : AdcLine → AdcLine) : (s.onAdc n f).bsc = s.bsc := rfl
@[simp] theorem State.onAdc_delayed (n : Nat) (f : AdcLine → AdcLine) : (s.onAdc n f).delayed = s.delayed := rfl

/-! ### `onCapU` -/
@[simp] theorem State.onCapU_pending (n : Nat) (f : CapUnit → CapUnit) : (s.onCapU n f).pending = s.pending := rfl
@[simp] theorem State.onCapU_now (n : Nat) (f : CapUnit → CapUnit) : (s.onCapU n f).now = s.now := rfl
@[simp] theorem State.onCapU_free (n : Nat) (f : CapUnit → CapUnit) : (s.onCapU n f).free = s.free := rfl
@[simp] theorem State.onCapU_sent (n : Nat) (f : CapUnit → CapUnit) : (s.onCapU n f).sent = s.sent := rfl
@[simp] theorem State.onCapU_dev (n : Nat) (f : CapUnit → CapUnit) : (s.onCapU n f).dev = s.dev := rfl
@[simp] theorem State.onCapU_svc (n : Nat) (f : CapUnit → CapUnit) : (s.onCapU n f).svc = s.svc := rfl
@[simp] theorem State.onCapU_trust (n : Nat) (f : CapUnit → CapUnit) : (s.onCapU n f).trust = s.trust := rfl
@[simp] theorem State.onCapU_ev (n : Nat) (f : CapUnit → CapUnit) : (s.onCapU n f).ev = s.ev := rfl
@[simp] theorem State.onCapU_syn (n : Nat) (f : CapUnit → CapUnit) : (s.onCapU n f).syn = s.syn := rfl
@[simp] theorem State.onCapU_ro (n : Nat) (f : CapUnit → CapUnit) : (s.onCapU n f).ro = s.ro := rfl
@[simp] theorem State.onCapU_fb (n : Nat) (f : CapUnit → CapUnit) : (s.onCapU n f).fb = s.fb := rfl
@[simp] theorem State.onCapU_clk (n : Nat) (f : CapUnit → CapUnit) : (s.onCapU n f).clk = s.clk := rfl
@[simp] theorem State.onCapU_plans (n : Nat) (f : CapUnit → CapUnit) : (s.onCapU n f).plans = s.plans := rfl
@[simp] theorem State.onCapU_link (n : Nat) (f : CapUnit → CapUnit) : (s.onCapU n f).link = s.link := rfl
@[simp] theorem State.onCapU_rf (n : Nat) (f : CapUnit → CapUnit) : (s.onCapU n f).rf = s.rf := rfl
@[simp] theorem State.onCapU_bsc (n : Nat) (f : CapUnit → CapUnit) : (s.onCapU n f).bsc = s.bsc := rfl
@[simp] theorem State.onCapU_delayed (n : Nat) (f : CapUnit → CapUnit) : (s.onCapU n f).delayed = s.delayed := rfl

/-! ### `onTinIn` -/
@[simp] theorem State.onTinIn_pending (n : Nat) (f : TinIn → TinIn) : (s.onTinIn n f).pending = s.pending := rfl
@[simp] theorem State.onTinIn_now (n : Nat) (f : TinIn → TinIn) : (s.onTinIn n f).now = s.now := rfl
@[simp] theorem State.onTinIn_free (n : Nat) (f : TinIn → TinIn) : (s.onTinIn n f).free = s.free := rfl
@[simp] theorem State.onTinIn_sent (n : Nat) (f : TinIn → TinIn) : (s.onTinIn n f).sent = s.sent := rfl
@[simp] theorem State.onTinIn_dev (n : Nat) (f : TinIn → TinIn) : (s.onTinIn n f).dev = s.dev := rfl
@[simp] theorem State.onTinIn_svc (n : Nat) (f : TinIn → TinIn) : (s.onTinIn n f).svc = s.svc := rfl
@[simp] theorem State.onTinIn_trust (n : Nat) (f : TinIn → TinIn) : (s.onTinIn n f).trust = s.trust := rfl
@[simp] theorem State.onTinIn_ev (n : Nat) (f : TinIn → TinIn) : (s.onTinIn n f).ev = s.ev := rfl
@[simp] theorem State.onTinIn_syn (n : Nat) (f : TinIn → TinIn) : (s.onTinIn n f).syn = s.syn := rfl
@[simp] theorem State.onTinIn_ro (n : Nat) (f : TinIn → TinIn) : (s.onTinIn n f).ro = s.ro := rfl
@[simp] theorem State.onTinIn_fb (n : Nat) (f : TinIn → TinIn) : (s.onTinIn n f).fb = s.fb := rfl
@[simp] theorem State.onTinIn_clk (n : Nat) (f : TinIn → TinIn) : (s.onTinIn n f).clk = s.clk := rfl
@[simp] theorem State.onTinIn_plans (n : Nat) (f : TinIn → TinIn) : (s.onTinIn n f).plans = s.plans := rfl
@[simp] theorem State.onTinIn_link (n : Nat) (f : TinIn → TinIn) : (s.onTinIn n f).link = s.link := rfl
@[simp] theorem State.onTinIn_rf (n : Nat) (f : TinIn → TinIn) : (s.onTinIn n f).rf = s.rf := rfl
@[simp] theorem State.onTinIn_bsc (n : Nat) (f : TinIn → TinIn) : (s.onTinIn n f).bsc = s.bsc := rfl
@[simp] theorem State.onTinIn_delayed (n : Nat) (f : TinIn → TinIn) : (s.onTinIn n f).delayed = s.delayed := rfl

/-! ### `onTinEng` -/
@[simp] theorem State.onTinEng_pending (n : Nat) (f : TinEng → TinEng) : (s.onTinEng n f).pending = s.pending := rfl
@[simp] theorem State.onTinEng_now (n : Nat) (f : TinEng → TinEng) : (s.onTinEng n f).now = s.now := rfl
@[simp] theorem State.onTinEng_free (n : Nat) (f : TinEng → TinEng) : (s.onTinEng n f).free = s.free := rfl
@[simp] theorem State.onTinEng_sent (n : Nat) (f : TinEng → TinEng) : (s.onTinEng n f).sent = s.sent := rfl
@[simp] theorem State.onTinEng_dev (n : Nat) (f : TinEng → TinEng) : (s.onTinEng n f).dev = s.dev := rfl
@[simp] theorem State.onTinEng_svc (n : Nat) (f : TinEng → TinEng) : (s.onTinEng n f).svc = s.svc := rfl
@[simp] theorem State.onTinEng_trust (n : Nat) (f : TinEng → TinEng) : (s.onTinEng n f).trust = s.trust := rfl
@[simp] theorem State.onTinEng_ev (n : Nat) (f : TinEng → TinEng) : (s.onTinEng n f).ev = s.ev := rfl
@[simp] theorem State.onTinEng_syn (n : Nat) (f : TinEng → TinEng) : (s.onTinEng n f).syn = s.syn := rfl
@[simp] theorem State.onTinEng_ro (n : Nat) (f : TinEng → TinEng) : (s.onTinEng n f).ro = s.ro := rfl
@[simp] theorem State.onTinEng_fb (n : Nat) (f : TinEng → TinEng) : (s.onTinEng n f).fb = s.fb := rfl
@[simp] theorem State.onTinEng_clk (n : Nat) (f : TinEng → TinEng) : (s.onTinEng n f).clk = s.clk := rfl
@[simp] theorem State.onTinEng_plans (n : Nat) (f : TinEng → TinEng) : (s.onTinEng n f).plans = s.plans := rfl
@[simp] theorem State.onTinEng_link (n : Nat) (f : TinEng → TinEng) : (s.onTinEng n f).link = s.link := rfl
@[simp] theorem State.onTinEng_rf (n : Nat) (f : TinEng → TinEng) : (s.onTinEng n f).rf = s.rf := rfl
@[simp] theorem State.onTinEng_bsc (n : Nat) (f : TinEng → TinEng) : (s.onTinEng n f).bsc = s.bsc := rfl
@[simp] theorem State.onTinEng_delayed (n : Nat) (f : TinEng → TinEng) : (s.onTinEng n f).delayed = s.delayed := rfl

/-! ### `onBch` -/
@[simp] theorem State.onBch_pending (n : Nat) (f : BiasCh → BiasCh) : (s.onBch n f).pending = s.pending := rfl
@[simp] theorem State.onBch_now (n : Nat) (f : BiasCh → BiasCh) : (s.onBch n f).now = s.now := rfl
@[simp] theorem State.onBch_free (n : Nat) (f : BiasCh → BiasCh) : (s.onBch n f).free = s.free := rfl
@[simp] theorem State.onBch_sent (n : Nat) (f : BiasCh → BiasCh) : (s.onBch n f).sent = s.sent := rfl
@[simp] theorem State.onBch_dev (n : Nat) (f : BiasCh → BiasCh) : (s.onBch n f).dev = s.dev := rfl
@[simp] theorem State.onBch_svc (n : Nat) (f : BiasCh → BiasCh) : (s.onBch n f).svc = s.svc := rfl
@[simp] theorem State.onBch_trust (n : Nat) (f : BiasCh → BiasCh) : (s.onBch n f).trust = s.trust := rfl
@[simp] theorem State.onBch_ev (n : Nat) (f : BiasCh → BiasCh) : (s.onBch n f).ev = s.ev := rfl
@[simp] theorem State.onBch_syn (n : Nat) (f : BiasCh → BiasCh) : (s.onBch n f).syn = s.syn := rfl
@[simp] theorem State.onBch_ro (n : Nat) (f : BiasCh → BiasCh) : (s.onBch n f).ro = s.ro := rfl
@[simp] theorem State.onBch_fb (n : Nat) (f : BiasCh → BiasCh) : (s.onBch n f).fb = s.fb := rfl
@[simp] theorem State.onBch_clk (n : Nat) (f : BiasCh → BiasCh) : (s.onBch n f).clk = s.clk := rfl
@[simp] theorem State.onBch_plans (n : Nat) (f : BiasCh → BiasCh) : (s.onBch n f).plans = s.plans := rfl
@[simp] theorem State.onBch_link (n : Nat) (f : BiasCh → BiasCh) : (s.onBch n f).link = s.link := rfl
@[simp] theorem State.onBch_rf (n : Nat) (f : BiasCh → BiasCh) : (s.onBch n f).rf = s.rf := rfl
@[simp] theorem State.onBch_cap (n : Nat) (f : BiasCh → BiasCh) : (s.onBch n f).cap = s.cap := rfl
@[simp] theorem State.onBch_delayed (n : Nat) (f : BiasCh → BiasCh) : (s.onBch n f).delayed = s.delayed := rfl

/-! ### `onMon` -/
@[simp] theorem State.onMon_pending (n : Nat) (f : MonCh → MonCh) : (s.onMon n f).pending = s.pending := rfl
@[simp] theorem State.onMon_now (n : Nat) (f : MonCh → MonCh) : (s.onMon n f).now = s.now := rfl
@[simp] theorem State.onMon_free (n : Nat) (f : MonCh → MonCh) : (s.onMon n f).free = s.free := rfl
@[simp] theorem State.onMon_sent (n : Nat) (f : MonCh → MonCh) : (s.onMon n f).sent = s.sent := rfl
@[simp] theorem State.onMon_dev (n : Nat) (f : MonCh → MonCh) : (s.onMon n f).dev = s.dev := rfl
@[simp] theorem State.onMon_svc (n : Nat) (f : MonCh → MonCh) : (s.onMon n f).svc = s.svc := rfl
@[simp] theorem State.onMon_trust (n : Nat) (f : MonCh → MonCh) : (s.onMon n f).trust = s.trust := rfl
@[simp] theorem State.onMon_ev (n : Nat) (f : MonCh → MonCh) : (s.onMon n f).ev = s.ev := rfl
@[simp] theorem State.onMon_syn (n : Nat) (f : MonCh → MonCh) : (s.onMon n f).syn = s.syn := rfl
@[simp] theorem State.onMon_ro (n : Nat) (f : MonCh → MonCh) : (s.onMon n f).ro = s.ro := rfl
@[simp] theorem State.onMon_fb (n : Nat) (f : MonCh → MonCh) : (s.onMon n f).fb = s.fb := rfl
@[simp] theorem State.onMon_clk (n : Nat) (f : MonCh → MonCh) : (s.onMon n f).clk = s.clk := rfl
@[simp] theorem State.onMon_plans (n : Nat) (f : MonCh → MonCh) : (s.onMon n f).plans = s.plans := rfl
@[simp] theorem State.onMon_link (n : Nat) (f : MonCh → MonCh) : (s.onMon n f).link = s.link := rfl
@[simp] theorem State.onMon_rf (n : Nat) (f : MonCh → MonCh) : (s.onMon n f).rf = s.rf := rfl
@[simp] theorem State.onMon_cap (n : Nat) (f : MonCh → MonCh) : (s.onMon n f).cap = s.cap := rfl
@[simp] theorem State.onMon_delayed (n : Nat) (f : MonCh → MonCh) : (s.onMon n f).delayed = s.delayed := rfl

/-! ### `onSeq` -/
@[simp] theorem State.onSeq_pending (f : MonSeq → MonSeq) : (s.onSeq f).pending = s.pending := rfl
@[simp] theorem State.onSeq_now (f : MonSeq → MonSeq) : (s.onSeq f).now = s.now := rfl
@[simp] theorem State.onSeq_free (f : MonSeq → MonSeq) : (s.onSeq f).free = s.free := rfl
@[simp] theorem State.onSeq_sent (f : MonSeq → MonSeq) : (s.onSeq f).sent = s.sent := rfl
@[simp] theorem State.onSeq_dev (f : MonSeq → MonSeq) : (s.onSeq f).dev = s.dev := rfl
@[simp] theorem State.onSeq_svc (f : MonSeq → MonSeq) : (s.onSeq f).svc = s.svc := rfl
@[simp] theorem State.onSeq_trust (f : MonSeq → MonSeq) : (s.onSeq f).trust = s.trust := rfl
@[simp] theorem State.onSeq_ev (f : MonSeq → MonSeq) : (s.onSeq f).ev = s.ev := rfl
@[simp] theorem State.onSeq_syn (f : MonSeq → MonSeq) : (s.onSeq f).syn = s.syn := rfl
@[simp] theorem State.onSeq_ro (f : MonSeq → MonSeq) : (s.onSeq f).ro = s.ro := rfl
@[simp] theorem State.onSeq_fb (f : MonSeq → MonSeq) : (s.onSeq f).fb = s.fb := rfl
@[simp] theorem State.onSeq_clk (f : MonSeq → MonSeq) : (s.onSeq f).clk = s.clk := rfl
@[simp] theorem State.onSeq_plans (f : MonSeq → MonSeq) : (s.onSeq f).plans = s.plans := rfl
@[simp] theorem State.onSeq_link (f : MonSeq → MonSeq) : (s.onSeq f).link = s.link := rfl
@[simp] theorem State.onSeq_rf (f : MonSeq → MonSeq) : (s.onSeq f).rf = s.rf := rfl
@[simp] theorem State.onSeq_cap (f : MonSeq → MonSeq) : (s.onSeq f).cap = s.cap := rfl
@[simp] theorem State.onSeq_delayed (f : MonSeq → MonSeq) : (s.onSeq f).delayed = s.delayed := rfl

/-! ### `onCal` -/
@[simp] theorem State.onCal_pending (f : Cal → Cal) : (s.onCal f).pending = s.pending := rfl
@[simp] theorem State.onCal_now (f : Cal → Cal) : (s.onCal f).now = s.now := rfl
@[simp] theorem State.onCal_free (f : Cal → Cal) : (s.onCal f).free = s.free := rfl
@[simp] theorem State.onCal_sent (f : Cal → Cal) : (s.onCal f).sent = s.sent := rfl
@[simp] theorem State.onCal_dev (f : Cal → Cal) : (s.onCal f).dev = s.dev := rfl
@[simp] theorem State.onCal_svc (f : Cal → Cal) : (s.onCal f).svc = s.svc := rfl
@[simp] theorem State.onCal_trust (f : Cal → Cal) : (s.onCal f).trust = s.trust := rfl
@[simp] theorem State.onCal_ev (f : Cal → Cal) : (s.onCal f).ev = s.ev := rfl
@[simp] theorem State.onCal_syn (f : Cal → Cal) : (s.onCal f).syn = s.syn := rfl
@[simp] theorem State.onCal_ro (f : Cal → Cal) : (s.onCal f).ro = s.ro := rfl
@[simp] theorem State.onCal_fb (f : Cal → Cal) : (s.onCal f).fb = s.fb := rfl
@[simp] theorem State.onCal_clk (f : Cal → Cal) : (s.onCal f).clk = s.clk := rfl
@[simp] theorem State.onCal_plans (f : Cal → Cal) : (s.onCal f).plans = s.plans := rfl
@[simp] theorem State.onCal_link (f : Cal → Cal) : (s.onCal f).link = s.link := rfl
@[simp] theorem State.onCal_rf (f : Cal → Cal) : (s.onCal f).rf = s.rf := rfl
@[simp] theorem State.onCal_cap (f : Cal → Cal) : (s.onCal f).cap = s.cap := rfl
@[simp] theorem State.onCal_delayed (f : Cal → Cal) : (s.onCal f).delayed = s.delayed := rfl

/-! ### `onInput` -/
@[simp] theorem State.onInput_pending (n : Nat) (f : Input → Input) : (s.onInput n f).pending = s.pending := rfl
@[simp] theorem State.onInput_now (n : Nat) (f : Input → Input) : (s.onInput n f).now = s.now := rfl
@[simp] theorem State.onInput_free (n : Nat) (f : Input → Input) : (s.onInput n f).free = s.free := rfl
@[simp] theorem State.onInput_sent (n : Nat) (f : Input → Input) : (s.onInput n f).sent = s.sent := rfl
@[simp] theorem State.onInput_dev (n : Nat) (f : Input → Input) : (s.onInput n f).dev = s.dev := rfl
@[simp] theorem State.onInput_svc (n : Nat) (f : Input → Input) : (s.onInput n f).svc = s.svc := rfl
@[simp] theorem State.onInput_trust (n : Nat) (f : Input → Input) : (s.onInput n f).trust = s.trust := rfl
@[simp] theorem State.onInput_ev (n : Nat) (f : Input → Input) : (s.onInput n f).ev = s.ev := rfl
@[simp] theorem State.onInput_syn (n : Nat) (f : Input → Input) : (s.onInput n f).syn = s.syn := rfl
@[simp] theorem State.onInput_ro (n : Nat) (f : Input → Input) : (s.onInput n f).ro = s.ro := rfl
@[simp] theorem State.onInput_fb (n : Nat) (f : Input → Input) : (s.onInput n f).fb = s.fb := rfl
@[simp] theorem State.onInput_clk (n : Nat) (f : Input → Input) : (s.onInput n f).clk = s.clk := rfl
@[simp] theorem State.onInput_link (n : Nat) (f : Input → Input) : (s.onInput n f).link = s.link := rfl
@[simp] theorem State.onInput_rf (n : Nat) (f : Input → Input) : (s.onInput n f).rf = s.rf := rfl
@[simp] theorem State.onInput_cap (n : Nat) (f : Input → Input) : (s.onInput n f).cap = s.cap := rfl
@[simp] theorem State.onInput_bsc (n : Nat) (f : Input → Input) : (s.onInput n f).bsc = s.bsc := rfl
@[simp] theorem State.onInput_delayed (n : Nat) (f : Input → Input) : (s.onInput n f).delayed = s.delayed := rfl

/-! ### `onChan` -/
@[simp] theorem State.onChan_pending (n : Nat) (f : Chan → Chan) : (s.onChan n f).pending = s.pending := rfl
@[simp] theorem State.onChan_now (n : Nat) (f : Chan → Chan) : (s.onChan n f).now = s.now := rfl
@[simp] theorem State.onChan_free (n : Nat) (f : Chan → Chan) : (s.onChan n f).free = s.free := rfl
@[simp] theorem State.onChan_sent (n : Nat) (f : Chan → Chan) : (s.onChan n f).sent = s.sent := rfl
@[simp] theorem State.onChan_dev (n : Nat) (f : Chan → Chan) : (s.onChan n f).dev = s.dev := rfl
@[simp] theorem State.onChan_svc (n : Nat) (f : Chan → Chan) : (s.onChan n f).svc = s.svc := rfl
@[simp] theorem State.onChan_trust (n : Nat) (f : Chan → Chan) : (s.onChan n f).trust = s.trust := rfl
@[simp] theorem State.onChan_ev (n : Nat) (f : Chan → Chan) : (s.onChan n f).ev = s.ev := rfl
@[simp] theorem State.onChan_syn (n : Nat) (f : Chan → Chan) : (s.onChan n f).syn = s.syn := rfl
@[simp] theorem State.onChan_ro (n : Nat) (f : Chan → Chan) : (s.onChan n f).ro = s.ro := rfl
@[simp] theorem State.onChan_fb (n : Nat) (f : Chan → Chan) : (s.onChan n f).fb = s.fb := rfl
@[simp] theorem State.onChan_clk (n : Nat) (f : Chan → Chan) : (s.onChan n f).clk = s.clk := rfl
@[simp] theorem State.onChan_link (n : Nat) (f : Chan → Chan) : (s.onChan n f).link = s.link := rfl
@[simp] theorem State.onChan_rf (n : Nat) (f : Chan → Chan) : (s.onChan n f).rf = s.rf := rfl
@[simp] theorem State.onChan_cap (n : Nat) (f : Chan → Chan) : (s.onChan n f).cap = s.cap := rfl
@[simp] theorem State.onChan_bsc (n : Nat) (f : Chan → Chan) : (s.onChan n f).bsc = s.bsc := rfl
@[simp] theorem State.onChan_delayed (n : Nat) (f : Chan → Chan) : (s.onChan n f).delayed = s.delayed := rfl

/-! ### `onCt` -/
@[simp] theorem State.onCt_pending (f : Ct → Ct) : (s.onCt f).pending = s.pending := rfl
@[simp] theorem State.onCt_now (f : Ct → Ct) : (s.onCt f).now = s.now := rfl
@[simp] theorem State.onCt_free (f : Ct → Ct) : (s.onCt f).free = s.free := rfl
@[simp] theorem State.onCt_sent (f : Ct → Ct) : (s.onCt f).sent = s.sent := rfl
@[simp] theorem State.onCt_dev (f : Ct → Ct) : (s.onCt f).dev = s.dev := rfl
@[simp] theorem State.onCt_svc (f : Ct → Ct) : (s.onCt f).svc = s.svc := rfl
@[simp] theorem State.onCt_trust (f : Ct → Ct) : (s.onCt f).trust = s.trust := rfl
@[simp] theorem State.onCt_ev (f : Ct → Ct) : (s.onCt f).ev = s.ev := rfl
@[simp] theorem State.onCt_syn (f : Ct → Ct) : (s.onCt f).syn = s.syn := rfl
@[simp] theorem State.onCt_ro (f : Ct → Ct) : (s.onCt f).ro = s.ro := rfl
@[simp] theorem State.onCt_fb (f : Ct → Ct) : (s.onCt f).fb = s.fb := rfl
@[simp] theorem State.onCt_clk (f : Ct → Ct) : (s.onCt f).clk = s.clk := rfl
@[simp] theorem State.onCt_link (f : Ct → Ct) : (s.onCt f).link = s.link := rfl
@[simp] theorem State.onCt_rf (f : Ct → Ct) : (s.onCt f).rf = s.rf := rfl
@[simp] theorem State.onCt_cap (f : Ct → Ct) : (s.onCt f).cap = s.cap := rfl
@[simp] theorem State.onCt_bsc (f : Ct → Ct) : (s.onCt f).bsc = s.bsc := rfl
@[simp] theorem State.onCt_delayed (f : Ct → Ct) : (s.onCt f).delayed = s.delayed := rfl

/-! ### `onCorr` -/
@[simp] theorem State.onCorr_pending (f : Corr → Corr) : (s.onCorr f).pending = s.pending := rfl
@[simp] theorem State.onCorr_now (f : Corr → Corr) : (s.onCorr f).now = s.now := rfl
@[simp] theorem State.onCorr_free (f : Corr → Corr) : (s.onCorr f).free = s.free := rfl
@[simp] theorem State.onCorr_sent (f : Corr → Corr) : (s.onCorr f).sent = s.sent := rfl
@[simp] theorem State.onCorr_dev (f : Corr → Corr) : (s.onCorr f).dev = s.dev := rfl
@[simp] theorem State.onCorr_svc (f : Corr → Corr) : (s.onCorr f).svc = s.svc := rfl
@[simp] theorem State.onCorr_trust (f : Corr → Corr) : (s.onCorr f).trust = s.trust := rfl
@[simp] theorem State.onCorr_ev (f : Corr → Corr) : (s.onCorr f).ev = s.ev := rfl
@[simp] theorem State.onCorr_syn (f : Corr → Corr) : (s.onCorr f).syn = s.syn := rfl
@[simp] theorem State.onCorr_ro (f : Corr → Corr) : (s.onCorr f).ro = s.ro := rfl
@[simp] theorem State.onCorr_fb (f : Corr → Corr) : (s.onCorr f).fb = s.fb := rfl
@[simp] theorem State.onCorr_clk (f : Corr → Corr) : (s.onCorr f).clk = s.clk := rfl
@[simp] theorem State.onCorr_link (f : Corr → Corr) : (s.onCorr f).link = s.link := rfl
@[simp] theorem State.onCorr_rf (f : Corr → Corr) : (s.onCorr f).rf = s.rf := rfl
@[simp] theorem State.onCorr_cap (f : Corr → Corr) : (s.onCorr f).cap = s.cap := rfl
@[simp] theorem State.onCorr_bsc (f : Corr → Corr) : (s.onCorr f).bsc = s.bsc := rfl
@[simp] theorem State.onCorr_delayed (f : Corr → Corr) : (s.onCorr f).delayed = s.delayed := rfl

/-! ### `onBeam` -/
@[simp] theorem State.onBeam_pending (f : Beam → Beam) : (s.onBeam f).pending = s.pending := rfl
@[simp] theorem State.onBeam_now (f : Beam → Beam) : (s.onBeam f).now = s.now := rfl
@[simp] theorem State.onBeam_free (f : Beam → Beam) : (s.onBeam f).free = s.free := rfl
@[simp] theorem State.onBeam_sent (f : Beam → Beam) : (s.onBeam f).sent = s.sent := rfl
@[simp] theorem State.onBeam_dev (f : Beam → Beam) : (s.onBeam f).dev = s.dev := rfl
@[simp] theorem State.onBeam_svc (f : Beam → Beam) : (s.onBeam f).svc = s.svc := rfl
@[simp] theorem State.onBeam_trust (f : Beam → Beam) : (s.onBeam f).trust = s.trust := rfl
@[simp] theorem State.onBeam_ev (f : Beam → Beam) : (s.onBeam f).ev = s.ev := rfl
@[simp] theorem State.onBeam_syn (f : Beam → Beam) : (s.onBeam f).syn = s.syn := rfl
@[simp] theorem State.onBeam_ro (f : Beam → Beam) : (s.onBeam f).ro = s.ro := rfl
@[simp] theorem State.onBeam_fb (f : Beam → Beam) : (s.onBeam f).fb = s.fb := rfl
@[simp] theorem State.onBeam_clk (f : Beam → Beam) : (s.onBeam f).clk = s.clk := rfl
@[simp] theorem State.onBeam_link (f : Beam → Beam) : (s.onBeam f).link = s.link := rfl
@[simp] theorem State.onBeam_rf (f : Beam → Beam) : (s.onBeam f).rf = s.rf := rfl
@[simp] theorem State.onBeam_cap (f : Beam → Beam) : (s.onBeam f).cap = s.cap := rfl
@[simp] theorem State.onBeam_bsc (f : Beam → Beam) : (s.onBeam f).bsc = s.bsc := rfl
@[simp] theorem State.onBeam_delayed (f : Beam → Beam) : (s.onBeam f).delayed = s.delayed := rfl

/-! ### `onCorrRun` -/
@[simp] theorem State.onCorrRun_pending (f : PlanRun → PlanRun) : (s.onCorrRun f).pending = s.pending := rfl
@[simp] theorem State.onCorrRun_now (f : PlanRun → PlanRun) : (s.onCorrRun f).now = s.now := rfl
@[simp] theorem State.onCorrRun_free (f : PlanRun → PlanRun) : (s.onCorrRun f).free = s.free := rfl
@[simp] theorem State.onCorrRun_sent (f : PlanRun → PlanRun) : (s.onCorrRun f).sent = s.sent := rfl
@[simp] theorem State.onCorrRun_dev (f : PlanRun → PlanRun) : (s.onCorrRun f).dev = s.dev := rfl
@[simp] theorem State.onCorrRun_svc (f : PlanRun → PlanRun) : (s.onCorrRun f).svc = s.svc := rfl
@[simp] theorem State.onCorrRun_trust (f : PlanRun → PlanRun) : (s.onCorrRun f).trust = s.trust := rfl
@[simp] theorem State.onCorrRun_ev (f : PlanRun → PlanRun) : (s.onCorrRun f).ev = s.ev := rfl
@[simp] theorem State.onCorrRun_syn (f : PlanRun → PlanRun) : (s.onCorrRun f).syn = s.syn := rfl
@[simp] theorem State.onCorrRun_ro (f : PlanRun → PlanRun) : (s.onCorrRun f).ro = s.ro := rfl
@[simp] theorem State.onCorrRun_fb (f : PlanRun → PlanRun) : (s.onCorrRun f).fb = s.fb := rfl
@[simp] theorem State.onCorrRun_clk (f : PlanRun → PlanRun) : (s.onCorrRun f).clk = s.clk := rfl
@[simp] theorem State.onCorrRun_link (f : PlanRun → PlanRun) : (s.onCorrRun f).link = s.link := rfl
@[simp] theorem State.onCorrRun_rf (f : PlanRun → PlanRun) : (s.onCorrRun f).rf = s.rf := rfl
@[simp] theorem State.onCorrRun_cap (f : PlanRun → PlanRun) : (s.onCorrRun f).cap = s.cap := rfl
@[simp] theorem State.onCorrRun_bsc (f : PlanRun → PlanRun) : (s.onCorrRun f).bsc = s.bsc := rfl
@[simp] theorem State.onCorrRun_delayed (f : PlanRun → PlanRun) : (s.onCorrRun f).delayed = s.delayed := rfl

/-! ### `onBeamRun` -/
@[simp] theorem State.onBeamRun_pending (f : PlanRun → PlanRun) : (s.onBeamRun f).pending = s.pending := rfl
@[simp] theorem State.onBeamRun_now (f : PlanRun → PlanRun) : (s.onBeamRun f).now = s.now := rfl
@[simp] theorem State.onBeamRun_free (f : PlanRun → PlanRun) : (s.onBeamRun f).free = s.free := rfl
@[simp] theorem State.onBeamRun_sent (f : PlanRun → PlanRun) : (s.onBeamRun f).sent = s.sent := rfl
@[simp] theorem State.onBeamRun_dev (f : PlanRun → PlanRun) : (s.onBeamRun f).dev = s.dev := rfl
@[simp] theorem State.onBeamRun_svc (f : PlanRun → PlanRun) : (s.onBeamRun f).svc = s.svc := rfl
@[simp] theorem State.onBeamRun_trust (f : PlanRun → PlanRun) : (s.onBeamRun f).trust = s.trust := rfl
@[simp] theorem State.onBeamRun_ev (f : PlanRun → PlanRun) : (s.onBeamRun f).ev = s.ev := rfl
@[simp] theorem State.onBeamRun_syn (f : PlanRun → PlanRun) : (s.onBeamRun f).syn = s.syn := rfl
@[simp] theorem State.onBeamRun_ro (f : PlanRun → PlanRun) : (s.onBeamRun f).ro = s.ro := rfl
@[simp] theorem State.onBeamRun_fb (f : PlanRun → PlanRun) : (s.onBeamRun f).fb = s.fb := rfl
@[simp] theorem State.onBeamRun_clk (f : PlanRun → PlanRun) : (s.onBeamRun f).clk = s.clk := rfl
@[simp] theorem State.onBeamRun_link (f : PlanRun → PlanRun) : (s.onBeamRun f).link = s.link := rfl
@[simp] theorem State.onBeamRun_rf (f : PlanRun → PlanRun) : (s.onBeamRun f).rf = s.rf := rfl
@[simp] theorem State.onBeamRun_cap (f : PlanRun → PlanRun) : (s.onBeamRun f).cap = s.cap := rfl
@[simp] theorem State.onBeamRun_bsc (f : PlanRun → PlanRun) : (s.onBeamRun f).bsc = s.bsc := rfl
@[simp] theorem State.onBeamRun_delayed (f : PlanRun → PlanRun) : (s.onBeamRun f).delayed = s.delayed := rfl

/-! ### `onCoreIsl` -/
@[simp] theorem State.onCoreIsl_pending (n : Nat) (f : CoreIsl → CoreIsl) : (s.onCoreIsl n f).pending = s.pending := rfl
@[simp] theorem State.onCoreIsl_now (n : Nat) (f : CoreIsl → CoreIsl) : (s.onCoreIsl n f).now = s.now := rfl
@[simp] theorem State.onCoreIsl_free (n : Nat) (f : CoreIsl → CoreIsl) : (s.onCoreIsl n f).free = s.free := rfl
@[simp] theorem State.onCoreIsl_sent (n : Nat) (f : CoreIsl → CoreIsl) : (s.onCoreIsl n f).sent = s.sent := rfl
@[simp] theorem State.onCoreIsl_dev (n : Nat) (f : CoreIsl → CoreIsl) : (s.onCoreIsl n f).dev = s.dev := rfl
@[simp] theorem State.onCoreIsl_svc (n : Nat) (f : CoreIsl → CoreIsl) : (s.onCoreIsl n f).svc = s.svc := rfl
@[simp] theorem State.onCoreIsl_trust (n : Nat) (f : CoreIsl → CoreIsl) : (s.onCoreIsl n f).trust = s.trust := rfl
@[simp] theorem State.onCoreIsl_ev (n : Nat) (f : CoreIsl → CoreIsl) : (s.onCoreIsl n f).ev = s.ev := rfl
@[simp] theorem State.onCoreIsl_syn (n : Nat) (f : CoreIsl → CoreIsl) : (s.onCoreIsl n f).syn = s.syn := rfl
@[simp] theorem State.onCoreIsl_ro (n : Nat) (f : CoreIsl → CoreIsl) : (s.onCoreIsl n f).ro = s.ro := rfl
@[simp] theorem State.onCoreIsl_fb (n : Nat) (f : CoreIsl → CoreIsl) : (s.onCoreIsl n f).fb = s.fb := rfl
@[simp] theorem State.onCoreIsl_plans (n : Nat) (f : CoreIsl → CoreIsl) : (s.onCoreIsl n f).plans = s.plans := rfl
@[simp] theorem State.onCoreIsl_link (n : Nat) (f : CoreIsl → CoreIsl) : (s.onCoreIsl n f).link = s.link := rfl
@[simp] theorem State.onCoreIsl_rf (n : Nat) (f : CoreIsl → CoreIsl) : (s.onCoreIsl n f).rf = s.rf := rfl
@[simp] theorem State.onCoreIsl_cap (n : Nat) (f : CoreIsl → CoreIsl) : (s.onCoreIsl n f).cap = s.cap := rfl
@[simp] theorem State.onCoreIsl_bsc (n : Nat) (f : CoreIsl → CoreIsl) : (s.onCoreIsl n f).bsc = s.bsc := rfl
@[simp] theorem State.onCoreIsl_delayed (n : Nat) (f : CoreIsl → CoreIsl) : (s.onCoreIsl n f).delayed = s.delayed := rfl

/-! ### `onPhys` -/
@[simp] theorem State.onPhys_pending (n : Nat) (f : PhysQuire → PhysQuire) : (s.onPhys n f).pending = s.pending := rfl
@[simp] theorem State.onPhys_now (n : Nat) (f : PhysQuire → PhysQuire) : (s.onPhys n f).now = s.now := rfl
@[simp] theorem State.onPhys_free (n : Nat) (f : PhysQuire → PhysQuire) : (s.onPhys n f).free = s.free := rfl
@[simp] theorem State.onPhys_sent (n : Nat) (f : PhysQuire → PhysQuire) : (s.onPhys n f).sent = s.sent := rfl
@[simp] theorem State.onPhys_dev (n : Nat) (f : PhysQuire → PhysQuire) : (s.onPhys n f).dev = s.dev := rfl
@[simp] theorem State.onPhys_trust (n : Nat) (f : PhysQuire → PhysQuire) : (s.onPhys n f).trust = s.trust := rfl
@[simp] theorem State.onPhys_ev (n : Nat) (f : PhysQuire → PhysQuire) : (s.onPhys n f).ev = s.ev := rfl
@[simp] theorem State.onPhys_syn (n : Nat) (f : PhysQuire → PhysQuire) : (s.onPhys n f).syn = s.syn := rfl
@[simp] theorem State.onPhys_ro (n : Nat) (f : PhysQuire → PhysQuire) : (s.onPhys n f).ro = s.ro := rfl
@[simp] theorem State.onPhys_fb (n : Nat) (f : PhysQuire → PhysQuire) : (s.onPhys n f).fb = s.fb := rfl
@[simp] theorem State.onPhys_clk (n : Nat) (f : PhysQuire → PhysQuire) : (s.onPhys n f).clk = s.clk := rfl
@[simp] theorem State.onPhys_plans (n : Nat) (f : PhysQuire → PhysQuire) : (s.onPhys n f).plans = s.plans := rfl
@[simp] theorem State.onPhys_link (n : Nat) (f : PhysQuire → PhysQuire) : (s.onPhys n f).link = s.link := rfl
@[simp] theorem State.onPhys_rf (n : Nat) (f : PhysQuire → PhysQuire) : (s.onPhys n f).rf = s.rf := rfl
@[simp] theorem State.onPhys_cap (n : Nat) (f : PhysQuire → PhysQuire) : (s.onPhys n f).cap = s.cap := rfl
@[simp] theorem State.onPhys_bsc (n : Nat) (f : PhysQuire → PhysQuire) : (s.onPhys n f).bsc = s.bsc := rfl
@[simp] theorem State.onPhys_delayed (n : Nat) (f : PhysQuire → PhysQuire) : (s.onPhys n f).delayed = s.delayed := rfl

/-! ### `delay` -/
@[simp] theorem State.delay_pending (t : Nat) (e : Effect) : (s.delay t e).pending = s.pending := rfl
@[simp] theorem State.delay_now (t : Nat) (e : Effect) : (s.delay t e).now = s.now := rfl
@[simp] theorem State.delay_free (t : Nat) (e : Effect) : (s.delay t e).free = s.free := rfl
@[simp] theorem State.delay_sent (t : Nat) (e : Effect) : (s.delay t e).sent = s.sent := rfl
@[simp] theorem State.delay_dev (t : Nat) (e : Effect) : (s.delay t e).dev = s.dev := rfl
@[simp] theorem State.delay_svc (t : Nat) (e : Effect) : (s.delay t e).svc = s.svc := rfl
@[simp] theorem State.delay_trust (t : Nat) (e : Effect) : (s.delay t e).trust = s.trust := rfl
@[simp] theorem State.delay_ev (t : Nat) (e : Effect) : (s.delay t e).ev = s.ev := rfl
@[simp] theorem State.delay_syn (t : Nat) (e : Effect) : (s.delay t e).syn = s.syn := rfl
@[simp] theorem State.delay_ro (t : Nat) (e : Effect) : (s.delay t e).ro = s.ro := rfl
@[simp] theorem State.delay_fb (t : Nat) (e : Effect) : (s.delay t e).fb = s.fb := rfl
@[simp] theorem State.delay_clk (t : Nat) (e : Effect) : (s.delay t e).clk = s.clk := rfl
@[simp] theorem State.delay_plans (t : Nat) (e : Effect) : (s.delay t e).plans = s.plans := rfl
@[simp] theorem State.delay_link (t : Nat) (e : Effect) : (s.delay t e).link = s.link := rfl
@[simp] theorem State.delay_rf (t : Nat) (e : Effect) : (s.delay t e).rf = s.rf := rfl
@[simp] theorem State.delay_cap (t : Nat) (e : Effect) : (s.delay t e).cap = s.cap := rfl
@[simp] theorem State.delay_bsc (t : Nat) (e : Effect) : (s.delay t e).bsc = s.bsc := rfl

end Sys2Proof.Machine
end

