-- ==== Sys2Proof/Laws/Tables.lean ====
section
/-! SUPPORT. Laws of the sparse tables and lists of Sys2Proof/Word.lean: what a write reads as, and that every write keeps the canonical form. -/
namespace Sys2Proof

variable {α : Type}

/-- Every key of a table lies above a bound. -/
def tabove (b : Nat) (t : List (Nat × α)) : Prop := ∀ e ∈ t, b < e.1

theorem tabove_nil (b : Nat) : tabove b ([] : List (Nat × α)) := by intro e h; cases h

theorem tabove_cons {b i : Nat} {v : α} {t : List (Nat × α)} : tabove b ((i, v) :: t) ↔ b < i ∧ tabove b t := by
  constructor
  · intro h; exact ⟨h (i, v) (by simp), fun e he => h e (by simp [he])⟩
  · rintro ⟨h1, h2⟩ e he
    rcases List.mem_cons.mp he with rfl | he
    · exact h1
    · exact h2 e he

theorem tabove_mono {a b : Nat} {t : List (Nat × α)} (hab : a ≤ b) (h : tabove b t) : tabove a t :=
  fun e he => Nat.lt_of_le_of_lt hab (h e he)

section
variable [DecidableEq α] {d : α}

/-- The canonical form of a nonempty table, one entry at a time. -/
theorem twf_cons {i : Nat} {v : α} {t : List (Nat × α)} : twf d ((i, v) :: t) = true ↔ v ≠ d ∧ tabove i t ∧ twf d t = true := by
  induction t generalizing i v with
  | nil => simp [twf, tabove]
  | cons e t ih =>
    obtain ⟨j, w⟩ := e
    have hj := @ih j w
    constructor
    · intro h
      simp only [twf, Bool.and_eq_true, decide_eq_true_eq] at h
      obtain ⟨⟨h1, h2⟩, h3⟩ := h
      have h3' : twf d ((j, w) :: t) = true := by simpa [twf] using h3
      refine ⟨h1, tabove_cons.mpr ⟨h2, tabove_mono (Nat.le_of_lt h2) (hj.mp h3').2.1⟩, h3'⟩
    · rintro ⟨h1, h2, h3⟩
      have : i < j := (tabove_cons.mp h2).1
      rw [twf]
      simp only [Bool.and_eq_true, decide_eq_true_eq]
      exact ⟨⟨h1, this⟩, h3⟩

omit [DecidableEq α] in
theorem tget_of_tabove {b k : Nat} {t : List (Nat × α)} (h : tabove b t) (hk : k ≤ b) : tget d t k = d := by
  induction t with
  | nil => rfl
  | cons e t ih =>
    obtain ⟨i, v⟩ := e
    have h' := tabove_cons.mp h
    have : i ≠ k := by omega
    simp [tget, this, ih h'.2]

omit [DecidableEq α] in
theorem tabove_terase {b : Nat} {t : List (Nat × α)} (k : Nat) (h : tabove b t) : tabove b (terase t k) := by
  induction t with
  | nil => exact h
  | cons e t ih =>
    obtain ⟨i, v⟩ := e
    have h' := tabove_cons.mp h
    unfold terase
    split
    · exact h'.2
    · split
      · exact tabove_cons.mpr ⟨h'.1, ih h'.2⟩
      · exact h

omit [DecidableEq α] in
theorem tabove_tins {b k : Nat} {t : List (Nat × α)} (v : α) (h : tabove b t) (hk : b < k) : tabove b (tins t k v) := by
  induction t with
  | nil => exact tabove_cons.mpr ⟨hk, h⟩
  | cons e t ih =>
    obtain ⟨i, w⟩ := e
    have h' := tabove_cons.mp h
    unfold tins
    split
    · exact tabove_cons.mpr ⟨h'.1, ih h'.2⟩
    · split
      · exact tabove_cons.mpr ⟨hk, h'.2⟩
      · exact tabove_cons.mpr ⟨hk, h⟩

theorem twf_terase {t : List (Nat × α)} (k : Nat) (h : twf d t = true) : twf d (terase t k) = true := by
  induction t with
  | nil => rfl
  | cons e t ih =>
    obtain ⟨i, v⟩ := e
    have h' := twf_cons.mp h
    unfold terase
    split
    · exact h'.2.2
    · split
      · exact twf_cons.mpr ⟨h'.1, tabove_terase k h'.2.1, ih h'.2.2⟩
      · exact h

theorem twf_tins {t : List (Nat × α)} {v : α} (k : Nat) (h : twf d t = true) (hv : v ≠ d) : twf d (tins t k v) = true := by
  induction t with
  | nil => exact twf_cons.mpr ⟨hv, tabove_nil k, rfl⟩
  | cons e t ih =>
    obtain ⟨i, w⟩ := e
    have h' := twf_cons.mp h
    unfold tins
    split
    · rename_i hik
      exact twf_cons.mpr ⟨h'.1, tabove_tins v h'.2.1 hik, ih h'.2.2⟩
    · split
      · rename_i hik; subst hik
        exact twf_cons.mpr ⟨hv, h'.2.1, h'.2.2⟩
      · rename_i h1 h2
        have hki : k < i := by omega
        exact twf_cons.mpr ⟨hv, tabove_cons.mpr ⟨hki, tabove_mono (Nat.le_of_lt hki) h'.2.1⟩, h⟩

/-- A write keeps the canonical form. -/
theorem twf_tput {t : List (Nat × α)} (k : Nat) (v : α) (h : twf d t = true) : twf d (tput d t k v) = true := by
  unfold tput; split
  · exact twf_terase k h
  · rename_i hv; exact twf_tins k h hv

theorem twf_tmod {t : List (Nat × α)} (k : Nat) (f : α → α) (h : twf d t = true) : twf d (tmod d t k f) = true := twf_tput k _ h

theorem twf_tputs {t : List (Nat × α)} (k : Nat) (vs : List α) (h : twf d t = true) : twf d (tputs d t k vs) = true := by
  induction vs generalizing t k with
  | nil => exact h
  | cons v vs ih => exact ih (k + 1) (twf_tput k v h)

theorem tget_terase_self {t : List (Nat × α)} (k : Nat) (h : twf d t = true) : tget d (terase t k) k = d := by
  induction t with
  | nil => rfl
  | cons e t ih =>
    obtain ⟨i, v⟩ := e
    have h' := twf_cons.mp h
    unfold terase
    split
    · rename_i hik; subst hik; exact tget_of_tabove h'.2.1 (Nat.le_refl i)
    · rename_i hik
      split
      · simp [tget, hik, ih h'.2.2]
      · have hki : k ≤ i := by omega
        simp [tget, hik, tget_of_tabove h'.2.1 hki]

omit [DecidableEq α] in
theorem tget_terase_ne {t : List (Nat × α)} {k j : Nat} (hj : j ≠ k) : tget d (terase t k) j = tget d t j := by
  induction t with
  | nil => rfl
  | cons e t ih =>
    obtain ⟨i, v⟩ := e
    unfold terase
    split
    · rename_i hik; subst hik; simp [tget, Ne.symm hj]
    · split
      · simp [tget, ih]
      · rfl

omit [DecidableEq α] in
theorem tget_tins_self {t : List (Nat × α)} (k : Nat) (v : α) : tget d (tins t k v) k = v := by
  induction t with
  | nil => simp [tins, tget]
  | cons e t ih =>
    obtain ⟨i, w⟩ := e
    unfold tins
    split
    · rename_i hik
      have : i ≠ k := by omega
      simp [tget, this, ih]
    · split <;> simp [tget]

omit [DecidableEq α] in
theorem tget_tins_ne {t : List (Nat × α)} {k j : Nat} (v : α) (hj : j ≠ k) : tget d (tins t k v) j = tget d t j := by
  induction t with
  | nil => simp [tins, tget, Ne.symm hj]
  | cons e t ih =>
    obtain ⟨i, w⟩ := e
    unfold tins
    split
    · simp [tget, ih]
    · split
      · rename_i hik; subst hik; simp [tget, Ne.symm hj]
      · simp [tget, Ne.symm hj]

/-- A write reads back at its key. -/
theorem tget_tput_self {t : List (Nat × α)} (k : Nat) (v : α) (h : twf d t = true) : tget d (tput d t k v) k = v := by
  unfold tput; split
  · rename_i hv; rw [hv]; exact tget_terase_self k h
  · exact tget_tins_self k v

/-- A write leaves every other key alone. -/
theorem tget_tput_ne {t : List (Nat × α)} {k j : Nat} (v : α) (hj : j ≠ k) : tget d (tput d t k v) j = tget d t j := by
  unfold tput; split
  · exact tget_terase_ne hj
  · exact tget_tins_ne v hj

theorem tget_tmod_self {t : List (Nat × α)} (k : Nat) (f : α → α) (h : twf d t = true) : tget d (tmod d t k f) k = f (tget d t k) :=
  tget_tput_self k _ h

theorem tget_tmod_ne {t : List (Nat × α)} {k j : Nat} (f : α → α) (hj : j ≠ k) : tget d (tmod d t k f) j = tget d t j := tget_tput_ne _ hj

/-- A change of a value by a function is its change to one value. -/
theorem tmod_const (t : List (Nat × α)) (k : Nat) (f : α → α) : tmod d t k f = tmod d t k fun _ => f (tget d t k) := rfl

/-- Two changes agree where they agree on the value in place. -/
theorem tmod_eq {t : List (Nat × α)} {k : Nat} {f g : α → α} (h : f (tget d t k) = g (tget d t k)) : tmod d t k f = tmod d t k g := by
  unfold tmod; rw [h]

/-- Two canonical tables that read alike are equal. -/
theorem twf_ext {t t' : List (Nat × α)} (h : twf d t = true) (h' : twf d t' = true) (he : ∀ k, tget d t k = tget d t' k) : t = t' := by
  induction t generalizing t' with
  | nil =>
    cases t' with
    | nil => rfl
    | cons e t' =>
      obtain ⟨i, v⟩ := e
      have := he i
      simp [tget] at this
      exact absurd this.symm (twf_cons.mp h').1
  | cons e t ih =>
    obtain ⟨i, v⟩ := e
    have hw := twf_cons.mp h
    cases t' with
    | nil => have := he i; simp [tget] at this; exact absurd this hw.1
    | cons e' t' =>
      obtain ⟨j, w⟩ := e'
      have hw' := twf_cons.mp h'
      have hij : i = j := by
        rcases Nat.lt_trichotomy i j with hlt | heq | hgt
        · have := he i
          have hne : j ≠ i := by omega
          simp [tget, hne, tget_of_tabove hw'.2.1 (Nat.le_of_lt hlt)] at this
          exact absurd this hw.1
        · exact heq
        · have := he j
          have hne : i ≠ j := by omega
          simp [tget, hne, tget_of_tabove hw.2.1 (Nat.le_of_lt hgt)] at this
          exact absurd this.symm hw'.1
      subst hij
      have hv : v = w := by have := he i; simpa [tget] using this
      subst hv
      have : t = t' := by
        apply ih hw.2.2 hw'.2.2
        intro k
        by_cases hk : i = k
        · subst hk
          rw [tget_of_tabove hw.2.1 (Nat.le_refl i), tget_of_tabove hw'.2.1 (Nat.le_refl i)]
        · have := he k; simpa [tget, hk] using this
      rw [this]
end

/-! ### Lists -/

@[simp] theorem lget_nil (d : α) (i : Nat) : lget d [] i = d := rfl
@[simp] theorem lget_cons_zero (d x : α) (t : List α) : lget d (x :: t) 0 = x := rfl
@[simp] theorem lget_cons_succ (d x : α) (t : List α) (n : Nat) : lget d (x :: t) (n + 1) = lget d t n := rfl

@[simp] theorem lput_length (l : List α) (i : Nat) (v : α) : (lput l i v).length = l.length := by
  induction l generalizing i with
  | nil => rfl
  | cons x l ih => cases i with
    | zero => rfl
    | succ n => simp [lput, ih]

theorem lget_lput_self (d : α) {l : List α} {i : Nat} (v : α) (h : i < l.length) : lget d (lput l i v) i = v := by
  induction l generalizing i with
  | nil => simp at h
  | cons x l ih => cases i with
    | zero => rfl
    | succ n => exact ih (by simpa using h)

theorem lget_lput_ne (d : α) {l : List α} {i j : Nat} (v : α) (h : j ≠ i) : lget d (lput l i v) j = lget d l j := by
  induction l generalizing i j with
  | nil => rfl
  | cons x l ih => cases i with
    | zero => cases j with
      | zero => exact absurd rfl h
      | succ m => rfl
    | succ n => cases j with
      | zero => rfl
      | succ m => exact ih (by omega)

end Sys2Proof
end

