-- ==== Sys2Proof/Laws/Accept.lean ====
section
/-! SUPPORT. What `receive` does with a packet that stands alone and passes every check of R40. -/
namespace Sys2Proof.Machine

theorem firstErr_none {l : List (Option Err)} (h : ∀ x ∈ l, x = none) : firstErr l = none := by
  induction l with
  | nil => rfl
  | cons x l ih =>
    have hx : x = none := h x (by simp)
    subst hx
    exact ih fun y hy => h y (by simp [hy])

theorem stepOver_none {wild : Bool} {cs : List Cmd} {f : Cmd → Option Err} (h : ∀ c ∈ cs, f c = none) : stepOver wild cs f = none := by
  unfold stepOver
  rw [List.findSome?_eq_none_iff]
  intro c hc
  rw [h c hc]; rfl

theorem taken_reserve_stream (s : State) (src src' : Src) (d : Bool) : (s.reserve src d).stream src' = s.stream src' := by
  unfold State.reserve State.onRing State.onDev State.stream
  cases src <;> simp
  split <;> rfl

/-- No stop for want of a reference is due: nothing changes. -/
theorem stopDue_none {s : State} (h : s.NotStopping) : s.stopDue = s := by
  unfold State.stopDue
  split
  · next t ht => rw [if_neg (Nat.not_le.mpr (h t ht))]
  · rfl

/-- The whole check of a packet that passes. -/
theorem check_passes {code : Nat} {sp : OpSpec} {r : Req} {o : Obj} {cs : List Cmd} {s t : State} (at' : Place)
    (hf : (packetOf code r).flagsOk sp at' = true) (ht : (packetOf code r).timed = false) (hw : at'.waited = false)
    (hs : specOf code = some sp) (h : Passes code sp r o cs s t) : s.check (packetOf code r) at' = (t, .ok { sp := sp, cmds := cs }) := by
  have hq : (packetOf code r).quiet = false := rfl
  have hc : (packetOf code r).code = code := rfl
  have hreq : (packetOf code r).req = r := rfl
  have hfirst : s.checkFirst (packetOf code r) at' = (t, .ok (sp, o.wild, cs)) := by
    unfold State.checkFirst
    rw [hc, hs]
    simp only [hf, hq, hreq, Bool.not_true, Bool.false_and, Bool.or_self, Bool.false_eq_true, if_false]
    have hl : ¬(r.params.length < (packetOf code r).extra ∨ (!sp.fits (r.params.length - (packetOf code r).extra)) = true) := by
      simp [h.length.2, Nat.not_lt.mp h.length.1]
    rw [if_neg hl, h.object.1]
    simp only [h.object.2, if_true]
    rw [← h.cmds.1]
    cases cs with
    | nil => exact absurd rfl h.cmds.2
    | cons c cs' =>
      have h1 : stepOver o.wild (c :: cs') (fun c => failIf (!sp.objOk c.obj) (err Status.eObject 0)) = none :=
        stepOver_none fun c hc => by simp [failIf, h.objects c hc]
      have h2 : stepOver o.wild (c :: cs') (fun c => sp.portErr c s) = none := stepOver_none h.port
      simp only [h1, h2, hw, Bool.false_eq_true, if_false, firstErr, h.token c rfl]
  have hmid : t.checkMid (packetOf code r) at' sp o.wild cs = (t, none) := by
    unfold State.checkMid
    rw [stepOver_none h.state]
    simp only [ht, Bool.false_and, Bool.false_eq_true, if_false, stepOver_none h.range, stepOver_none h.more, h.reg, ite_self, firstErr]
  have hbusy : t.checkBusy (packetOf code r) at' sp o.wild cs = none := by
    unfold State.checkBusy
    have hm : (r.src == .mailbox && decide (8 ≤ t.dev.mbox.places)) = false := by
      by_cases hs : r.src = .mailbox
      · have := h.mailbox hs; simp; intro _; omega
      · simp [hs]
    simp only [ht, hreq, hm, Bool.false_and, Bool.false_eq_true, if_false, stepOver_none h.busy, firstErr, failIf, Bool.not_false, Bool.and_false]
  simp only [State.check, State.checkTo12, hfirst, hmid, hbusy]

theorem stream_onStream_self {s : State} (src : Src) (f : Stream → Stream) (h : twf .reset s.dev.streams = true) :
    (s.onStream src f).stream src = f (s.stream src) := by
  unfold State.onStream State.stream
  simp only [State.onDev_dev]
  exact tget_tmod_self _ f h

theorem onStream_streams_wf {s : State} (src : Src) (f : Stream → Stream) (h : twf .reset s.dev.streams = true) :
    twf .reset (s.onStream src f).dev.streams = true := by
  unfold State.onStream
  simp only [State.onDev_dev]
  exact twf_tmod _ f h

/-- Taking a packet of a stream with no chain leaves no chain. -/
theorem takeSeq_chain {s : State} (p : Pkt) (hw : twf .reset s.dev.streams = true) (hn : (s.stream p.req.src).chain = []) :
    ((s.takeSeq p).stream p.req.src).chain = [] := by
  have h1 := stream_onStream_self p.req.src (fun t => { t with expect := p.req.seq + 1, last := some p.crc, stored := none, taken := inc32 t.taken }) hw
  unfold State.takeSeq
  by_cases hc : p.code = 0x0003
  · simp only [hc, if_true]
    rw [stream_onStream_self]
    rw [h1, hn]
    exact onStream_streams_wf _ _ hw
  · simp only [hc, if_false]
    rw [h1]; exact hn

/-- One packet alone, not TIMED, whose check passes, starts. -/
theorem process_one {s t : State} {p : Pkt} {k : Checked} (ht : p.timed = false)
    (h : s.check p (placeOf 1 0 p false) = (t, .ok k)) : s.process [p] = t.start p k := by
  have hc : s.checkChain false [p] = (t, .ok [(p, k)]) := by
    simp only [State.checkChain, List.length_singleton, State.checkAll, h, Nat.not_succ_le_self, if_false]
  simp only [State.process, hc, ht, Bool.false_eq_true, if_false, List.foldl_cons, List.foldl_nil]

/-- A packet outside any chain is processed on its own. -/
theorem joinChain_one {s : State} {p : Pkt} (hc : p.chained = false) (hn : (s.stream p.req.src).chain = []) :
    s.joinChain p = (s.onStream p.req.src fun t => { t with chain := [] }).process [p] := by
  unfold State.joinChain
  simp only [hc, hn, Bool.false_and, Bool.false_eq_true, if_false, List.nil_append]

/-- A packet with the expected SEQ joins its stream. -/
theorem accept_expected {s : State} {p : Pkt} (hq : p.quiet = false) (hs : p.req.seq = (s.stream p.req.src).expect) :
    s.accept p = ((s.takeSeq p).joinChain p).raisePoints := by
  simp only [State.accept, State.sequence, hq, hs, Bool.false_eq_true, if_false, if_true]

/-- A passed packet starts as `performed` says. -/
theorem start_performed {code : Nat} {sp : OpSpec} {r : Req} {cs : List Cmd} {t : State} (he : t.dev.st = .endpaper → (packetOf code r).isEp = true) :
    (t.start (packetOf code r) { sp := sp, cmds := cs }).raisePoints = performed code sp r cs t := by
  have hend : (t.dev.st == .endpaper && !(packetOf code r).isEp) = false := by
    by_cases h : t.dev.st = .endpaper
    · simp [he h]
    · simp [h]
  unfold performed State.start
  simp only [hend, Bool.false_eq_true, if_false, Checked.keys, OpSpec.allKeys]
  split <;> rfl

/-- A packet that arrives alone and passes has its effect. -/
theorem receive_passes {code : Nat} {sp : OpSpec} {r : Req} {o : Obj} {cs : List Cmd} {s t : State} (hs : specOf code = some sp) (ha : Arrives code sp r s)
    (hp : Passes code sp r o cs (s.taken (packetOf code r)) t) : receive code r s = .next (performed code sp r cs t) := by
  have hpk : ({ code := code, req := r } : Pkt) = packetOf code r := rfl
  have hrs : (packetOf code r).req.src = r.src := rfl
  have hrq : (packetOf code r).req = r := rfl
  have hq : (packetOf code r).quiet = false := rfl
  have hst : ∀ src, (s.reserve r.src false).stream src = s.stream src := fun src => taken_reserve_stream s r.src src false
  have hpause : (s.reserve r.src false).pausedFor (packetOf code r) = false := by
    have := ha.running
    unfold State.reserve
    cases hsrc : r.src <;> simpa [State.pausedFor, hsrc, State.onRing] using this
  have hwf : twf .reset (s.reserve r.src false).dev.streams = true := by
    have := ha.streams
    unfold State.reserve
    cases hsrc : r.src <;> simpa [State.onRing] using this
  have hchain : (((s.reserve r.src false).takeSeq (packetOf code r)).stream r.src).chain = [] :=
    takeSeq_chain (packetOf code r) hwf (by rw [hrs, hst]; exact ha.noChain)
  have hflags : (packetOf code r).flagsOk sp (placeOf 1 0 (packetOf code r) false) = true := by
    have h1 := ha.fastPlain
    simp [Pkt.flagsOk, placeOf, ha.plain.1, ha.plain.2, ha.fast]
    cases hsf : sp.fast
    · exact .inl rfl
    · rw [hsf] at h1; exact .inr (by simpa using h1)
  have hstop : (s.reserve r.src false).stopDue = s.reserve r.src false := by
    refine stopDue_none ?_
    unfold State.NotStopping
    have := ha.notStopping
    unfold State.NotStopping at this
    unfold State.reserve
    cases hsrc : r.src <;> simpa [State.onRing] using this
  unfold receive State.receive State.takeUp
  rw [if_pos ha.reaches, hpk]
  simp only [hstop]
  rw [hpause]
  have h1 := accept_expected (s := s.reserve r.src false) (p := packetOf code r) hq (by rw [hrs, hrq, hst]; exact ha.seq)
  have h2 := joinChain_one (s := (s.reserve r.src false).takeSeq (packetOf code r)) (p := packetOf code r) ha.plain.2 hchain
  have h3 : (((s.reserve r.src false).takeSeq (packetOf code r)).onStream (packetOf code r).req.src fun t => { t with chain := [] }) =
      s.taken (packetOf code r) := rfl
  have h4 := process_one ha.plain.1 (check_passes (placeOf 1 0 (packetOf code r) false) hflags ha.plain.1 rfl hs hp)
  rw [h3] at h2
  simp only [Bool.not_false, if_true]
  rw [h1, h2, h4, start_performed hp.endpaper]

end Sys2Proof.Machine
end

