-- ==== Sys2Proof/Laws/Capture.lean ====
section
/-! SUPPORT. What a row of source samples does to a capture unit, and what a unit that is armed again takes up. -/
namespace Sys2Proof.Machine

/-- A unit in another state than the row's takes nothing of it. -/
theorem capTake_other {s : State} {n k : Nat} {st : CapSt} {xs : List AdcIn} (h : (s.capU n).st ≠ st) : State.capTake n st xs k s = s := by
  cases k with
  | zero => rfl
  | succ k => unfold State.capTake; cases (s.capU n).cfg <;> simp [h]

/-- A row that brings a unit no sample leaves the state. -/
theorem capRow_none {s : State} {n : Nat} {st : CapSt} {xs : List AdcIn} {c : CapCfg} (hc : (s.capU n).cfg = some c) (h : c.reach xs (s.capU n).from' = 0) :
    s.capRow n st xs = s := by
  simp [State.capRow, hc, h, State.capTake]

/-- The first sample that a row brings is formed and judged at its time, and the rest of the row goes on from there. -/
theorem capRow_first {s : State} {n k : Nat} {st : CapSt} {xs : List AdcIn} {c : CapCfg} (hc : (s.capU n).cfg = some c) (hs : (s.capU n).st = st)
    (hk : c.skind ≠ 2) (h : c.reach xs (s.capU n).from' = k + 1) :
    s.capRow n st xs =
      (let t := (s.capU n).from' * c.period
       let s1 := s.advanceTo t
       State.capTake n st xs k ((if c.skind = 1 then s1.countOver xs c.line (s.capU n).from' 1 else s1).capSample n false (s1.capForm c xs (s.capU n).from' t))) := by
  simp [State.capRow, hc, h, State.capTake, hs, hk]

/-- Without a trigger that waits for it, a unit that is armed again changes nothing but its state and its merge count. -/
theorem capRearm_plain {s : State} {n : Nat} (h : (s.capU n).trigPend = none) : s.capRearm n = s.onCapU n fun u => { u with st := .armed, hops := 0 } := by
  simp [State.capRearm, h]

end Sys2Proof.Machine
end

