-- ==== Sys2Proof/Laws/Cores.lean ====
section
/-! SUPPORT. What a row of a feedback core does when its instruction is the core's next one: the shared law of every instruction row. -/
namespace Sys2Proof.Machine

/-- A row whose instruction stands at the PC of a running core of a CONTROL Quire issues it in the issue state. -/
theorem coreRow_issues {s s2 : State} {q k opc : Nat} {w : CoreWord} {run : CoreWord → State → Option State} (h : Issues s q k w)
    (ho : w.opc = opc) (hr : run w (issueState s q k opc) = some s2) : s.coreRow q k opc run = s2.corePast q k := by
  unfold State.coreRow
  have h1 : ((s.core q k).st != .running || s.pers q != .control) = false := by rw [h.running, h.control]; rfl
  simp only [h1, Bool.false_eq_true, if_false, h.word]
  rw [if_neg (by rw [ho]; exact fun e => e rfl)]
  show (match run w (issueState s q k opc) with | none => s | some s2 => s2.corePast q k) = _
  rw [hr]

/-- An instruction that changes its core alone leaves it as `g` says, where `g` is its change and the cycle after it. -/
theorem coreDo_issues {s : State} {q k opc : Nat} {w : CoreWord} {f : CoreWord → FbCore → Option FbCore} {g : FbCore → FbCore}
    (h : Issues s q k w) (ho : w.opc = opc) (hf : ∀ c, (f w c).map (fun x => x.after 1) = some (g c)) :
    s.coreDo q k opc f = coreStep s q k opc g := by
  have hr : ((f w ((issueState s q k opc).core q k)).map fun c => (issueState s q k opc).onCore q k fun _ => c.after 1) =
      some ((issueState s q k opc).onCore q k fun _ => g ((issueState s q k opc).core q k)) := by
    have e := hf ((issueState s q k opc).core q k)
    cases hx : f w ((issueState s q k opc).core q k) with
    | none => rw [hx] at e; cases e
    | some x =>
      rw [hx] at e
      simp only [Option.map_some, Option.some.injEq] at e ⊢
      rw [e]
  unfold State.coreDo
  rw [coreRow_issues h ho hr, coreStep]

/-- Two changes of a Quire's feedback part agree where they agree on the one in place. -/
theorem onFb_eq {s : State} {q : Nat} {f g : FbQuire → FbQuire} (h : f (s.fbq q) = g (s.fbq q)) : s.onFb q f = s.onFb q g := by
  unfold State.onFb
  rw [tmod_eq h]

/-- A change of a core by a function is its change to one core. -/
theorem onCore_const (s : State) (q k : Nat) (g : FbCore → FbCore) : s.onCore q k g = s.onCore q k fun _ => g (s.core q k) := by
  unfold State.onCore
  apply onFb_eq
  exact congrArg (fun c => { s.fbq q with cores := c }) (tmod_const _ _ _)

/-- A row that leaves its core as a function makes it. -/
theorem coreRow_step {s : State} {q k opc : Nat} {w : CoreWord} {run : CoreWord → State → Option State} {g : FbCore → FbCore}
    (h : Issues s q k w) (ho : w.opc = opc) (hr : run w (issueState s q k opc) = some ((issueState s q k opc).onCore q k g)) :
    s.coreRow q k opc run = coreStep s q k opc g := by
  rw [coreRow_issues h ho hr, onCore_const, coreStep]

end Sys2Proof.Machine
end

