-- ==== Sys2Proof/Laws/Folios.lean ====
section
/-! SUPPORT. What a row of a step word does when its word is the Folio's next one: the shared law of every word row. -/
namespace Sys2Proof.Machine

/-- A row whose word is the next one of a running Folio acts, the low watermark is judged and the change of its flags is dated. -/
theorem seqRow_runs {s : State} {q f : Nat} {x : StepWord} {k : StepWord → Option WordAct} {a : WordAct} (h : Runs s q f x)
    (hk : k x = some a) : s.seqRow q f k = s.wordDone q f x (a.run s) := by
  obtain ⟨hr, hg, hw⟩ := h
  unfold State.seqRow
  obtain ⟨w, hw1, hw2⟩ := Option.bind_eq_some_iff.mp hw
  simp [hr, hg, hw1, hw2, hk, Folio.busy]

/-- A row whose word is the next one of a LATE Folio that is still behind passes it over. -/
theorem seqRow_behind {s : State} {q f : Nat} {x : StepWord} {k : StepWord → Option WordAct} {a : WordAct} (h : Behind s q f x)
    (hk : k x = some a) : s.seqRow q f k = s.wordDone q f x (a.late s (s.lateReach (s.folio q f))) := by
  obtain ⟨hr, hg, hw, hb⟩ := h
  unfold State.seqRow
  obtain ⟨w, hw1, hw2⟩ := Option.bind_eq_some_iff.mp hw
  simp [hr, hg, hw1, hw2, hk, hb, Folio.busy]

/-- A timed word of a running Folio that neither waits nor is late, without STEPWAIT, starts its step. -/
theorem timedWord_onTime {s : State} {q f : Nat} (hr : (s.folio q f).st = .running) (h : OnTime s q f) (hw : (s.folio q f).cfg.stepwait = false)
    (d fi : Nat) (a b : GenDo) (m : Bool) (acq : Option (Nat × Nat)) : s.timedWord q f d fi a b m acq = s.startStep q f d fi a b m acq := by
  obtain ⟨h1, h2, h3⟩ := h
  simp [State.timedWord, hr, h1, h2, Nat.not_lt.2 h3, hw]

end Sys2Proof.Machine
end

