-- ==== Sys2Proof/Laws/Memory.lean ====
section
/-! SUPPORT. Laws of the DRAM regions (R540): every operation on them keeps the memory's canonical form, a write reads back, and a write leaves
every other byte alone. -/
namespace Sys2Proof.Machine

/-- Nothing is listed at reset. -/
theorem reset_memory_wf : Memory.wf State.reset.svc.dram = true := rfl

/-- What a byte write can do: nothing, or one entry of the memory. -/
theorem memPut_cases (s : State) (h off : Nat) (b : Byte) :
    s.memPut h off b = s ∨
    (∃ r, s.region h = some r ∧ off < r.size ∧ pageRetired r off = false ∧
      s.memPut h off b = s.onSvc fun v => { v with dram := tput 0 v.dram (memKey h off) b }) := by
  unfold State.memPut
  cases hr : s.region h with
  | none => exact .inl rfl
  | some r =>
    by_cases hc : (decide (off < r.size) && !pageRetired r off) = true
    · refine .inr ⟨r, rfl, ?_, ?_, by simp [hc]⟩
      · simp at hc; exact hc.1
      · simp at hc; exact hc.2
    · exact .inl (by simp [hc])

theorem memPut_wf {s : State} (h off : Nat) (b : Byte) (hw : Memory.wf s.svc.dram = true) : Memory.wf (s.memPut h off b).svc.dram = true := by
  rcases memPut_cases s h off b with he | ⟨r, -, -, -, he⟩ <;> rw [he]
  · exact hw
  · exact twf_tput _ _ hw

/-- Writing bytes to a region keeps the canonical form. -/
theorem memWrite_wf {s : State} (h off : Nat) (bs : List Byte) (hw : Memory.wf s.svc.dram = true) :
    Memory.wf (s.memWrite h off bs).svc.dram = true := by
  induction bs generalizing s off with
  | nil => exact hw
  | cons b bs ih => exact ih (off + 1) (memPut_wf h off b hw)

theorem tabove_filter {α : Type} {p : Nat × α → Bool} {b : Nat} {t : List (Nat × α)} (h : tabove b t) : tabove b (t.filter p) :=
  fun e he => h e (List.mem_filter.mp he).1

/-- Dropping entries (a region that is freed or handed out) keeps the canonical form. -/
theorem memFilter_wf {m : List Host.Cell} (p : Host.Cell → Bool) (h : Memory.wf m = true) : Memory.wf (m.filter p) = true := by
  induction m with
  | nil => rfl
  | cons e m ih =>
    obtain ⟨i, v⟩ := e
    have h' := twf_cons.mp h
    rw [List.filter_cons]
    split
    · exact twf_cons.mpr ⟨h'.1, tabove_filter h'.2.1, ih h'.2.2⟩
    · exact ih h'.2.2

/-- A write to memory changes no part of the state but the memory. -/
theorem memPut_frame (s : State) (h off : Nat) (b : Byte) :
    ∃ m, s.memPut h off b = s.onSvc fun v => { v with dram := m } := by
  rcases memPut_cases s h off b with he | ⟨r, -, -, -, he⟩
  · exact ⟨s.svc.dram, he⟩
  · exact ⟨_, he⟩

theorem memWrite_frame (s : State) (h off : Nat) (bs : List Byte) :
    ∃ m, s.memWrite h off bs = s.onSvc fun v => { v with dram := m } := by
  induction bs generalizing s off with
  | nil => exact ⟨s.svc.dram, rfl⟩
  | cons b bs ih =>
    obtain ⟨m, hm⟩ := memPut_frame s h off b
    obtain ⟨m', hm'⟩ := ih (s.memPut h off b) (off + 1)
    exact ⟨m', by simp only [State.memWrite]; rw [hm', hm]; rfl⟩

@[simp] theorem memPut_region (s : State) (h off : Nat) (b : Byte) (k : Nat) : (s.memPut h off b).region k = s.region k := by
  obtain ⟨m, hm⟩ := memPut_frame s h off b
  rw [hm]; rfl

@[simp] theorem memWrite_region (s : State) (h off : Nat) (bs : List Byte) (k : Nat) : (s.memWrite h off bs).region k = s.region k := by
  obtain ⟨m, hm⟩ := memWrite_frame s h off bs
  rw [hm]; rfl

/-- A byte written to a place that a region holds reads back. -/
theorem memByte_memPut_self {s : State} {h off : Nat} {r : Region} (b : Byte) (hw : Memory.wf s.svc.dram = true) (hr : s.region h = some r)
    (ho : off < r.size) (hp : pageRetired r off = false) : (s.memPut h off b).memByte h off = b := by
  have hr' : (s.memPut h off b).region h = some r := by rw [memPut_region]; exact hr
  have hd : (s.memPut h off b).svc.dram = tput 0 s.svc.dram (memKey h off) b := by
    unfold State.memPut; rw [hr]; simp [ho, hp, State.onSvc]
  have hk : tget 0 (tput 0 s.svc.dram (memKey h off) b) (memKey h off) = b := tget_tput_self _ _ hw
  unfold State.memByte; rw [hr', hd]; simp only [ho, hp, decide_true, Bool.not_false, Bool.and_self, if_true]; exact hk

/-- A byte of a region and one of another place have different keys. -/
theorem memKey_ne {h off k o : Nat} (ho : off < 2 ^ 40) (ho' : o < 2 ^ 40) (hne : ¬(k = h ∧ o = off)) : memKey k o ≠ memKey h off := by
  unfold memKey; intro he; apply hne; omega

/-- A write leaves every byte elsewhere alone. -/
theorem memByte_memPut_ne {s : State} {h off k o : Nat} (b : Byte) (ho : off < 2 ^ 40) (ho' : o < 2 ^ 40) (hne : ¬(k = h ∧ o = off)) :
    (s.memPut h off b).memByte k o = s.memByte k o := by
  rcases memPut_cases s h off b with he | ⟨r', h1, -, -, he⟩ <;> rw [he]
  unfold State.memByte
  have : (s.onSvc fun v => { v with dram := tput 0 v.dram (memKey h off) b }).region k = s.region k := rfl
  rw [this]
  cases s.region k with
  | none => rfl
  | some r =>
    have hk : tget 0 (tput 0 s.svc.dram (memKey h off) b) (memKey k o) = tget 0 s.svc.dram (memKey k o) := tget_tput_ne b (memKey_ne ho ho' hne)
    simp only [State.onSvc, hk]

end Sys2Proof.Machine
end

