-- ==== Sys2Proof/Laws/PerInstr.lean ====
section
/-! SUPPORT. One lemma per constructor of the family Packet: a well-formed packet row has an opcode of one of the 18 categories (R71) and at most
4,084 bytes in whole words (R35); every other row has no packet. -/
namespace Sys2Proof.Laws

/-- What the family says of a command. -/
def Packet.Statement (i : Instr) : Prop :=
  i.wf = true → ∀ c r, i.packet? = some (c, r) → c / 256 < 18 ∧ (20 + r.params.length) % 4 = 0 ∧ 20 + r.params.length ≤ 4084 ∧ r.flags.toNat < 32

theorem Packet.of_req {i : Instr} {c : Nat} {r : Req} (h : i.packet? = some (c, r)) (hw : i.wf = true → r.ok = true) (hc : c / 256 < 18) :
    Packet.Statement i := by
  intro hi c' r' h'
  rw [h] at h'
  obtain ⟨rfl, rfl⟩ : c = c' ∧ r = r' := by simpa using h'
  have := hw hi
  unfold Req.ok at this
  simp only [Bool.and_eq_true, decide_eq_true_eq, beq_iff_eq] at this
  refine ⟨hc, ?_, ?_, this.1.1⟩ <;> omega

theorem Packet.devNop (r : Req) : Packet.Statement (.devNop r) := Packet.of_req rfl (fun h => h) (by decide)
theorem Packet.devInfo (r : Req) : Packet.Statement (.devInfo r) := Packet.of_req rfl (fun h => h) (by decide)
theorem Packet.devStatus (r : Req) : Packet.Statement (.devStatus r) := Packet.of_req rfl (fun h => h) (by decide)
theorem Packet.sessionOpen (r : Req) : Packet.Statement (.sessionOpen r) := Packet.of_req rfl (fun h => h) (by decide)
theorem Packet.sessionClose (r : Req) : Packet.Statement (.sessionClose r) := Packet.of_req rfl (fun h => h) (by decide)
theorem Packet.devDeadlineSet (r : Req) : Packet.Statement (.devDeadlineSet r) := Packet.of_req rfl (fun h => h) (by decide)
theorem Packet.devDeadlineGet (r : Req) : Packet.Statement (.devDeadlineGet r) := Packet.of_req rfl (fun h => h) (by decide)
theorem Packet.devRestart (r : Req) : Packet.Statement (.devRestart r) := Packet.of_req rfl (fun h => h) (by decide)
theorem Packet.devEndpaperEnter (r : Req) : Packet.Statement (.devEndpaperEnter r) := Packet.of_req rfl (fun h => h) (by decide)
theorem Packet.devAddrSet (r : Req) : Packet.Statement (.devAddrSet r) := Packet.of_req rfl (fun h => h) (by decide)
theorem Packet.cmdAbort (r : Req) : Packet.Statement (.cmdAbort r) := Packet.of_req rfl (fun h => h) (by decide)
theorem Packet.portStatsGet (r : Req) : Packet.Statement (.portStatsGet r) := Packet.of_req rfl (fun h => h) (by decide)
theorem Packet.imageInfo (r : Req) : Packet.Statement (.imageInfo r) := Packet.of_req rfl (fun h => h) (by decide)
theorem Packet.imageWriteBegin (r : Req) : Packet.Statement (.imageWriteBegin r) := Packet.of_req rfl (fun h => h) (by decide)
theorem Packet.imageWriteData (r : Req) : Packet.Statement (.imageWriteData r) := Packet.of_req rfl (fun h => h) (by decide)
theorem Packet.imageCommit (r : Req) : Packet.Statement (.imageCommit r) := Packet.of_req rfl (fun h => h) (by decide)
theorem Packet.imageErase (r : Req) : Packet.Statement (.imageErase r) := Packet.of_req rfl (fun h => h) (by decide)
theorem Packet.configApply (r : Req) : Packet.Statement (.configApply r) := Packet.of_req rfl (fun h => h) (by decide)
theorem Packet.persSet (r : Req) : Packet.Statement (.persSet r) := Packet.of_req rfl (fun h => h) (by decide)
theorem Packet.persGet (r : Req) : Packet.Statement (.persGet r) := Packet.of_req rfl (fun h => h) (by decide)
theorem Packet.quireRelease (r : Req) : Packet.Statement (.quireRelease r) := Packet.of_req rfl (fun h => h) (by decide)
theorem Packet.persChangeComplete (q : Fin 16) : Packet.Statement (.persChangeComplete q) := fun _ _ _ h => nomatch h
theorem Packet.deadlineExpiry (src : Src) (tag : BitVec 16) (seq : BitVec 32) : Packet.Statement (.deadlineExpiry src tag seq) := fun _ _ _ h => nomatch h
theorem Packet.deferralDeadlineExpiry (src : Src) (tag : BitVec 16) (seq : BitVec 32) : Packet.Statement (.deferralDeadlineExpiry src tag seq) := fun _ _ _ h => nomatch h
theorem Packet.chainTimeout (src : Src) : Packet.Statement (.chainTimeout src) := fun _ _ _ h => nomatch h
theorem Packet.timedExecute : Packet.Statement (.timedExecute) := fun _ _ _ h => nomatch h
theorem Packet.sqTail (n : Fin 8) (value : BitVec 32) (entries : List (Option (List Byte))) : Packet.Statement (.sqTail n value entries) := fun _ _ _ h => nomatch h
theorem Packet.cqHead (n : Fin 8) (value : BitVec 32) (entries : List (Option (List Byte))) : Packet.Statement (.cqHead n value entries) := fun _ _ _ h => nomatch h
theorem Packet.ringCfg (n : Fin 8) (value : BitVec 32) : Packet.Statement (.ringCfg n value) := fun _ _ _ h => nomatch h
theorem Packet.post : Packet.Statement (.post) := fun _ _ _ h => nomatch h
theorem Packet.readyClear : Packet.Statement (.readyClear) := fun _ _ _ h => nomatch h
theorem Packet.winCtl (w : WinWrite) : Packet.Statement (.winCtl w) := fun _ _ _ h => nomatch h
theorem Packet.bar2Access (off : Nat) (acc : MemAccess) : Packet.Statement (.bar2Access off acc) := fun _ _ _ h => nomatch h
theorem Packet.dmaGo (n : Fin 16) (ctl : BitVec 32) : Packet.Statement (.dmaGo n ctl) := fun _ _ _ h => nomatch h
theorem Packet.dmaStop (n : Fin 16) (ctl : BitVec 32) (data : List Byte) : Packet.Statement (.dmaStop n ctl data) := fun _ _ _ h => nomatch h
theorem Packet.dmaPassComplete (n : Fin 16) (data : List Byte) (hostOk : Bool) : Packet.Statement (.dmaPassComplete n data hostOk) := fun _ _ _ h => nomatch h
theorem Packet.regWrite (off : Nat) (data : List Byte) : Packet.Statement (.regWrite off data) := fun _ _ _ h => nomatch h
theorem Packet.blockWrite (data : List Byte) (pecOk : Bool) : Packet.Statement (.blockWrite data pecOk) := fun _ _ _ h => nomatch h
theorem Packet.blockRead : Packet.Statement (.blockRead) := fun _ _ _ h => nomatch h
theorem Packet.readByte : Packet.Statement (.readByte) := fun _ _ _ h => nomatch h
theorem Packet.alertResponse : Packet.Statement (.alertResponse) := fun _ _ _ h => nomatch h
theorem Packet.assemblyTimeout : Packet.Statement (.assemblyTimeout) := fun _ _ _ h => nomatch h
theorem Packet.synLinesSet (r : Req) : Packet.Statement (.synLinesSet r) := Packet.of_req rfl (fun h => h) (by decide)
theorem Packet.synLinesGet (r : Req) : Packet.Statement (.synLinesGet r) := Packet.of_req rfl (fun h => h) (by decide)
theorem Packet.ctxSet (r : Req) : Packet.Statement (.ctxSet r) := Packet.of_req rfl (fun h => h) (by decide)
theorem Packet.ctxGet (r : Req) : Packet.Statement (.ctxGet r) := Packet.of_req rfl (fun h => h) (by decide)
theorem Packet.ctxPhaseShift (r : Req) : Packet.Statement (.ctxPhaseShift r) := Packet.of_req rfl (fun h => h) (by decide)
theorem Packet.envWrite (r : Req) : Packet.Statement (.envWrite r) := Packet.of_req rfl (fun h => h) (by decide)
theorem Packet.envRead (r : Req) : Packet.Statement (.envRead r) := Packet.of_req rfl (fun h => h) (by decide)
theorem Packet.paramWrite (r : Req) : Packet.Statement (.paramWrite r) := Packet.of_req rfl (fun h => h) (by decide)
theorem Packet.paramRead (r : Req) : Packet.Statement (.paramRead r) := Packet.of_req rfl (fun h => h) (by decide)
theorem Packet.seqLoad (r : Req) : Packet.Statement (.seqLoad r) := Packet.of_req rfl (fun h => h) (by decide)
theorem Packet.seqRead (r : Req) : Packet.Statement (.seqRead r) := Packet.of_req rfl (fun h => h) (by decide)
theorem Packet.seqConfig (r : Req) : Packet.Statement (.seqConfig r) := Packet.of_req rfl (fun h => h) (by decide)
theorem Packet.seqRingSet (r : Req) : Packet.Statement (.seqRingSet r) := Packet.of_req rfl (fun h => h) (by decide)
theorem Packet.seqArm (r : Req) : Packet.Statement (.seqArm r) := Packet.of_req rfl (fun h => h) (by decide)
theorem Packet.seqGo (r : Req) : Packet.Statement (.seqGo r) := Packet.of_req rfl (fun h => h) (by decide)
theorem Packet.seqStop (r : Req) : Packet.Statement (.seqStop r) := Packet.of_req rfl (fun h => h) (by decide)
theorem Packet.seqStatus (r : Req) : Packet.Statement (.seqStatus r) := Packet.of_req rfl (fun h => h) (by decide)
theorem Packet.folioRegSet (r : Req) : Packet.Statement (.folioRegSet r) := Packet.of_req rfl (fun h => h) (by decide)
theorem Packet.stepHalt (q : Fin 16) (f : Fin 32) : Packet.Statement (.stepHalt q f) := fun _ _ _ h => nomatch h
theorem Packet.stepPlay (q : Fin 16) (f : Fin 32) : Packet.Statement (.stepPlay q f) := fun _ _ _ h => nomatch h
theorem Packet.stepHold (q : Fin 16) (f : Fin 32) : Packet.Statement (.stepHold q f) := fun _ _ _ h => nomatch h
theorem Packet.stepAcquire (q : Fin 16) (f : Fin 32) : Packet.Statement (.stepAcquire q f) := fun _ _ _ h => nomatch h
theorem Packet.stepWaitUntil (q : Fin 16) (f : Fin 32) : Packet.Statement (.stepWaitUntil q f) := fun _ _ _ h => nomatch h
theorem Packet.stepWaitEvent (q : Fin 16) (f : Fin 32) : Packet.Statement (.stepWaitEvent q f) := fun _ _ _ h => nomatch h
theorem Packet.stepBranch (q : Fin 16) (f : Fin 32) : Packet.Statement (.stepBranch q f) := fun _ _ _ h => nomatch h
theorem Packet.stepJump (q : Fin 16) (f : Fin 32) : Packet.Statement (.stepJump q f) := fun _ _ _ h => nomatch h
theorem Packet.stepRepeatBegin (q : Fin 16) (f : Fin 32) : Packet.Statement (.stepRepeatBegin q f) := fun _ _ _ h => nomatch h
theorem Packet.stepRepeatEnd (q : Fin 16) (f : Fin 32) : Packet.Statement (.stepRepeatEnd q f) := fun _ _ _ h => nomatch h
theorem Packet.stepSetFrame (q : Fin 16) (f : Fin 32) : Packet.Statement (.stepSetFrame q f) := fun _ _ _ h => nomatch h
theorem Packet.stepShiftPhase (q : Fin 16) (f : Fin 32) : Packet.Statement (.stepShiftPhase q f) := fun _ _ _ h => nomatch h
theorem Packet.stepEmitEvent (q : Fin 16) (f : Fin 32) : Packet.Statement (.stepEmitEvent q f) := fun _ _ _ h => nomatch h
theorem Packet.waitUntilEnd (q : Fin 16) (f : Fin 32) : Packet.Statement (.waitUntilEnd q f) := fun _ _ _ h => nomatch h
theorem Packet.waitEventTimeout (q : Fin 16) (f : Fin 32) : Packet.Statement (.waitEventTimeout q f) := fun _ _ _ h => nomatch h
theorem Packet.trigTimeout (q : Fin 16) (f : Fin 32) : Packet.Statement (.trigTimeout q f) := fun _ _ _ h => nomatch h
theorem Packet.folioLate (q : Fin 16) (f : Fin 32) : Packet.Statement (.folioLate q f) := fun _ _ _ h => nomatch h
theorem Packet.fastForwardResume (q : Fin 16) (f : Fin 32) : Packet.Statement (.fastForwardResume q f) := fun _ _ _ h => nomatch h
theorem Packet.refillFetch (q : Fin 16) (f : Fin 32) : Packet.Statement (.refillFetch q f) := fun _ _ _ h => nomatch h
theorem Packet.ringWrap (q : Fin 16) (f : Fin 32) : Packet.Statement (.ringWrap q f) := fun _ _ _ h => nomatch h
theorem Packet.sequenceBoundary (q : Fin 16) : Packet.Statement (.sequenceBoundary q) := fun _ _ _ h => nomatch h
theorem Packet.roRouteSet (r : Req) : Packet.Statement (.roRouteSet r) := Packet.of_req rfl (fun h => h) (by decide)
theorem Packet.roRouteGet (r : Req) : Packet.Statement (.roRouteGet r) := Packet.of_req rfl (fun h => h) (by decide)
theorem Packet.rsetSet (r : Req) : Packet.Statement (.rsetSet r) := Packet.of_req rfl (fun h => h) (by decide)
theorem Packet.rsetGet (r : Req) : Packet.Statement (.rsetGet r) := Packet.of_req rfl (fun h => h) (by decide)
theorem Packet.discSet (r : Req) : Packet.Statement (.discSet r) := Packet.of_req rfl (fun h => h) (by decide)
theorem Packet.discGet (r : Req) : Packet.Statement (.discGet r) := Packet.of_req rfl (fun h => h) (by decide)
theorem Packet.kernelWrite (r : Req) : Packet.Statement (.kernelWrite r) := Packet.of_req rfl (fun h => h) (by decide)
theorem Packet.kernelRead (r : Req) : Packet.Statement (.kernelRead r) := Packet.of_req rfl (fun h => h) (by decide)
theorem Packet.roStreamSet (r : Req) : Packet.Statement (.roStreamSet r) := Packet.of_req rfl (fun h => h) (by decide)
theorem Packet.roStatus (r : Req) : Packet.Statement (.roStatus r) := Packet.of_req rfl (fun h => h) (by decide)
theorem Packet.weaveSet (r : Req) : Packet.Statement (.weaveSet r) := Packet.of_req rfl (fun h => h) (by decide)
theorem Packet.weaveGet (r : Req) : Packet.Statement (.weaveGet r) := Packet.of_req rfl (fun h => h) (by decide)
theorem Packet.covarRun (r : Req) : Packet.Statement (.covarRun r) := Packet.of_req rfl (fun h => h) (by decide)
theorem Packet.covarRead (r : Req) : Packet.Statement (.covarRead r) := Packet.of_req rfl (fun h => h) (by decide)
theorem Packet.covarDone (q : Fin 16) (x : List AdcIn) : Packet.Statement (.covarDone q x) := fun _ _ _ h => nomatch h
theorem Packet.windowOpen (q : Fin 16) (f : Fin 32) : Packet.Statement (.windowOpen q f) := fun _ _ _ h => nomatch h
theorem Packet.windowEnd (q : Fin 16) (f : Fin 32) (x : List AdcIn) : Packet.Statement (.windowEnd q f x) := fun _ _ _ h => nomatch h
theorem Packet.fbLoad (r : Req) : Packet.Statement (.fbLoad r) := Packet.of_req rfl (fun h => h) (by decide)
theorem Packet.fbRead (r : Req) : Packet.Statement (.fbRead r) := Packet.of_req rfl (fun h => h) (by decide)
theorem Packet.fbMemWrite (r : Req) : Packet.Statement (.fbMemWrite r) := Packet.of_req rfl (fun h => h) (by decide)
theorem Packet.fbMemRead (r : Req) : Packet.Statement (.fbMemRead r) := Packet.of_req rfl (fun h => h) (by decide)
theorem Packet.fbConfig (r : Req) : Packet.Statement (.fbConfig r) := Packet.of_req rfl (fun h => h) (by decide)
theorem Packet.fbRouteSet (r : Req) : Packet.Statement (.fbRouteSet r) := Packet.of_req rfl (fun h => h) (by decide)
theorem Packet.fbRouteGet (r : Req) : Packet.Statement (.fbRouteGet r) := Packet.of_req rfl (fun h => h) (by decide)
theorem Packet.fbFlagOwnerSet (r : Req) : Packet.Statement (.fbFlagOwnerSet r) := Packet.of_req rfl (fun h => h) (by decide)
theorem Packet.fbFlagSet (r : Req) : Packet.Statement (.fbFlagSet r) := Packet.of_req rfl (fun h => h) (by decide)
theorem Packet.fbFlagGet (r : Req) : Packet.Statement (.fbFlagGet r) := Packet.of_req rfl (fun h => h) (by decide)
theorem Packet.fbStart (r : Req) : Packet.Statement (.fbStart r) := Packet.of_req rfl (fun h => h) (by decide)
theorem Packet.fbStop (r : Req) : Packet.Statement (.fbStop r) := Packet.of_req rfl (fun h => h) (by decide)
theorem Packet.fbSwap (r : Req) : Packet.Statement (.fbSwap r) := Packet.of_req rfl (fun h => h) (by decide)
theorem Packet.fbStatus (r : Req) : Packet.Statement (.fbStatus r) := Packet.of_req rfl (fun h => h) (by decide)
theorem Packet.coreNop (q : Fin 16) (k : Fin 4) : Packet.Statement (.coreNop q k) := fun _ _ _ h => nomatch h
theorem Packet.corePar (q : Fin 16) (k : Fin 4) : Packet.Statement (.corePar q k) := fun _ _ _ h => nomatch h
theorem Packet.coreMpy (q : Fin 16) (k : Fin 4) : Packet.Statement (.coreMpy q k) := fun _ _ _ h => nomatch h
theorem Packet.coreMac (q : Fin 16) (k : Fin 4) : Packet.Statement (.coreMac q k) := fun _ _ _ h => nomatch h
theorem Packet.coreMsu (q : Fin 16) (k : Fin 4) : Packet.Statement (.coreMsu q k) := fun _ _ _ h => nomatch h
theorem Packet.coreAdd (q : Fin 16) (k : Fin 4) : Packet.Statement (.coreAdd q k) := fun _ _ _ h => nomatch h
theorem Packet.coreSub (q : Fin 16) (k : Fin 4) : Packet.Statement (.coreSub q k) := fun _ _ _ h => nomatch h
theorem Packet.coreAnd (q : Fin 16) (k : Fin 4) : Packet.Statement (.coreAnd q k) := fun _ _ _ h => nomatch h
theorem Packet.coreOr (q : Fin 16) (k : Fin 4) : Packet.Statement (.coreOr q k) := fun _ _ _ h => nomatch h
theorem Packet.coreXor (q : Fin 16) (k : Fin 4) : Packet.Statement (.coreXor q k) := fun _ _ _ h => nomatch h
theorem Packet.coreShl (q : Fin 16) (k : Fin 4) : Packet.Statement (.coreShl q k) := fun _ _ _ h => nomatch h
theorem Packet.coreAsr (q : Fin 16) (k : Fin 4) : Packet.Statement (.coreAsr q k) := fun _ _ _ h => nomatch h
theorem Packet.coreLsr (q : Fin 16) (k : Fin 4) : Packet.Statement (.coreLsr q k) := fun _ _ _ h => nomatch h
theorem Packet.coreCmp (q : Fin 16) (k : Fin 4) : Packet.Statement (.coreCmp q k) := fun _ _ _ h => nomatch h
theorem Packet.coreMov (q : Fin 16) (k : Fin 4) : Packet.Statement (.coreMov q k) := fun _ _ _ h => nomatch h
theorem Packet.coreMin (q : Fin 16) (k : Fin 4) : Packet.Statement (.coreMin q k) := fun _ _ _ h => nomatch h
theorem Packet.coreMax (q : Fin 16) (k : Fin 4) : Packet.Statement (.coreMax q k) := fun _ _ _ h => nomatch h
theorem Packet.coreLdi (q : Fin 16) (k : Fin 4) : Packet.Statement (.coreLdi q k) := fun _ _ _ h => nomatch h
theorem Packet.coreAddi (q : Fin 16) (k : Fin 4) : Packet.Statement (.coreAddi q k) := fun _ _ _ h => nomatch h
theorem Packet.coreAndi (q : Fin 16) (k : Fin 4) : Packet.Statement (.coreAndi q k) := fun _ _ _ h => nomatch h
theorem Packet.coreOri (q : Fin 16) (k : Fin 4) : Packet.Statement (.coreOri q k) := fun _ _ _ h => nomatch h
theorem Packet.coreXori (q : Fin 16) (k : Fin 4) : Packet.Statement (.coreXori q k) := fun _ _ _ h => nomatch h
theorem Packet.coreCmpi (q : Fin 16) (k : Fin 4) : Packet.Statement (.coreCmpi q k) := fun _ _ _ h => nomatch h
theorem Packet.coreTsti (q : Fin 16) (k : Fin 4) : Packet.Statement (.coreTsti q k) := fun _ _ _ h => nomatch h
theorem Packet.coreShli (q : Fin 16) (k : Fin 4) : Packet.Statement (.coreShli q k) := fun _ _ _ h => nomatch h
theorem Packet.coreAsri (q : Fin 16) (k : Fin 4) : Packet.Statement (.coreAsri q k) := fun _ _ _ h => nomatch h
theorem Packet.coreClra (q : Fin 16) (k : Fin 4) : Packet.Statement (.coreClra q k) := fun _ _ _ h => nomatch h
theorem Packet.coreMvda (q : Fin 16) (k : Fin 4) : Packet.Statement (.coreMvda q k) := fun _ _ _ h => nomatch h
theorem Packet.coreMvah (q : Fin 16) (k : Fin 4) : Packet.Statement (.coreMvah q k) := fun _ _ _ h => nomatch h
theorem Packet.coreMval (q : Fin 16) (k : Fin 4) : Packet.Statement (.coreMval q k) := fun _ _ _ h => nomatch h
theorem Packet.coreSha (q : Fin 16) (k : Fin 4) : Packet.Statement (.coreSha q k) := fun _ _ _ h => nomatch h
theorem Packet.coreRnda (q : Fin 16) (k : Fin 4) : Packet.Statement (.coreRnda q k) := fun _ _ _ h => nomatch h
theorem Packet.coreSata (q : Fin 16) (k : Fin 4) : Packet.Statement (.coreSata q k) := fun _ _ _ h => nomatch h
theorem Packet.coreAdda (q : Fin 16) (k : Fin 4) : Packet.Statement (.coreAdda q k) := fun _ _ _ h => nomatch h
theorem Packet.coreSuba (q : Fin 16) (k : Fin 4) : Packet.Statement (.coreSuba q k) := fun _ _ _ h => nomatch h
theorem Packet.coreTsta (q : Fin 16) (k : Fin 4) : Packet.Statement (.coreTsta q k) := fun _ _ _ h => nomatch h
theorem Packet.coreMvdl (q : Fin 16) (k : Fin 4) : Packet.Statement (.coreMvdl q k) := fun _ _ _ h => nomatch h
theorem Packet.coreLd (q : Fin 16) (k : Fin 4) : Packet.Statement (.coreLd q k) := fun _ _ _ h => nomatch h
theorem Packet.coreSt (q : Fin 16) (k : Fin 4) : Packet.Statement (.coreSt q k) := fun _ _ _ h => nomatch h
theorem Packet.coreMovs (q : Fin 16) (k : Fin 4) : Packet.Statement (.coreMovs q k) := fun _ _ _ h => nomatch h
theorem Packet.coreLds (q : Fin 16) (k : Fin 4) : Packet.Statement (.coreLds q k) := fun _ _ _ h => nomatch h
theorem Packet.coreB (q : Fin 16) (k : Fin 4) : Packet.Statement (.coreB q k) := fun _ _ _ h => nomatch h
theorem Packet.coreCall (q : Fin 16) (k : Fin 4) : Packet.Statement (.coreCall q k) := fun _ _ _ h => nomatch h
theorem Packet.coreRet (q : Fin 16) (k : Fin 4) : Packet.Statement (.coreRet q k) := fun _ _ _ h => nomatch h
theorem Packet.coreRep (q : Fin 16) (k : Fin 4) : Packet.Statement (.coreRep q k) := fun _ _ _ h => nomatch h
theorem Packet.coreWait (q : Fin 16) (k : Fin 4) : Packet.Statement (.coreWait q k) := fun _ _ _ h => nomatch h
theorem Packet.coreWaitRelease (q : Fin 16) (k : Fin 4) : Packet.Statement (.coreWaitRelease q k) := fun _ _ _ h => nomatch h
theorem Packet.coreWaitTimeout (q : Fin 16) (k : Fin 4) : Packet.Statement (.coreWaitTimeout q k) := fun _ _ _ h => nomatch h
theorem Packet.corePop (q : Fin 16) (k : Fin 4) : Packet.Statement (.corePop q k) := fun _ _ _ h => nomatch h
theorem Packet.coreFlag (q : Fin 16) (k : Fin 4) : Packet.Statement (.coreFlag q k) := fun _ _ _ h => nomatch h
theorem Packet.coreFlagg (q : Fin 16) (k : Fin 4) : Packet.Statement (.coreFlagg q k) := fun _ _ _ h => nomatch h
theorem Packet.coreSendf (q : Fin 16) (k : Fin 4) : Packet.Statement (.coreSendf q k) := fun _ _ _ h => nomatch h
theorem Packet.coreEvout (q : Fin 16) (k : Fin 4) : Packet.Statement (.coreEvout q k) := fun _ _ _ h => nomatch h
theorem Packet.coreSafe (q : Fin 16) (k : Fin 4) : Packet.Statement (.coreSafe q k) := fun _ _ _ h => nomatch h
theorem Packet.coreHalt (q : Fin 16) (k : Fin 4) : Packet.Statement (.coreHalt q k) := fun _ _ _ h => nomatch h
theorem Packet.sendQueueLaunch (q : Fin 16) : Packet.Statement (.sendQueueLaunch q) := fun _ _ _ h => nomatch h
theorem Packet.feedbackFrameReceive (q : Fin 16) : Packet.Statement (.feedbackFrameReceive q) := fun _ _ _ h => nomatch h
theorem Packet.intakeSrcSet (r : Req) : Packet.Statement (.intakeSrcSet r) := Packet.of_req rfl (fun h => h) (by decide)
theorem Packet.intakeSrcGet (r : Req) : Packet.Statement (.intakeSrcGet r) := Packet.of_req rfl (fun h => h) (by decide)
theorem Packet.intakeDelaySet (r : Req) : Packet.Statement (.intakeDelaySet r) := Packet.of_req rfl (fun h => h) (by decide)
theorem Packet.chanSet (r : Req) : Packet.Statement (.chanSet r) := Packet.of_req rfl (fun h => h) (by decide)
theorem Packet.chanGet (r : Req) : Packet.Statement (.chanGet r) := Packet.of_req rfl (fun h => h) (by decide)
theorem Packet.chanCoefWrite (r : Req) : Packet.Statement (.chanCoefWrite r) := Packet.of_req rfl (fun h => h) (by decide)
theorem Packet.chanCoefRead (r : Req) : Packet.Statement (.chanCoefRead r) := Packet.of_req rfl (fun h => h) (by decide)
theorem Packet.gainWrite (r : Req) : Packet.Statement (.gainWrite r) := Packet.of_req rfl (fun h => h) (by decide)
theorem Packet.gainRead (r : Req) : Packet.Statement (.gainRead r) := Packet.of_req rfl (fun h => h) (by decide)
theorem Packet.ctSet (r : Req) : Packet.Statement (.ctSet r) := Packet.of_req rfl (fun h => h) (by decide)
theorem Packet.ctGet (r : Req) : Packet.Statement (.ctGet r) := Packet.of_req rfl (fun h => h) (by decide)
theorem Packet.intakeStatsGet (r : Req) : Packet.Statement (.intakeStatsGet r) := Packet.of_req rfl (fun h => h) (by decide)
theorem Packet.intakeFrame (lane : Fin 72) (whole : Bool) (bytes : List Byte) : Packet.Statement (.intakeFrame lane whole bytes) := fun _ _ _ h => nomatch h
theorem Packet.channelise (q : Fin 16) (x : List AdcIn) : Packet.Statement (.channelise q x) := fun _ _ _ h => nomatch h
theorem Packet.blockRelease : Packet.Statement (.blockRelease) := fun _ _ _ h => nomatch h
theorem Packet.ctWrap : Packet.Statement (.ctWrap) := fun _ _ _ h => nomatch h
theorem Packet.corrPlanSet (r : Req) : Packet.Statement (.corrPlanSet r) := Packet.of_req rfl (fun h => h) (by decide)
theorem Packet.corrPlanGet (r : Req) : Packet.Statement (.corrPlanGet r) := Packet.of_req rfl (fun h => h) (by decide)
theorem Packet.corrExportSet (r : Req) : Packet.Statement (.corrExportSet r) := Packet.of_req rfl (fun h => h) (by decide)
theorem Packet.corrStart (r : Req) : Packet.Statement (.corrStart r) := Packet.of_req rfl (fun h => h) (by decide)
theorem Packet.corrStop (r : Req) : Packet.Statement (.corrStop r) := Packet.of_req rfl (fun h => h) (by decide)
theorem Packet.beamPlanSet (r : Req) : Packet.Statement (.beamPlanSet r) := Packet.of_req rfl (fun h => h) (by decide)
theorem Packet.beamPlanGet (r : Req) : Packet.Statement (.beamPlanGet r) := Packet.of_req rfl (fun h => h) (by decide)
theorem Packet.beamExportSet (r : Req) : Packet.Statement (.beamExportSet r) := Packet.of_req rfl (fun h => h) (by decide)
theorem Packet.beamWeightCommit (r : Req) : Packet.Statement (.beamWeightCommit r) := Packet.of_req rfl (fun h => h) (by decide)
theorem Packet.beamStart (r : Req) : Packet.Statement (.beamStart r) := Packet.of_req rfl (fun h => h) (by decide)
theorem Packet.beamStop (r : Req) : Packet.Statement (.beamStop r) := Packet.of_req rfl (fun h => h) (by decide)
theorem Packet.planStatus (r : Req) : Packet.Statement (.planStatus r) := Packet.of_req rfl (fun h => h) (by decide)
theorem Packet.blockBoundary : Packet.Statement (.blockBoundary) := fun _ _ _ h => nomatch h
theorem Packet.channelAdd : Packet.Statement (.channelAdd) := fun _ _ _ h => nomatch h
theorem Packet.integrationFinished : Packet.Statement (.integrationFinished) := fun _ _ _ h => nomatch h
theorem Packet.exportComplete : Packet.Statement (.exportComplete) := fun _ _ _ h => nomatch h
theorem Packet.overrun (sentRecords : Nat) : Packet.Statement (.overrun sentRecords) := fun _ _ _ h => nomatch h
theorem Packet.beamBlockOutput : Packet.Statement (.beamBlockOutput) := fun _ _ _ h => nomatch h
theorem Packet.dacLineSet (r : Req) : Packet.Statement (.dacLineSet r) := Packet.of_req rfl (fun h => h) (by decide)
theorem Packet.dacLineGet (r : Req) : Packet.Statement (.dacLineGet r) := Packet.of_req rfl (fun h => h) (by decide)
theorem Packet.rfMuteSet (r : Req) : Packet.Statement (.rfMuteSet r) := Packet.of_req rfl (fun h => h) (by decide)
theorem Packet.rfUnmute (r : Req) : Packet.Statement (.rfUnmute r) := Packet.of_req rfl (fun h => h) (by decide)
theorem Packet.rfMutePolicySet (r : Req) : Packet.Statement (.rfMutePolicySet r) := Packet.of_req rfl (fun h => h) (by decide)
theorem Packet.adcLineSet (r : Req) : Packet.Statement (.adcLineSet r) := Packet.of_req rfl (fun h => h) (by decide)
theorem Packet.adcLineGet (r : Req) : Packet.Statement (.adcLineGet r) := Packet.of_req rfl (fun h => h) (by decide)
theorem Packet.convCalPolicySet (r : Req) : Packet.Statement (.convCalPolicySet r) := Packet.of_req rfl (fun h => h) (by decide)
theorem Packet.convCalRun (r : Req) : Packet.Statement (.convCalRun r) := Packet.of_req rfl (fun h => h) (by decide)
theorem Packet.convStatus (r : Req) : Packet.Statement (.convStatus r) := Packet.of_req rfl (fun h => h) (by decide)
theorem Packet.rfMuteN (low : Bool) : Packet.Statement (.rfMuteN low) := fun _ _ _ h => nomatch h
theorem Packet.muteTakeEffect (n : Fin 40) : Packet.Statement (.muteTakeEffect n) := fun _ _ _ h => nomatch h
theorem Packet.switchOpen (n : Fin 40) : Packet.Statement (.switchOpen n) := fun _ _ _ h => nomatch h
theorem Packet.unmuteResume (n : Fin 40) : Packet.Statement (.unmuteResume n) := fun _ _ _ h => nomatch h
theorem Packet.lineSettle (n : Fin 40) : Packet.Statement (.lineSettle n) := fun _ _ _ h => nomatch h
theorem Packet.therm (c : Fin 4) (milliC : Int) : Packet.Statement (.therm c milliC) := fun _ _ _ h => nomatch h
theorem Packet.dacBackgroundCal (n : Fin 40) (m1 m2 : List Int) : Packet.Statement (.dacBackgroundCal n m1 m2) := fun _ _ _ h => nomatch h
theorem Packet.referenceCalibration (n : Fin 16) (m1 m2 : List Int) : Packet.Statement (.referenceCalibration n m1 m2) := fun _ _ _ h => nomatch h
theorem Packet.laneCfgSet (r : Req) : Packet.Statement (.laneCfgSet r) := Packet.of_req rfl (fun h => h) (by decide)
theorem Packet.laneStatus (r : Req) : Packet.Statement (.laneStatus r) := Packet.of_req rfl (fun h => h) (by decide)
theorem Packet.laneEqSet (r : Req) : Packet.Statement (.laneEqSet r) := Packet.of_req rfl (fun h => h) (by decide)
theorem Packet.laneTest (r : Req) : Packet.Statement (.laneTest r) := Packet.of_req rfl (fun h => h) (by decide)
theorem Packet.laneSwap (r : Req) : Packet.Statement (.laneSwap r) := Packet.of_req rfl (fun h => h) (by decide)
theorem Packet.portCfgSet (r : Req) : Packet.Statement (.portCfgSet r) := Packet.of_req rfl (fun h => h) (by decide)
theorem Packet.portStatus (r : Req) : Packet.Statement (.portStatus r) := Packet.of_req rfl (fun h => h) (by decide)
theorem Packet.linkTopoSet (r : Req) : Packet.Statement (.linkTopoSet r) := Packet.of_req rfl (fun h => h) (by decide)
theorem Packet.linkTopoGet (r : Req) : Packet.Statement (.linkTopoGet r) := Packet.of_req rfl (fun h => h) (by decide)
theorem Packet.peerCmdSend (r : Req) : Packet.Statement (.peerCmdSend r) := Packet.of_req rfl (fun h => h) (by decide)
theorem Packet.bulkRxSet (r : Req) : Packet.Statement (.bulkRxSet r) := Packet.of_req rfl (fun h => h) (by decide)
theorem Packet.bulkRxStatus (r : Req) : Packet.Statement (.bulkRxStatus r) := Packet.of_req rfl (fun h => h) (by decide)
theorem Packet.laneUp (n : Fin 92) : Packet.Statement (.laneUp n) := fun _ _ _ h => nomatch h
theorem Packet.trainingTimeout (n : Fin 92) : Packet.Statement (.trainingTimeout n) := fun _ _ _ h => nomatch h
theorem Packet.laneError (n : Fin 92) (code disp : Nat) (silent : Bool) : Packet.Statement (.laneError n code disp silent) := fun _ _ _ h => nomatch h
theorem Packet.laneSelftestDone (n : Fin 92) (errors : Nat) : Packet.Statement (.laneSelftestDone n errors) := fun _ _ _ h => nomatch h
theorem Packet.laneRetry (n : Fin 92) : Packet.Statement (.laneRetry n) := fun _ _ _ h => nomatch h
theorem Packet.skipSend (n : Fin 92) (adjusted : Nat) : Packet.Statement (.skipSend n adjusted) := fun _ _ _ h => nomatch h
theorem Packet.identSend (n : Fin 92) : Packet.Statement (.identSend n) := fun _ _ _ h => nomatch h
theorem Packet.identReceive (n : Fin 92) (bytes : List Byte) : Packet.Statement (.identReceive n bytes) := fun _ _ _ h => nomatch h
theorem Packet.identStale (n : Fin 20) : Packet.Statement (.identStale n) := fun _ _ _ h => nomatch h
theorem Packet.cmdFrameReceive (p : Fin 4) (whole : Bool) (bytes : List Byte) : Packet.Statement (.cmdFrameReceive p whole bytes) := fun _ _ _ h => nomatch h
theorem Packet.feedbackFrameLink (p : Fin 4) (whole : Bool) (bytes : List Byte) : Packet.Statement (.feedbackFrameLink p whole bytes) := fun _ _ _ h => nomatch h
theorem Packet.bulkFrameReceive (p : Fin 4) (whole : Bool) (bytes : List Byte) : Packet.Statement (.bulkFrameReceive p whole bytes) := fun _ _ _ h => nomatch h
theorem Packet.eventFrameReceive (p : Fin 4) (whole : Bool) (bytes : List Byte) : Packet.Statement (.eventFrameReceive p whole bytes) := fun _ _ _ h => nomatch h
theorem Packet.reorderHoldExpiry (p : Fin 4) : Packet.Statement (.reorderHoldExpiry p) := fun _ _ _ h => nomatch h
theorem Packet.peerDeadline (p : Fin 4) (index : BitVec 32) : Packet.Statement (.peerDeadline p index) := fun _ _ _ h => nomatch h
theorem Packet.timeGet (r : Req) : Packet.Statement (.timeGet r) := Packet.of_req rfl (fun h => h) (by decide)
theorem Packet.timeSet (r : Req) : Packet.Statement (.timeSet r) := Packet.of_req rfl (fun h => h) (by decide)
theorem Packet.timeCfgSet (r : Req) : Packet.Statement (.timeCfgSet r) := Packet.of_req rfl (fun h => h) (by decide)
theorem Packet.timeCfgGet (r : Req) : Packet.Statement (.timeCfgGet r) := Packet.of_req rfl (fun h => h) (by decide)
theorem Packet.timeStatus (r : Req) : Packet.Statement (.timeStatus r) := Packet.of_req rfl (fun h => h) (by decide)
theorem Packet.timeStepAuth (r : Req) : Packet.Statement (.timeStepAuth r) := Packet.of_req rfl (fun h => h) (by decide)
theorem Packet.timeAsymSet (r : Req) : Packet.Statement (.timeAsymSet r) := Packet.of_req rfl (fun h => h) (by decide)
theorem Packet.timePortStatus (r : Req) : Packet.Statement (.timePortStatus r) := Packet.of_req rfl (fun h => h) (by decide)
theorem Packet.timeTxtsRead (r : Req) : Packet.Statement (.timeTxtsRead r) := Packet.of_req rfl (fun h => h) (by decide)
theorem Packet.trigSet (r : Req) : Packet.Statement (.trigSet r) := Packet.of_req rfl (fun h => h) (by decide)
theorem Packet.trigGet (r : Req) : Packet.Statement (.trigGet r) := Packet.of_req rfl (fun h => h) (by decide)
theorem Packet.trigInRead (r : Req) : Packet.Statement (.trigInRead r) := Packet.of_req rfl (fun h => h) (by decide)
theorem Packet.launchSet (r : Req) : Packet.Statement (.launchSet r) := Packet.of_req rfl (fun h => h) (by decide)
theorem Packet.launchCancel (r : Req) : Packet.Statement (.launchCancel r) := Packet.of_req rfl (fun h => h) (by decide)
theorem Packet.launchStatus (r : Req) : Packet.Statement (.launchStatus r) := Packet.of_req rfl (fun h => h) (by decide)
theorem Packet.timeAnnounce (p : Fin 4) (x : TimeFrame) : Packet.Statement (.timeAnnounce p x) := fun _ _ _ h => nomatch h
theorem Packet.timeSync (p : Fin 4) (x : TimeFrame) : Packet.Statement (.timeSync p x) := fun _ _ _ h => nomatch h
theorem Packet.timeFollowUp (p : Fin 4) (x : TimeFrame) : Packet.Statement (.timeFollowUp p x) := fun _ _ _ h => nomatch h
theorem Packet.timeDelayReq (p : Fin 4) (x : TimeFrame) : Packet.Statement (.timeDelayReq p x) := fun _ _ _ h => nomatch h
theorem Packet.timeDelayResp (p : Fin 4) (x : TimeFrame) : Packet.Statement (.timeDelayResp p x) := fun _ _ _ h => nomatch h
theorem Packet.syncInterval (p : Fin 4) : Packet.Statement (.syncInterval p) := fun _ _ _ h => nomatch h
theorem Packet.announceInterval : Packet.Statement (.announceInterval) := fun _ _ _ h => nomatch h
theorem Packet.masterTimeout (p : Fin 4) : Packet.Statement (.masterTimeout p) := fun _ _ _ h => nomatch h
theorem Packet.withdrawIgnoreEnd (p : Fin 4) : Packet.Statement (.withdrawIgnoreEnd p) := fun _ _ _ h => nomatch h
theorem Packet.exchLost (p : Fin 4) : Packet.Statement (.exchLost p) := fun _ _ _ h => nomatch h
theorem Packet.stepApply : Packet.Statement (.stepApply) := fun _ _ _ h => nomatch h
theorem Packet.trigPulse (n : Fin 16) : Packet.Statement (.trigPulse n) := fun _ _ _ h => nomatch h
theorem Packet.trigInputEdge (n : Fin 16) (high : Bool) (time : Nat) : Packet.Statement (.trigInputEdge n high time) := fun _ _ _ h => nomatch h
theorem Packet.slotLaunch (p : Fin 4) (j : Fin 4) : Packet.Statement (.slotLaunch p j) := fun _ _ _ h => nomatch h
theorem Packet.refCfgSet (r : Req) : Packet.Statement (.refCfgSet r) := Packet.of_req rfl (fun h => h) (by decide)
theorem Packet.refStatus (r : Req) : Packet.Statement (.refStatus r) := Packet.of_req rfl (fun h => h) (by decide)
theorem Packet.freqMeasure (r : Req) : Packet.Statement (.freqMeasure r) := Packet.of_req rfl (fun h => h) (by decide)
theorem Packet.freqMeasureDone (count : Option Nat) : Packet.Statement (.freqMeasureDone count) := fun _ _ _ h => nomatch h
theorem Packet.islandStatus (r : Req) : Packet.Statement (.islandStatus r) := Packet.of_req rfl (fun h => h) (by decide)
theorem Packet.dvfsSet (r : Req) : Packet.Statement (.dvfsSet r) := Packet.of_req rfl (fun h => h) (by decide)
theorem Packet.dvfsGet (r : Req) : Packet.Statement (.dvfsGet r) := Packet.of_req rfl (fun h => h) (by decide)
theorem Packet.energyRead (r : Req) : Packet.Statement (.energyRead r) := Packet.of_req rfl (fun h => h) (by decide)
theorem Packet.workRead (r : Req) : Packet.Statement (.workRead r) := Packet.of_req rfl (fun h => h) (by decide)
theorem Packet.supplyCfgSet (r : Req) : Packet.Statement (.supplyCfgSet r) := Packet.of_req rfl (fun h => h) (by decide)
theorem Packet.supplyStatus (r : Req) : Packet.Statement (.supplyStatus r) := Packet.of_req rfl (fun h => h) (by decide)
theorem Packet.qualificationWindowEnd (isRec locked : Bool) (nom : Fin 4) (ppb : Int) : Packet.Statement (.qualificationWindowEnd isRec locked nom ppb) := fun _ _ _ h => nomatch h
theorem Packet.missingEdge (isRec output : Bool) : Packet.Statement (.missingEdge isRec output) := fun _ _ _ h => nomatch h
theorem Packet.holdoverMaxExpiry : Packet.Statement (.holdoverMaxExpiry) := fun _ _ _ h => nomatch h
theorem Packet.liveSwitch : Packet.Statement (.liveSwitch) := fun _ _ _ h => nomatch h
theorem Packet.forcedRelease (gap : Nat) : Packet.Statement (.forcedRelease gap) := fun _ _ _ h => nomatch h
theorem Packet.slip (k : Fin 50) : Packet.Statement (.slip k) := fun _ _ _ h => nomatch h
theorem Packet.pinEnter (q : Fin 16) : Packet.Statement (.pinEnter q) := fun _ _ _ h => nomatch h
theorem Packet.dvfsTransitionDone (p : Fin 17) : Packet.Statement (.dvfsTransitionDone p) := fun _ _ _ h => nomatch h
theorem Packet.vauxGood : Packet.Statement (.vauxGood) := fun _ _ _ h => nomatch h
theorem Packet.vauxLoss : Packet.Statement (.vauxLoss) := fun _ _ _ h => nomatch h
theorem Packet.railGood (r : Rail) : Packet.Statement (.railGood r) := fun _ _ _ h => nomatch h
theorem Packet.railLoss (e : Excursion) : Packet.Statement (.railLoss e) := fun _ _ _ h => nomatch h
theorem Packet.bootSupplyTimeout : Packet.Statement (.bootSupplyTimeout) := fun _ _ _ h => nomatch h
theorem Packet.sysRstN (p : PinSpan) : Packet.Statement (.sysRstN p) := fun _ _ _ h => nomatch h
theorem Packet.perstN (low : Bool) : Packet.Statement (.perstN low) := fun _ _ _ h => nomatch h
theorem Packet.firmwareVerified : Packet.Statement (.firmwareVerified) := fun _ _ _ h => nomatch h
theorem Packet.bootSelftestComplete (failed : List (Nat × Nat)) : Packet.Statement (.bootSelftestComplete failed) := fun _ _ _ h => nomatch h
theorem Packet.temperatureShutdown (milliC : List Int) : Packet.Statement (.temperatureShutdown milliC) := fun _ _ _ h => nomatch h
theorem Packet.hardwareThermalTrip (milliC : List Int) : Packet.Statement (.hardwareThermalTrip milliC) := fun _ _ _ h => nomatch h
theorem Packet.dramRefreshDouble (stack : Fin 2) (above : Bool) : Packet.Statement (.dramRefreshDouble stack above) := fun _ _ _ h => nomatch h
theorem Packet.capConfig (r : Req) : Packet.Statement (.capConfig r) := Packet.of_req rfl (fun h => h) (by decide)
theorem Packet.capConfigGet (r : Req) : Packet.Statement (.capConfigGet r) := Packet.of_req rfl (fun h => h) (by decide)
theorem Packet.capTrigSet (r : Req) : Packet.Statement (.capTrigSet r) := Packet.of_req rfl (fun h => h) (by decide)
theorem Packet.capMaskWrite (r : Req) : Packet.Statement (.capMaskWrite r) := Packet.of_req rfl (fun h => h) (by decide)
theorem Packet.capArm (r : Req) : Packet.Statement (.capArm r) := Packet.of_req rfl (fun h => h) (by decide)
theorem Packet.capForce (r : Req) : Packet.Statement (.capForce r) := Packet.of_req rfl (fun h => h) (by decide)
theorem Packet.capStop (r : Req) : Packet.Statement (.capStop r) := Packet.of_req rfl (fun h => h) (by decide)
theorem Packet.capStatus (r : Req) : Packet.Statement (.capStatus r) := Packet.of_req rfl (fun h => h) (by decide)
theorem Packet.capHdrRead (r : Req) : Packet.Statement (.capHdrRead r) := Packet.of_req rfl (fun h => h) (by decide)
theorem Packet.captureTrigger (n : Fin 16) (x : List AdcIn) : Packet.Statement (.captureTrigger n x) := fun _ _ _ h => nomatch h
theorem Packet.segmentEnd (n : Fin 16) (x : List AdcIn) : Packet.Statement (.segmentEnd n x) := fun _ _ _ h => nomatch h
theorem Packet.holdoffEnd (n : Fin 16) (x : List AdcIn) : Packet.Statement (.holdoffEnd n x) := fun _ _ _ h => nomatch h
theorem Packet.tinInputSet (r : Req) : Packet.Statement (.tinInputSet r) := Packet.of_req rfl (fun h => h) (by decide)
theorem Packet.tinInputGet (r : Req) : Packet.Statement (.tinInputGet r) := Packet.of_req rfl (fun h => h) (by decide)
theorem Packet.tinCalRun (r : Req) : Packet.Statement (.tinCalRun r) := Packet.of_req rfl (fun h => h) (by decide)
theorem Packet.tinCalDone (n : Fin 8) (hits1 hits2 : List Nat) (milliC : Int) : Packet.Statement (.tinCalDone n hits1 hits2 milliC) := fun _ _ _ h => nomatch h
theorem Packet.tinCalRead (r : Req) : Packet.Statement (.tinCalRead r) := Packet.of_req rfl (fun h => h) (by decide)
theorem Packet.tinMeasSet (r : Req) : Packet.Statement (.tinMeasSet r) := Packet.of_req rfl (fun h => h) (by decide)
theorem Packet.tinMeasStart (r : Req) : Packet.Statement (.tinMeasStart r) := Packet.of_req rfl (fun h => h) (by decide)
theorem Packet.tinMeasStop (r : Req) : Packet.Statement (.tinMeasStop r) := Packet.of_req rfl (fun h => h) (by decide)
theorem Packet.tinStatsRead (r : Req) : Packet.Statement (.tinStatsRead r) := Packet.of_req rfl (fun h => h) (by decide)
theorem Packet.tinStampRead (r : Req) : Packet.Statement (.tinStampRead r) := Packet.of_req rfl (fun h => h) (by decide)
theorem Packet.tinStatus (r : Req) : Packet.Statement (.tinStatus r) := Packet.of_req rfl (fun h => h) (by decide)
theorem Packet.tinEdge (src : Fin 15) (rising : Bool) (tclk taps held : Nat) (milliC : Int) : Packet.Statement (.tinEdge src rising tclk taps held milliC) := fun _ _ _ h => nomatch h
theorem Packet.noStop (n : Fin 8) : Packet.Statement (.noStop n) := fun _ _ _ h => nomatch h
theorem Packet.biasSet (r : Req) : Packet.Statement (.biasSet r) := Packet.of_req rfl (fun h => h) (by decide)
theorem Packet.biasGet (r : Req) : Packet.Statement (.biasGet r) := Packet.of_req rfl (fun h => h) (by decide)
theorem Packet.biasRangeSet (r : Req) : Packet.Statement (.biasRangeSet r) := Packet.of_req rfl (fun h => h) (by decide)
theorem Packet.rangeRelease (n : Fin 64) : Packet.Statement (.rangeRelease n) := fun _ _ _ h => nomatch h
theorem Packet.biasGenSet (r : Req) : Packet.Statement (.biasGenSet r) := Packet.of_req rfl (fun h => h) (by decide)
theorem Packet.biasTableWrite (r : Req) : Packet.Statement (.biasTableWrite r) := Packet.of_req rfl (fun h => h) (by decide)
theorem Packet.biasSafetySet (r : Req) : Packet.Statement (.biasSafetySet r) := Packet.of_req rfl (fun h => h) (by decide)
theorem Packet.biasStatus (r : Req) : Packet.Statement (.biasStatus r) := Packet.of_req rfl (fun h => h) (by decide)
theorem Packet.biasCalRun (r : Req) : Packet.Statement (.biasCalRun r) := Packet.of_req rfl (fun h => h) (by decide)
theorem Packet.biasUpdate : Packet.Statement (.biasUpdate) := fun _ _ _ h => nomatch h
theorem Packet.bclrN (low : Bool) : Packet.Statement (.bclrN low) := fun _ _ _ h => nomatch h
theorem Packet.biasOverload (n : Fin 64) (on : Bool) : Packet.Statement (.biasOverload n on) := fun _ _ _ h => nomatch h
theorem Packet.powerUpRamp (n : Fin 64) : Packet.Statement (.powerUpRamp n) := fun _ _ _ h => nomatch h
theorem Packet.monChSet (r : Req) : Packet.Statement (.monChSet r) := Packet.of_req rfl (fun h => h) (by decide)
theorem Packet.monChGet (r : Req) : Packet.Statement (.monChGet r) := Packet.of_req rfl (fun h => h) (by decide)
theorem Packet.monSeqWrite (r : Req) : Packet.Statement (.monSeqWrite r) := Packet.of_req rfl (fun h => h) (by decide)
theorem Packet.monSeqRun (r : Req) : Packet.Statement (.monSeqRun r) := Packet.of_req rfl (fun h => h) (by decide)
theorem Packet.monRead (r : Req) : Packet.Statement (.monRead r) := Packet.of_req rfl (fun h => h) (by decide)
theorem Packet.monInject (r : Req) : Packet.Statement (.monInject r) := Packet.of_req rfl (fun h => h) (by decide)
theorem Packet.monSyscal (r : Req) : Packet.Statement (.monSyscal r) := Packet.of_req rfl (fun h => h) (by decide)
theorem Packet.calCfgSet (r : Req) : Packet.Statement (.calCfgSet r) := Packet.of_req rfl (fun h => h) (by decide)
theorem Packet.calStatus (r : Req) : Packet.Statement (.calStatus r) := Packet.of_req rfl (fun h => h) (by decide)
theorem Packet.monStatus (r : Req) : Packet.Statement (.monStatus r) := Packet.of_req rfl (fun h => h) (by decide)
theorem Packet.systemSlot (x : BitVec 18) : Packet.Statement (.systemSlot x) := fun _ _ _ h => nomatch h
theorem Packet.hostSlot (x : BitVec 18) : Packet.Statement (.hostSlot x) := fun _ _ _ h => nomatch h
theorem Packet.bandgapCompare (a b : BitVec 18) : Packet.Statement (.bandgapCompare a b) := fun _ _ _ h => nomatch h
theorem Packet.correctionInterval (k : Fin 4) : Packet.Statement (.correctionInterval k) := fun _ _ _ h => nomatch h
theorem Packet.evChanSet (r : Req) : Packet.Statement (.evChanSet r) := Packet.of_req rfl (fun h => h) (by decide)
theorem Packet.evChanGet (r : Req) : Packet.Statement (.evChanGet r) := Packet.of_req rfl (fun h => h) (by decide)
theorem Packet.evRouteAdd (r : Req) : Packet.Statement (.evRouteAdd r) := Packet.of_req rfl (fun h => h) (by decide)
theorem Packet.evRouteDel (r : Req) : Packet.Statement (.evRouteDel r) := Packet.of_req rfl (fun h => h) (by decide)
theorem Packet.evFire (r : Req) : Packet.Statement (.evFire r) := Packet.of_req rfl (fun h => h) (by decide)
theorem Packet.evStatus (r : Req) : Packet.Statement (.evStatus r) := Packet.of_req rfl (fun h => h) (by decide)
theorem Packet.evCoincRead (r : Req) : Packet.Statement (.evCoincRead r) := Packet.of_req rfl (fun h => h) (by decide)
theorem Packet.evFireWrite (r : Fin 8) (value : BitVec 32) : Packet.Statement (.evFireWrite r value) := fun _ _ _ h => nomatch h
theorem Packet.eventActivation (k more : Nat) : Packet.Statement (.eventActivation k more) := fun _ _ _ h => nomatch h
theorem Packet.faultLogRead (r : Req) : Packet.Statement (.faultLogRead r) := Packet.of_req rfl (fun h => h) (by decide)
theorem Packet.faultPolicySet (r : Req) : Packet.Statement (.faultPolicySet r) := Packet.of_req rfl (fun h => h) (by decide)
theorem Packet.spareStatus (r : Req) : Packet.Statement (.spareStatus r) := Packet.of_req rfl (fun h => h) (by decide)
theorem Packet.selftestRun (r : Req) : Packet.Statement (.selftestRun r) := Packet.of_req rfl (fun h => h) (by decide)
theorem Packet.unitReadmit (r : Req) : Packet.Statement (.unitReadmit r) := Packet.of_req rfl (fun h => h) (by decide)
theorem Packet.unitRetire (r : Req) : Packet.Statement (.unitRetire r) := Packet.of_req rfl (fun h => h) (by decide)
theorem Packet.quireMigrate (r : Req) : Packet.Statement (.quireMigrate r) := Packet.of_req rfl (fun h => h) (by decide)
theorem Packet.precopyDone (dirty : Nat) : Packet.Statement (.precopyDone dirty) := fun _ _ _ h => nomatch h
theorem Packet.migrationSwitch : Packet.Statement (.migrationSwitch) := fun _ _ _ h => nomatch h
theorem Packet.fwActivate (r : Req) : Packet.Statement (.fwActivate r) := Packet.of_req rfl (fun h => h) (by decide)
theorem Packet.handoverPause : Packet.Statement (.handoverPause) := fun _ _ _ h => nomatch h
theorem Packet.handoverReadyTimeout (host : List (List (Option (List Byte)))) : Packet.Statement (.handoverReadyTimeout host) := fun _ _ _ h => nomatch h
theorem Packet.fwConfirm (r : Req) : Packet.Statement (.fwConfirm r) := Packet.of_req rfl (fun h => h) (by decide)
theorem Packet.trialTimeout : Packet.Statement (.trialTimeout) := fun _ _ _ h => nomatch h
theorem Packet.watchdogExpiry : Packet.Statement (.watchdogExpiry) := fun _ _ _ h => nomatch h
theorem Packet.lockstepMismatch : Packet.Statement (.lockstepMismatch) := fun _ _ _ h => nomatch h
theorem Packet.memAlloc (r : Req) : Packet.Statement (.memAlloc r) := Packet.of_req rfl (fun h => h) (by decide)
theorem Packet.memFree (r : Req) : Packet.Statement (.memFree r) := Packet.of_req rfl (fun h => h) (by decide)
theorem Packet.memInfo (r : Req) : Packet.Statement (.memInfo r) := Packet.of_req rfl (fun h => h) (by decide)
theorem Packet.errorDetected (kind : Fin 14) (phys detail : BitVec 32) (lost : Lost) (page : Option (Nat × Nat)) : Packet.Statement (.errorDetected kind phys detail lost page) := fun _ _ _ h => nomatch h
theorem Packet.selftestDone (k : Nat) (pass : Bool) : Packet.Statement (.selftestDone k pass) := fun _ _ _ h => nomatch h
theorem Packet.spareMove (k : Nat) : Packet.Statement (.spareMove k) := fun _ _ _ h => nomatch h
theorem Packet.idCertGet (r : Req) : Packet.Statement (.idCertGet r) := Packet.of_req rfl (fun h => h) (by decide)
theorem Packet.trustNonceGet (r : Req) : Packet.Statement (.trustNonceGet r) := Packet.of_req rfl (fun h => h) (by decide)
theorem Packet.nonceExpiry (src : Src) : Packet.Statement (.nonceExpiry src) := fun _ _ _ h => nomatch h
theorem Packet.colophonGet (r : Req) : Packet.Statement (.colophonGet r) := Packet.of_req rfl (fun h => h) (by decide)
theorem Packet.cfgLogRead (r : Req) : Packet.Statement (.cfgLogRead r) := Packet.of_req rfl (fun h => h) (by decide)
theorem Packet.ownerKeySet (r : Req) : Packet.Statement (.ownerKeySet r) := Packet.of_req rfl (fun h => h) (by decide)
theorem Packet.ownerKeyRevoke (r : Req) : Packet.Statement (.ownerKeyRevoke r) := Packet.of_req rfl (fun h => h) (by decide)
theorem Packet.ownerKeyGet (r : Req) : Packet.Statement (.ownerKeyGet r) := Packet.of_req rfl (fun h => h) (by decide)
theorem Packet.ownerRelease (r : Req) : Packet.Statement (.ownerRelease r) := Packet.of_req rfl (fun h => h) (by decide)
theorem Packet.privSet (r : Req) : Packet.Statement (.privSet r) := Packet.of_req rfl (fun h => h) (by decide)
theorem Packet.privGet (r : Req) : Packet.Statement (.privGet r) := Packet.of_req rfl (fun h => h) (by decide)
theorem Packet.ctrAdvance (r : Req) : Packet.Statement (.ctrAdvance r) := Packet.of_req rfl (fun h => h) (by decide)
theorem Packet.ctrGet (r : Req) : Packet.Statement (.ctrGet r) := Packet.of_req rfl (fun h => h) (by decide)
theorem Packet.debugUnlock (r : Req) : Packet.Statement (.debugUnlock r) := Packet.of_req rfl (fun h => h) (by decide)
theorem Packet.debugLock (r : Req) : Packet.Statement (.debugLock r) := Packet.of_req rfl (fun h => h) (by decide)
theorem Packet.flashOperationDone (w : FlashWork) (ok : Bool) : Packet.Statement (.flashOperationDone w ok) := fun _ _ _ h => nomatch h
theorem Packet.regionZeroed (h : Fin 2048) : Packet.Statement (.regionZeroed h) := fun _ _ _ h => nomatch h
theorem Packet.laneTestEnd (n : Fin 92) (errors : Nat) : Packet.Statement (.laneTestEnd n errors) := fun _ _ _ h => nomatch h
theorem Packet.firmwareStaged (ok : Bool) : Packet.Statement (.firmwareStaged ok) := fun _ _ _ h => nomatch h
theorem Packet.newFirmwareReady (host : List (List (Option (List Byte)))) : Packet.Statement (.newFirmwareReady host) := fun _ _ _ h => nomatch h
theorem Packet.fabricStall (port : Fin 26) : Packet.Statement (.fabricStall port) := fun _ _ _ h => nomatch h
theorem Packet.adcCalDue (n : Fin 16) : Packet.Statement (.adcCalDue n) := fun _ _ _ h => nomatch h
theorem Packet.biasChipletFault (on : Bool) : Packet.Statement (.biasChipletFault on) := fun _ _ _ h => nomatch h
theorem Packet.intPllLock : Packet.Statement (.intPllLock) := fun _ _ _ h => nomatch h

end Sys2Proof.Laws
end

