-- ==== Sys2Proof/Laws/Reply.lean ====
section
/-! SUPPORT. What sending a reply can change: the ports, the links and what has left the block, and nothing else. -/
namespace Sys2Proof.Machine

/-- `t` has every part of `s` but the ports (`dev`), the links and the record of what has left the block. -/
structure Beside (s t : State) : Prop where
  pending : t.pending = s.pending
  now : t.now = s.now
  free : t.free = s.free
  svc : t.svc = s.svc
  trust : t.trust = s.trust
  ev : t.ev = s.ev
  syn : t.syn = s.syn
  ro : t.ro = s.ro
  fb : t.fb = s.fb
  clk : t.clk = s.clk
  plans : t.plans = s.plans
  rf : t.rf = s.rf
  cap : t.cap = s.cap
  bsc : t.bsc = s.bsc
  delayed : t.delayed = s.delayed

theorem Beside.refl (s : State) : Beside s s := ⟨rfl, rfl, rfl, rfl, rfl, rfl, rfl, rfl, rfl, rfl, rfl, rfl, rfl, rfl, rfl⟩

theorem Beside.trans {s t v : State} (h : Beside s t) (k : Beside t v) : Beside s v :=
  ⟨k.pending.trans h.pending, k.now.trans h.now, k.free.trans h.free, k.svc.trans h.svc, k.trust.trans h.trust, k.ev.trans h.ev,
    k.syn.trans h.syn, k.ro.trans h.ro, k.fb.trans h.fb, k.clk.trans h.clk, k.plans.trans h.plans, k.rf.trans h.rf, k.cap.trans h.cap,
    k.bsc.trans h.bsc, k.delayed.trans h.delayed⟩

theorem onDev_beside (s : State) (f : Dev → Dev) : Beside s (s.onDev f) := ⟨rfl, rfl, rfl, rfl, rfl, rfl, rfl, rfl, rfl, rfl, rfl, rfl, rfl, rfl, rfl⟩
theorem onLink_beside (s : State) (f : Link → Link) : Beside s (s.onLink f) := ⟨rfl, rfl, rfl, rfl, rfl, rfl, rfl, rfl, rfl, rfl, rfl, rfl, rfl, rfl, rfl⟩
theorem emit_beside (s : State) (o : Out) : Beside s (s.emit o) := ⟨rfl, rfl, rfl, rfl, rfl, rfl, rfl, rfl, rfl, rfl, rfl, rfl, rfl, rfl, rfl⟩
theorem onStream_beside (s : State) (src : Src) (f : Stream → Stream) : Beside s (s.onStream src f) := onDev_beside s _
theorem onRing_beside (s : State) (n : Nat) (f : Ring → Ring) : Beside s (s.onRing n f) := onDev_beside s _
theorem onPort_beside (s : State) (p : Nat) (f : LinkPort → LinkPort) : Beside s (s.onPort p f) := onLink_beside s _
theorem onLane_beside (s : State) (n : Nat) (f : LaneSt → LaneSt) : Beside s (s.onLane n f) := onLink_beside s _
theorem countPort_beside (s : State) (p : Nat) (c : PCount) : Beside s (s.countPort p c) := onPort_beside s p _

theorem raise_beside (s : State) (v : Nat) : Beside s (s.raise v) := by
  unfold State.raise
  split
  · split
    · exact .refl s
    · exact onDev_beside s _
  · exact emit_beside s _

theorem noting_beside {s : State} {f : State → State} (h : Beside s (f s)) : Beside s (s.noting f) := by
  unfold State.noting
  simp only
  split
  · exact h
  · exact h.trans (raise_beside _ _)

theorem sendFrame_beside (s : State) (p cls dest src hops : Nat) (b : List Byte) : Beside s (s.sendFrame p cls dest src hops b).1 := by
  unfold State.sendFrame
  split
  · exact .refl s
  · exact ((onPort_beside _ _ _).trans (onLane_beside _ _ _)).trans ((countPort_beside _ _ _).trans (emit_beside _ _))

theorem complete_beside (s : State) (n : Nat) (b : List Byte) : Beside s (s.complete n b) := by
  unfold State.complete
  simp only
  split
  · exact ((emit_beside _ _).trans (onRing_beside _ _ _)).trans (raise_beside _ _)
  · exact (emit_beside _ _).trans (onRing_beside _ _ _)

theorem completeOr_beside (s : State) (n : Nat) (b : List Byte) : Beside s (s.completeOr n b) := by
  unfold State.completeOr
  simp only
  split
  · exact onRing_beside _ _ _
  · exact complete_beside _ _ _

theorem mailboxShow_beside (s : State) : Beside s s.mailboxShow := by
  unfold State.mailboxShow
  split
  · exact (onDev_beside _ _).trans (raise_beside _ _)
  · exact .refl s

theorem deliver_beside (s : State) (src : Src) (d : Bool) (b : List Byte) : Beside s (s.deliver src d b) := by
  unfold State.deliver
  cases src with
  | ring n =>
    simp only
    split
    · exact (emit_beside s _).trans (completeOr_beside _ _ _)
    · exact emit_beside s _
  | mailbox => exact ((emit_beside s _).trans (onDev_beside _ _)).trans (mailboxShow_beside _)
  | array p => exact (emit_beside s _).trans (sendFrame_beside _ _ _ _ _ _ _)
  | mgmt => exact (emit_beside s _).trans (noting_beside (onDev_beside _ _))

theorem reserve_beside (s : State) (src : Src) (d : Bool) : Beside s (s.reserve src d) := by
  unfold State.reserve
  cases src with
  | ring n => exact onRing_beside _ _ _
  | mailbox => simp only; split
               · exact onDev_beside _ _
               · exact .refl s
  | array p => exact .refl s
  | mgmt => exact .refl s

theorem unreserve_beside (s : State) (src : Src) (d : Bool) : Beside s (s.unreserve src d) := by
  unfold State.unreserve
  cases src with
  | ring n => exact onRing_beside _ _ _
  | mailbox => simp only; split
               · exact onDev_beside _ _
               · exact .refl s
  | array p => exact .refl s
  | mgmt => exact .refl s

/-- A reply changes the ports, the links and what has left the block. -/
theorem reply_beside (s : State) (p : Pkt) (st : Nat) (d : Bool) (b : List Byte) : Beside s (s.reply p st d b) := by
  unfold State.reply
  split
  · exact onStream_beside _ _ _
  · split
    · exact unreserve_beside _ _ _
    · exact (onStream_beside _ _ _).trans (deliver_beside _ _ _ _)

theorem replyErr_beside (s : State) (p : Pkt) (d : Bool) (e : Err) : Beside s (s.replyErr p d e) := reply_beside s p _ d _

theorem bounce_beside (s : State) (p : Pkt) (st : Nat) (b : List Byte) : Beside s (s.bounce p st b) := by
  unfold State.bounce
  simp only
  split
  · exact onStream_beside _ _ _
  · exact (onStream_beside _ _ _).trans (deliver_beside _ _ _ _)

theorem syncMail_beside (s : State) : Beside s s.syncMail := onDev_beside s _

theorem finish_beside (s : State) (h : Held) (st : Nat) (b : List Byte) : Beside s (s.finish h st b) := by
  unfold State.finish
  exact ((onDev_beside s _).trans (syncMail_beside _)).trans (reply_beside _ _ _ _ _)

/-- A wait that comes about ends its command, or only shortens what it waits for. -/
theorem resolve_beside (s : State) (w : Wait) (b : List Byte) : Beside s (s.resolve w b) := by
  unfold State.resolve
  split
  · exact .refl s
  · simp only
    split
    · exact finish_beside _ _ _ _
    · exact onDev_beside _ _

theorem failWait_beside (s : State) (w : Wait) (e : Err) : Beside s (s.failWait w e) := by
  unfold State.failWait
  split
  · exact .refl s
  · exact finish_beside _ _ _ _

end Sys2Proof.Machine
end

