-- ==== Sys2Proof/Machine/Bar0.lean ====
section
/-! DEFINITION. What BAR0 reads as (02, R11, R56 to R66, R507). The opcode table has no row for a read, which changes nothing. -/
namespace Sys2Proof.Machine

/-- RING_CFG and RING_STAT (R58, R59). -/
def Ring.cfgWord (r : Ring) : Nat := ofBool r.en + r.depthLog2 * 2 ^ 4 + r.esize * 2 ^ 8 + r.vector * 2 ^ 10 + ofBool r.irqEn * 2 ^ 16
def Ring.statWord (r : Ring) : Nat :=
  ofBool r.en + ofBool r.cfgErr * 2 + ofBool r.dbErr * 2 ^ 2 + ofBool r.cqWait * 2 ^ 3 + ofBool r.fetchErr * 2 ^ 4

/-- The 64 bytes of a ring's block. -/
def Ring.block (r : Ring) : List Byte :=
  leBytes 8 r.sqBase ++ leBytes 8 r.cqBase ++ leBytes 4 r.cfgWord ++ leBytes 4 r.statWord ++ leBytes 4 r.sqHead ++ leBytes 4 r.cqTail ++ zeros 32

/-- DMA_CTL and DMA_STAT (R65, R66): GO and STOP read as 0. -/
def Dma.ctlWord (x : Dma) : Nat := ofBool x.dir * 2 + ofBool x.circ * 2 ^ 2 + ofBool x.irqEn * 2 ^ 3 + ofBool x.stream.isSome * 2 ^ 4
def Dma.statWord (x : Dma) : Nat := ofBool x.busy + ofBool x.done * 2 + ofBool x.err * 2 ^ 2 + x.errCode * 2 ^ 4

/-- The 128 bytes of a DMA channel's block. -/
def Dma.block (x : Dma) : List Byte :=
  leBytes 8 x.hostAddr ++ leBytes 4 x.region ++ zeros 4 ++ leBytes 8 x.regOffset ++ leBytes 4 x.length ++ leBytes 4 x.ctlWord ++ leBytes 4 x.statWord ++
    leBytes 4 x.doneCount ++ zeros 88

/-- WIN_CTL (R64). -/
def Dev.winCtl (d : Dev) : Nat := d.winRegion + ofBool d.winErr * 2 ^ 30 + ofBool d.winEn * 2 ^ 31

/-- MBX_CTL (R63): POST reads as 0. -/
def Mailbox.ctlWord (m : Mailbox) : Nat := ofBool m.ready * 2 + ofBool m.busy * 2 ^ 2

/-- An entry of the MSI-X table, and the pending bits. -/
def Msix.bytes (e : Msix) : List Byte := leBytes 8 e.addr ++ leBytes 4 e.data ++ leBytes 4 e.ctrl
def Dev.pba (d : Dev) : Nat := (List.range 64).foldl (fun a v => if d.msixPend.contains v then a + 2 ^ v else a) 0

/-- The blocks of BAR0 that can be read, by their offsets (R56). -/
def State.bar0Blocks (s : State) : List (Nat × List Byte) :=
  [(0x0000, s.bar0Ident), (0x0100, s.bar0Status), (0x0200, leBytes 4 s.dev.winCtl ++ zeros 4 ++ leBytes 8 s.dev.winBase), (0x0260, leBytes 4 s.ev.fireDenied)] ++
    (List.range 8).map (fun n => (0x0400 + 64 * n, (s.ring n).block)) ++ (List.range 16).map (fun n => (0x2000 + 128 * n, (s.dmaCh n).block)) ++
    (List.range 64).map (fun v => (0x3000 + 16 * v, (tget { addr := 0, data := 0, ctrl := 0 } s.dev.msix v).bytes)) ++
    [(0x3800, leBytes 8 s.dev.pba), (0x9000, fit 4096 s.dev.mbox.reply), (0xA000, leBytes 4 s.dev.mbox.ctlWord)]

/-- A byte of BAR0: write-only registers and reserved space read as 0. -/
def State.bar0Byte (s : State) (a : Nat) : Byte :=
  match s.bar0Blocks.find? fun e => decide (e.1 ≤ a) && decide (a < e.1 + e.2.length) with
  | some e => lget 0 e.2 (a - e.1)
  | none => 0

/-- What a read of `n` bytes at an offset of BAR0 returns. -/
def State.bar0Read (s : State) (off n : Nat) : List Byte := (List.range n).map fun k => s.bar0Byte (off + k)

end Sys2Proof.Machine
end

