-- ==== Sys2Proof/Tests/Setup.lean ====
section
/-! SUPPORT. What the tests share: small states built from reset, packets, and the test that a packet arrives and passes its checks. -/
namespace Sys2Proof.Tests
open Sys2Proof.Machine

/-- No channel, no slot. -/
def NO : Nat := 0xFFFF

/-- `n` bytes of parameters with the given fields: offset and value. -/
def par (n : Nat) (fs : List (Nat × Nat)) : List Byte := leBytes n (fs.foldl (fun v f => v + f.2 * 2 ^ (8 * f.1)) 0)

/-- A device in RUN whose ports all have OWNER. -/
def up : State := (State.reset.onDev fun d => { d with st := .run, fwUp := true, perst := false, priv := [.owner, .owner, .owner, .owner, .owner, .owner] }
  ).onClk fun c => { c with good := 2047 }

/-- The same with Quires 0 to 3 in CONTROL, SERVICE, CORRELATE and BEAMFORM, and region 1 allocated. -/
def rich0 : State := [(0, Pers.control), (1, .service), (2, .correlate), (3, .beamform)].foldl (fun (a : State) e => a.onQb e.1 fun b => { b with pers := e.2 }) up
def reg (n : Nat) : Option Region := some { size := n, owner := 0, shared := true, mfault := false, zeroed := true, retiredPages := [] }
def rich : State := rich0.onSvc fun v => { v with regions := [(1, reg 1048576)] }

def ctA : CtCfg := { region := 2, s := 1, f := 16, npad := 32, b := 256, align := 2 }
def bigState : State := rich.onSvc fun v => { v with regions := [(1, reg 268435456), (2, reg 268435456)] }
def chanA : ChanCfg := { bypass := false, taps := 4, log2p := 6, outBits := 4, ch0 := 0, f := 16, base := 0, count := 32, shift := 0, rshift := 0 }
def srcA : SrcCfg := { kind := 2, format := 4, source := 0, line := 0, nomlen := 0, mul := 1, div := 1, goff := 0, first := 0, nchan := 0 }
def srcState : State := bigState.onInput 0 fun x => { x with src := srcA, slot := 0 }
def planState : State := (srcState.onChan 2 fun c => { c with cfg := some chanA }).onCt fun c => { c with cfg := some ctA }
def corrA : CorrCfg := { qmask := 4, mode := 4, rect := false, na := 0, t := 256, nblk := 1, vregion := 1, pmax := 0, blank := false, blankThr := 0, evInteg := 0xFFFF, evAlarm := 0xFFFF }
def corrState : State := planState.onCorr fun c => { c with cfg := some corrA, exp := some { paths := 1, dma := 0, baseline := false, addrs := [0,0,0,0] } }
def corrRun : State := corrState.onCorrRun fun r => { r with st := .running }
def beamA : BeamCfg := { qmask := 8, inBits := 4, outBits := 8, nbeam := 32, ch0 := 0, nch := 16, wgroup := 1, wregion := 1, pmax := 0, bshift := 0, evBlock := 0xFFFF, evAlarm := 0xFFFF }
def beamState : State := planState.onBeam fun c => { c with cfg := some beamA, exps := [(0, [some { first := 0, count := 32, addr := 0 }, none, none, none, none, none])] }
def beamRun : State := beamState.onBeamRun fun r => { r with st := .running }
def laneUp' : State := [(80, true), (81, false)].foldl (fun (a : State) e => a.onLane e.1 fun l => { l with st := .up, usable := true, active := e.2 }) rich
def laneState : State := ([72, 73].foldl (fun (a : State) e => a.onLane e fun l => { l with st := .up, usable := true, active := e == 72 }) rich).onLane 0 fun l => { l with st := .up }
def capState : State := rich.onCapU 0 fun u => { u with cfg := some { skind := 1, line := 0, dec := 0, mask := false, quire := 0, folio := 0, rsets := 0, ring := false, region := 1, mcomp := 1, queue1 := false, nseg := 1, seglen := 64, pre := 0, evSeg := 0xFFFF, evDone := 0xFFFF, evAlarm := 0xFFFF, mhyst := 0, mlevel := 0 }, trig := some { tsrc := 0, tcomp := 1, slope := 1, level := 0, hyst := 0, evch := 0xFFFF } }
def tinState : State := rich.onTinEng 0 fun e => { e with cfg := { e.cfg with mode := 1 } }
def biasState : State := (rich.onClk fun c => { c with incoh := [] }).onBch 0 fun b => { b with st := .on }
def evState : State := rich.onEv fun e => { e with chans := tput .reset e.chans 0 { EvChan.reset with routes := [{ kind := 5, port := 0, target := 0, addr := 0 }] } }
def trialState : State := rich.onSvc fun v => { v with trial := some (1, 10) }
def armedState : State := rich.onFolio 0 0 fun f => { f with st := .armed }
def epState : State := (rich.onDev fun d => { d with st := .endpaper }).onClk fun c => { c with good := 2047 }
def imgState : State := rich.onImg 0x10 fun x => { x with a := { x.a with len := 256 }, opened := some 0, begun := true }
def cfgState : State := rich.onImg 0x10 fun x => { x with a := { len := 256, bytes := (List.range 256).map fun k => (k, 0), valid := true, age := 1 } }
def idleState : State := up
def abortState : State := rich.onDev fun d => { d with held := [{ pkt := { code := 0x1009, req := { src := .mailbox, flags := 1, tag := 7, object := 0, seq := 3, params := [] } }, accepted := true, keys := [], waits := [], pnr := false, since := 0, at? := none, undo := [] }] }

def retState : State := rich.onSvc fun v => { v with retiredUnits := [{ kind := 3, phys := 31 }] }

/-- A packet of the mailbox, with FAST where its opcode is FAST. -/
def mailReq (sp : OpSpec) (obj : Nat) (ps : List Byte) (s : State) : Req :=
  { src := .mailbox, flags := if sp.fast then 5 else 1, tag := 0, object := BitVec.ofNat 32 obj, seq := (s.stream .mailbox).expect, params := ps }

/-- The commands of a packet on the state that has taken it. -/
def cmdsOf (code : Nat) (r : Req) (s : State) : List Cmd :=
  match Obj.ofId r.object.toNat with
  | some o => (packetOf code r).cmds (s.taken (packetOf code r)).live o
  | none => []

/-- What `Arrives` and `Passes` ask of a packet but for its token, its ranges and its further checks, with `t` the state after its token. -/
def passesAt (t : State) (code : Nat) (sp : OpSpec) (r : Req) (s : State) : Bool :=
  let p := packetOf code r
  let s1 := s.taken p
  let cs := cmdsOf code r s
  twf .reset s.dev.streams && s.reaches r.src && !s.pausedFor p && s.clk.stopAt.isNone && decide (r.seq = (s.stream r.src).expect) && (s.stream r.src).chain.isEmpty &&
    !p.timed && !p.chained && p.fast == sp.fast && !(sp.fast && p.signed) &&
    !decide (r.params.length < p.extra) && sp.fits (r.params.length - p.extra) && (Obj.ofId r.object.toNat).any sp.takes && cs.all (fun c => sp.objOk c.obj) &&
    cs.all (fun c => (sp.portErr c s1).isNone) && cs.all (fun c => (sp.stateErr c t).isNone) && cs.all (fun c => (sp.busyErr c t).isNone) &&
    decide (t.dev.mbox.places < 8) && (t.dev.st != .endpaper || p.isEp) && !cs.isEmpty

/-- The hypotheses of `Completes` are met by one packet. -/
def Met (code : Nat) (sp : OpSpec) (r : Req) (s : State) : Prop :=
  ∃ (o : Obj) (cs : List Cmd) (t : State), Arrives code sp r s ∧ Passes code sp r o cs (s.taken (packetOf code r)) t ∧
    ∀ e, (sp.runAll (t.claim { sp := sp, cmds := cs } r.src) cs).2 ≠ .fail e

theorem met_of {code : Nat} {sp : OpSpec} {r : Req} {s : State} (t : State) (h : passesAt t code sp r s = true)
    (ht : ∀ c ∈ cmdsOf code r s, sp.tokenErr c (s.taken (packetOf code r)) = (t, none))
    (hr : ∀ c ∈ cmdsOf code r s, c.range (sp.fields c t) = none) (hm : ∀ c ∈ cmdsOf code r s, sp.more c t = none)
    (hg : ∀ w, sp.regOver w t (cmdsOf code r s) = none)
    (hf : ∀ e, (sp.runAll (t.claim { sp := sp, cmds := cmdsOf code r s } r.src) (cmdsOf code r s)).2 ≠ .fail e) : Met code sp r s := by
  simp only [passesAt, Bool.and_eq_true, Bool.not_eq_true', decide_eq_true_eq, decide_eq_false_iff_not, List.all_eq_true, Option.isNone_iff_eq_none,
    List.isEmpty_iff, beq_iff_eq, Bool.or_eq_true, bne_iff_ne, ne_eq, Option.any_eq_true] at h
  obtain ⟨⟨⟨⟨⟨⟨⟨⟨⟨⟨⟨⟨⟨⟨⟨⟨⟨⟨⟨h1, h2⟩, h3⟩, hs⟩, h4⟩, h5⟩, h6⟩, h7⟩, h8⟩, h9⟩, h10⟩, h11⟩, ⟨o, ho, h12⟩⟩, h13⟩, h14⟩, h16⟩, h19⟩, h20⟩, h21⟩, h22⟩ := h
  have hc : cmdsOf code r s = (packetOf code r).cmds (s.taken (packetOf code r)).live o := by unfold cmdsOf; rw [ho]
  refine ⟨o, cmdsOf code r s, t, ⟨h1, h2, h3, (fun x hx => by rw [hs] at hx; cases hx), h4, h5, ⟨h6, h7⟩, h8, h9⟩, ⟨⟨h10, h11⟩, ⟨ho, h12⟩, ⟨hc, ?_⟩, h13, h14, ?_, h16, hr, hm, hg o.wild, h19,
    fun _ => h20, ?_⟩, hf⟩
  · intro hn; rw [hn] at h22; cases h22
  · intro c hd; exact ht c (List.mem_of_mem_head? hd)
  · intro he; exact h21.resolve_left fun hn => hn he

/-- The same as one test, for a packet without a token. -/
def passes (code : Nat) (sp : OpSpec) (r : Req) (s : State) : Bool :=
  let t := s.taken (packetOf code r)
  let cs := cmdsOf code r s
  passesAt t code sp r s && cs.all (fun c => !sp.token c t && !c.signed) && cs.all (fun c => (c.range (sp.fields c t)).isNone) &&
    cs.all (fun c => (sp.more c t).isNone) && (sp.regOver false t cs).isNone && (sp.regOver true t cs).isNone && (match (sp.runAll (t.claim { sp := sp, cmds := cs } r.src) cs).2 with | .fail _ => false | _ => true)

theorem met_of_passes {code : Nat} {sp : OpSpec} {r : Req} {s : State} (h : passes code sp r s = true) : Met code sp r s := by
  simp only [passes, Bool.and_eq_true, List.all_eq_true, Option.isNone_iff_eq_none, Bool.not_eq_true'] at h
  obtain ⟨⟨⟨⟨⟨⟨h1, h2⟩, h3⟩, h4⟩, hg1⟩, hg2⟩, h5⟩ := h
  refine met_of _ h1 (fun c hc => ?_) h3 h4 (fun w => by cases w <;> assumption) (fun e he => ?_)
  · simp [OpSpec.tokenErr, h2 c hc, failIf]
  · rw [he] at h5; cases h5

end Sys2Proof.Tests
end

