-- ==== Sys2Proof/Tests/Packets.lean ====
section
/-! SUPPORT. For every opcode whose checks need no signature, a packet on a small state that arrives and passes: the hypotheses of the completion
statements of the packet rows (O13 to O22) can be met. -/
set_option Elab.async false -- one thread at a time: each has a large stack

namespace Sys2Proof.Tests
open Sys2Proof.Machine

/-- Opcode, its description, the object ID, the parameters and the state. -/
abbrev PacketCase := Nat × OpSpec × Nat × List Byte × State

/-- The packet of a case arrives and passes. -/
def PacketCase.ok (e : PacketCase) : Bool := passes e.1 e.2.1 (mailReq e.2.1 e.2.2.1 e.2.2.2.1 e.2.2.2.2) e.2.2.2.2

theorem cases_met {l : List PacketCase} (h : l.all PacketCase.ok = true) :
    ∀ e ∈ l, Met e.1 e.2.1 (mailReq e.2.1 e.2.2.1 e.2.2.2.1 e.2.2.2.2) e.2.2.2.2 :=
  fun e he => met_of_passes (List.all_eq_true.mp h e he)

/-- Of DevicePacketsComplete. -/
def deviceCases : List PacketCase := [
  (0x0000, opDevNop, 0x00000000, par 0 [], rich),
  (0x0001, opDevInfo, 0x00000000, par 0 [], rich),
  (0x0002, opDevStatus, 0x00000000, par 0 [], rich),
  (0x0003, opSessionOpen, 0x00000000, par 4 [(0, 1)], rich),
  (0x0004, opSessionClose, 0x00000000, par 0 [], rich),
  (0x0005, opDevDeadlineSet, 0x00000000, par 12 [(0, 2), (4, 50), (8, 5000)], rich),
  (0x0006, opDevDeadlineGet, 0x00000000, par 4 [], rich),
  (0x0007, opDevRestart, 0x00000000, par 0 [], epState),
  (0x0008, opDevEndpaperEnter, 0x00000000, par 4 [], rich),
  (0x0009, opDevAddrSet, 0x00000000, par 4 [], rich),
  (0x000A, opCmdAbort, 0x00000000, par 8 [(1, 8), (2, 7), (4, 3)], abortState),
  (0x000B, opPortStatsGet, 0x00000000, par 4 [], rich),
  (0x0100, opImageInfo, 0x54000010, par 0 [], rich),
  (0x0101, opImageWriteBegin, 0x54000010, par 8 [(0, 256)], rich),
  (0x0102, opImageWriteData, 0x54000010, par 12 [], imgState),
  (0x0104, opImageErase, 0x54000010, par 0 [], rich),
  (0x0106, opPersSet, 0x04400000, par 4 [(0, 1), (2, NO)], rich),
  (0x0107, opPersGet, 0x04000000, par 0 [], rich),
  (0x0108, opQuireRelease, 0x04000000, par 0 [], rich)]
theorem wit_DevicePacketsComplete : ∀ e ∈ deviceCases, Met e.1 e.2.1 (mailReq e.2.1 e.2.2.1 e.2.2.2.1 e.2.2.2.2) e.2.2.2.2 :=
  cases_met (by decide +kernel)

/-- Of SynthesisPacketsComplete. -/
def synthesisCases : List PacketCase := [
  (0x0200, opSynLinesSet, 0x04000000, par 36 [], rich),
  (0x0201, opSynLinesGet, 0x04000000, par 0 [], rich),
  (0x0202, opCtxSet, 0x0C000000, par 32 [(0, 1), (1, 255), (2, 255)], rich),
  (0x0203, opCtxGet, 0x0C000000, par 0 [], rich),
  (0x0204, opCtxPhaseShift, 0x0C000000, par 4 [], rich),
  (0x0205, opEnvWrite, 0x04000000, par 12 [], rich),
  (0x0206, opEnvRead, 0x04000000, par 8 [(4, 1)], rich),
  (0x0207, opParamWrite, 0x08000000, par 20 [], rich),
  (0x0208, opParamRead, 0x08000000, par 4 [(2, 1)], rich),
  (0x0209, opSeqLoad, 0x08000000, par 20 [], rich),
  (0x020A, opSeqRead, 0x08000000, par 4 [(2, 1)], rich),
  (0x020B, opSeqConfig, 0x08000000, par 24 [(2, NO), (4, 16777215), (10, 50), (12, NO), (14, NO), (16, NO), (18, NO)], rich),
  (0x020C, opSeqRingSet, 0x08000000, par 24 [(2, 1), (4, 64), (16, 4096)], rich),
  (0x020D, opSeqArm, 0x08000000, par 4 [], rich),
  (0x020E, opSeqGo, 0x08000000, par 16 [(2, 100000)], armedState),
  (0x020F, opSeqStop, 0x08000000, par 4 [], rich),
  (0x0210, opSeqStatus, 0x08000000, par 0 [], rich),
  (0x0211, opFolioRegSet, 0x08000000, par 8 [], rich)]
theorem wit_SynthesisPacketsComplete : ∀ e ∈ synthesisCases, Met e.1 e.2.1 (mailReq e.2.1 e.2.2.1 e.2.2.2.1 e.2.2.2.2) e.2.2.2.2 :=
  cases_met (by decide +kernel)

/-- Of ReadoutPacketsComplete. -/
def readoutCases : List PacketCase := [
  (0x0300, opRoRouteSet, 0x04000000, par 4 [(1, 255)], rich),
  (0x0301, opRoRouteGet, 0x04000000, par 0 [], rich),
  (0x0302, opRsetSet, 0x14000000, par 48 [(32, 16), (36, NO), (38, NO)], rich),
  (0x0303, opRsetGet, 0x14000000, par 4 [], rich),
  (0x0304, opDiscSet, 0x14000000, par 48 [(1, 2)], rich),
  (0x0305, opDiscGet, 0x14000000, par 4 [], rich),
  (0x0306, opKernelWrite, 0x04000000, par 12 [], rich),
  (0x0307, opKernelRead, 0x04000000, par 8 [(4, 1)], rich),
  (0x0308, opRoStreamSet, 0x04000000, par 4 [], rich),
  (0x0309, opRoStatus, 0x14000000, par 0 [], rich),
  (0x030B, opWeaveGet, 0x04000000, par 0 [], rich),
  (0x030C, opCovarRun, 0x04000000, par 52 [(0, 1), (38, 100000), (48, 1024)], rich),
  (0x030D, opCovarRead, 0x04000000, par 4 [], rich)]
theorem wit_ReadoutPacketsComplete : ∀ e ∈ readoutCases, Met e.1 e.2.1 (mailReq e.2.1 e.2.2.1 e.2.2.2.1 e.2.2.2.2) e.2.2.2.2 :=
  cases_met (by decide +kernel)

/-- Of FeedbackPacketsComplete. -/
def feedbackCases : List PacketCase := [
  (0x0400, opFbLoad, 0x18000000, par 8 [], rich),
  (0x0401, opFbRead, 0x18000000, par 8 [(4, 1)], rich),
  (0x0402, opFbMemWrite, 0x18000000, par 8 [], rich),
  (0x0403, opFbMemRead, 0x18000000, par 8 [(4, 2)], rich),
  (0x0404, opFbConfig, 0x18000000, par 24 [(4, NO), (6, NO), (8, NO), (10, NO), (12, NO), (14, NO), (16, NO), (18, NO), (20, NO)], rich),
  (0x0405, opFbRouteSet, 0x04000000, par 8 [], rich),
  (0x0406, opFbRouteGet, 0x04000000, par 4 [], rich),
  (0x0407, opFbFlagOwnerSet, 0x04000000, par 64 [], rich),
  (0x0408, opFbFlagSet, 0x04000000, par 16 [], rich),
  (0x0409, opFbFlagGet, 0x04000000, par 0 [], rich),
  (0x040A, opFbStart, 0x04000000, par 8 [(0, 1)], rich),
  (0x040B, opFbStop, 0x04000000, par 4 [(0, 1)], rich),
  (0x040C, opFbSwap, 0x18000000, par 4 [], rich),
  (0x040D, opFbStatus, 0x18000000, par 0 [], rich)]
theorem wit_FeedbackPacketsComplete : ∀ e ∈ feedbackCases, Met e.1 e.2.1 (mailReq e.2.1 e.2.2.1 e.2.2.2.1 e.2.2.2.2) e.2.2.2.2 :=
  cases_met (by decide +kernel)

/-- Of IntakeAndPlanPacketsComplete. -/
def intakeAndPlanCases : List PacketCase := [
  (0x0500, opIntakeSrcSet, 0x24000000, par 24 [(0, 2), (1, 4), (4, 3), (8, 1), (12, 1)], rich),
  (0x0501, opIntakeSrcGet, 0x24000000, par 0 [], rich),
  (0x0502, opIntakeDelaySet, 0x24000000, par 8 [], rich),
  (0x0503, opChanSet, 0x20200000, par 16 [(1, 4), (2, 6), (3, 8), (6, 16), (10, 32)], srcState),
  (0x0504, opChanGet, 0x20200000, par 0 [], rich),
  (0x0505, opChanCoefWrite, 0x20200000, par 12 [], rich),
  (0x0506, opChanCoefRead, 0x20200000, par 8 [(4, 2)], rich),
  (0x0507, opGainWrite, 0x24000000, par 8 [], planState),
  (0x0508, opGainRead, 0x24000000, par 4 [(2, 2)], planState),
  (0x0509, opCtSet, 0x00000000, par 16 [(0, 1), (2, 1), (4, 16), (6, 32), (8, 64), (12, 2)], bigState),
  (0x050A, opCtGet, 0x00000000, par 0 [], rich),
  (0x050B, opIntakeStatsGet, 0x24000000, par 4 [], rich),
  (0x0600, opCorrPlanSet, 0x00000000, par 32 [(0, 4), (2, 4), (8, 256), (12, 1), (16, 1), (24, NO), (26, NO)], planState),
  (0x0601, opCorrPlanGet, 0x00000000, par 0 [], rich),
  (0x0602, opCorrExportSet, 0x00000000, par 24 [(0, 1)], rich),
  (0x0603, opCorrStart, 0x00000000, par 16 [(2, 200000)], corrState),
  (0x0604, opCorrStop, 0x00000000, par 4 [], corrRun),
  (0x0605, opBeamPlanSet, 0x00000000, par 24 [(0, 8), (2, 4), (3, 8), (4, 32), (8, 16), (10, 1), (12, 1), (16, NO), (18, NO)], planState),
  (0x0606, opBeamPlanGet, 0x00000000, par 0 [], rich),
  (0x0607, opBeamExportSet, 0x00000000, par 48 [(2, 32), (4, 0x80000000)], beamState),
  (0x0608, opBeamWeightCommit, 0x00000000, par 4 [(0, 1)], rich),
  (0x0609, opBeamStart, 0x00000000, par 16 [(2, 200000)], beamState),
  (0x060A, opBeamStop, 0x00000000, par 4 [], beamRun),
  (0x060B, opPlanStatus, 0x00000000, par 4 [], rich)]
theorem wit_IntakeAndPlanPacketsComplete : ∀ e ∈ intakeAndPlanCases, Met e.1 e.2.1 (mailReq e.2.1 e.2.2.1 e.2.2.2.1 e.2.2.2.2) e.2.2.2.2 :=
  cases_met (by decide +kernel)

/-- Of ConverterAndLinkPacketsComplete. -/
def converterAndLinkCases : List PacketCase := [
  (0x0700, opDacLineSet, 0x44000000, par 32 [(0, 8)], rich),
  (0x0701, opDacLineGet, 0x44000000, par 0 [], rich),
  (0x0702, opRfMuteSet, 0x00000000, par 8 [(0, 1)], rich),
  (0x0703, opRfUnmute, 0x00000000, par 8 [(0, 1)], rich),
  (0x0704, opRfMutePolicySet, 0x00000000, par 4 [], rich),
  (0x0705, opAdcLineSet, 0x48000000, par 32 [(0, 1), (1, 1)], rich),
  (0x0706, opAdcLineGet, 0x48000000, par 0 [], rich),
  (0x0707, opConvCalPolicySet, 0x44000000, par 8 [(2, 60)], rich),
  (0x0708, opConvCalRun, 0x44000000, par 4 [], rich),
  (0x0709, opConvStatus, 0x44000000, par 0 [], rich),
  (0x0800, opLaneCfgSet, 0x24001000, par 8 [(2, 100)], rich),
  (0x0801, opLaneStatus, 0x24000800, par 4 [], rich),
  (0x0802, opLaneEqSet, 0x24000800, par 12 [(4, 0x8000000000000100)], rich),
  (0x0803, opLaneTest, 0x24000800, par 8 [(2, 10)], laneState),
  (0x0804, opLaneSwap, 0x28000800, par 4 [], laneState),
  (0x0805, opPortCfgSet, 0x28000000, par 8 [(0, 10)], rich),
  (0x0806, opPortStatus, 0x28000000, par 4 [], rich),
  (0x0807, opLinkTopoSet, 0x00000000, par 8 [(5, 1)], rich),
  (0x0808, opLinkTopoGet, 0x00000000, par 0 [], rich),
  (0x0809, opPeerCmdSend, 0x28000000, par 24 [(0, 1), (4, 1)], rich),
  (0x080A, opBulkRxSet, 0x00000000, par 16 [(2, 255), (8, NO)], rich),
  (0x080B, opBulkRxStatus, 0x00000000, par 4 [], rich)]
theorem wit_ConverterAndLinkPacketsComplete : ∀ e ∈ converterAndLinkCases, Met e.1 e.2.1 (mailReq e.2.1 e.2.2.1 e.2.2.2.1 e.2.2.2.2) e.2.2.2.2 :=
  cases_met (by decide +kernel)

/-- Of TimeAndClockPacketsComplete. -/
def timeAndClockCases : List PacketCase := [
  (0x0900, opTimeGet, 0x00000000, par 0 [], rich),
  (0x0902, opTimeCfgSet, 0x00000000, par 16 [(1, 4), (4, 1000), (8, 10), (10, NO), (12, NO)], rich),
  (0x0903, opTimeCfgGet, 0x00000000, par 0 [], rich),
  (0x0904, opTimeStatus, 0x00000000, par 0 [], rich),
  (0x0906, opTimeAsymSet, 0x28000000, par 8 [], rich),
  (0x0907, opTimePortStatus, 0x28000000, par 0 [], rich),
  (0x0908, opTimeTxtsRead, 0x28000000, par 4 [(0, 1)], rich),
  (0x0909, opTrigSet, 0x40000000, par 32 [(3, 1), (30, NO)], rich),
  (0x090A, opTrigGet, 0x40000000, par 0 [], rich),
  (0x090B, opTrigInRead, 0x40000000, par 4 [(0, 1)], rich),
  (0x090C, opLaunchSet, 0x28000000, par 48 [(6, 100000), (16, 4), (28, 16)], rich),
  (0x090D, opLaunchCancel, 0x28000000, par 4 [], rich),
  (0x090E, opLaunchStatus, 0x28000000, par 0 [], rich),
  (0x0A00, opRefCfgSet, 0x00000000, par 12 [(4, 60), (8, NO)], rich),
  (0x0A01, opRefStatus, 0x00000000, par 0 [], rich),
  (0x0A02, opFreqMeasure, 0x00000000, par 8 [(1, 1), (4, 10)], rich),
  (0x0A03, opIslandStatus, 0x4C000000, par 0 [], rich),
  (0x0A04, opDvfsSet, 0x04000000, par 4 [], rich),
  (0x0A05, opDvfsGet, 0x04000000, par 0 [], rich),
  (0x0A06, opEnergyRead, 0x00000000, par 0 [], rich),
  (0x0A07, opWorkRead, 0x04000000, par 0 [], rich),
  (0x0A08, opSupplyCfgSet, 0x00000000, par 4 [(0, 1)], rich),
  (0x0A09, opSupplyStatus, 0x00000000, par 0 [], rich)]
theorem wit_TimeAndClockPacketsComplete : ∀ e ∈ timeAndClockCases, Met e.1 e.2.1 (mailReq e.2.1 e.2.2.1 e.2.2.2.1 e.2.2.2.2) e.2.2.2.2 :=
  cases_met (by decide +kernel)

/-- Of CaptureAndIntervalPacketsComplete. -/
def captureAndIntervalCases : List PacketCase := [
  (0x0B00, opCapConfig, 0x2C000000, par 40 [(8, 1), (12, 1), (16, 64), (24, NO), (26, NO), (28, NO)], rich),
  (0x0B01, opCapConfigGet, 0x2C000000, par 0 [], rich),
  (0x0B02, opCapTrigSet, 0x2C000000, par 16 [(1, 1), (2, 1), (10, NO)], capState),
  (0x0B03, opCapMaskWrite, 0x2C000000, par 8 [], rich),
  (0x0B04, opCapArm, 0x2C000000, par 4 [], capState),
  (0x0B05, opCapForce, 0x2C000000, par 4 [], rich),
  (0x0B06, opCapStop, 0x2C000000, par 4 [], rich),
  (0x0B07, opCapStatus, 0x2C000000, par 0 [], rich),
  (0x0B08, opCapHdrRead, 0x2C000000, par 8 [(4, 1)], capState),
  (0x0C00, opTinInputSet, 0x30000000, par 8 [], rich),
  (0x0C01, opTinInputGet, 0x30000000, par 0 [], rich),
  (0x0C02, opTinCalRun, 0x30000000, par 4 [(1, 16)], rich),
  (0x0C03, opTinCalRead, 0x30000000, par 8 [(4, 1)], rich),
  (0x0C04, opTinMeasSet, 0x30000000, par 24 [(1, 8), (2, 1), (3, 255), (6, NO), (12, 1), (16, NO), (18, NO)], up),
  (0x0C05, opTinMeasStart, 0x30000000, par 16 [], tinState),
  (0x0C06, opTinMeasStop, 0x30000000, par 4 [], rich),
  (0x0C07, opTinStatsRead, 0x30000000, par 0 [], rich),
  (0x0C08, opTinStampRead, 0x30000000, par 4 [(0, 1)], rich),
  (0x0C09, opTinStatus, 0x30000000, par 0 [], rich)]
theorem wit_CaptureAndIntervalPacketsComplete : ∀ e ∈ captureAndIntervalCases, Met e.1 e.2.1 (mailReq e.2.1 e.2.2.1 e.2.2.2.1 e.2.2.2.2) e.2.2.2.2 :=
  cases_met (by decide +kernel)

/-- Of BiasAndMonitorPacketsComplete. -/
def biasAndMonitorCases : List PacketCase := [
  (0x0D00, opBiasSet, 0x34000000, par 8 [], biasState),
  (0x0D01, opBiasGet, 0x34000000, par 0 [], rich),
  (0x0D02, opBiasRangeSet, 0x34000000, par 8 [(0, 1)], biasState),
  (0x0D03, opBiasGenSet, 0x34000000, par 32 [(22, 100000)], biasState),
  (0x0D04, opBiasTableWrite, 0x00000000, par 8 [(0, 1)], rich),
  (0x0D05, opBiasSafetySet, 0x34000000, par 32 [(20, 1), (22, 1)], rich),
  (0x0D06, opBiasStatus, 0x34000000, par 0 [], rich),
  (0x0D07, opBiasCalRun, 0x34000000, par 12 [], biasState),
  (0x0E00, opMonChSet, 0x38000000, par 32 [], rich),
  (0x0E01, opMonChGet, 0x38000000, par 0 [], rich),
  (0x0E02, opMonSeqWrite, 0x00000000, par 12 [(1, 1), (9, 1)], rich),
  (0x0E03, opMonSeqRun, 0x00000000, par 8 [(2, NO), (4, NO)], rich),
  (0x0E04, opMonRead, 0x38000000, par 0 [], rich),
  (0x0E05, opMonInject, 0x38000000, par 4 [], rich),
  (0x0E06, opMonSyscal, 0x38000000, par 12 [(1, 4)], rich),
  (0x0E07, opCalCfgSet, 0x00000000, par 8 [(1, 1), (2, 10000), (4, 100)], rich),
  (0x0E08, opCalStatus, 0x00000000, par 0 [], rich),
  (0x0E09, opMonStatus, 0x00000000, par 0 [], rich)]
theorem wit_BiasAndMonitorPacketsComplete : ∀ e ∈ biasAndMonitorCases, Met e.1 e.2.1 (mailReq e.2.1 e.2.2.1 e.2.2.2.1 e.2.2.2.2) e.2.2.2.2 :=
  cases_met (by decide +kernel)

/-- Of EventServiceAndTrustPacketsComplete. -/
def eventServiceAndTrustCases : List PacketCase := [
  (0x0F00, opEvChanSet, 0x3C000000, par 4 [], rich),
  (0x0F01, opEvChanGet, 0x3C000000, par 0 [], rich),
  (0x0F02, opEvRouteAdd, 0x3C000000, par 16 [(0, 1), (2, 1)], rich),
  (0x0F03, opEvRouteDel, 0x3C000000, par 16 [(0, 5)], evState),
  (0x0F04, opEvFire, 0x00000000, par 32 [(0, 1)], evState),
  (0x0F05, opEvStatus, 0x3C000000, par 4 [], rich),
  (0x0F06, opEvCoincRead, 0x00000000, par 4 [(0, 1)], rich),
  (0x1000, opFaultLogRead, 0x00000000, par 8 [(4, 1)], rich),
  (0x1001, opFaultPolicySet, 0x00000000, par 8 [(2, 1), (4, NO)], rich),
  (0x1002, opSpareStatus, 0x00000000, par 0 [], rich),
  (0x1003, opSelftestRun, 0x00000000, par 8 [(0, 3), (4, 31)], idleState),
  (0x1004, opUnitReadmit, 0x00000000, par 8 [(0, 3), (4, 31)], retState),
  (0x1005, opUnitRetire, 0x00000000, par 8 [(0, 3), (4, 31)], idleState),
  (0x1006, opQuireMigrate, 0x04000000, par 4 [], rich),
  (0x1008, opFwConfirm, 0x00000000, par 0 [], trialState),
  (0x1009, opMemAlloc, 0x00000000, par 16 [(0, 65536)], rich),
  (0x100A, opMemFree, 0x50000001, par 0 [], rich),
  (0x100B, opMemInfo, 0x50000001, par 0 [], rich),
  (0x1100, opIdCertGet, 0x00000000, par 8 [(4, 4)], rich),
  (0x1101, opTrustNonceGet, 0x00000000, par 0 [], rich),
  (0x1102, opColophonGet, 0x00000000, par 32 [], rich),
  (0x1103, opCfgLogRead, 0x00000000, par 4 [(0, 1)], rich),
  (0x1106, opOwnerKeyGet, 0x00000000, par 0 [], rich),
  (0x1109, opPrivGet, 0x00000000, par 0 [], rich),
  (0x110B, opCtrGet, 0x00000000, par 0 [], rich),
  (0x110D, opDebugLock, 0x00000000, par 4 [], rich)]
theorem wit_EventServiceAndTrustPacketsComplete : ∀ e ∈ eventServiceAndTrustCases, Met e.1 e.2.1 (mailReq e.2.1 e.2.2.1 e.2.2.2.1 e.2.2.2.2) e.2.2.2.2 :=
  cases_met (by decide +kernel)


/-! ### Packets whose checks rest on what the spec leaves to cryptography

Whether a signature verifies, what a hash is, whether a point lies on the curve and what a configuration image holds are constants without a body;
the hypotheses of these packets can be met where those constants are as stated. -/

/-- The token of R560 for an opcode, with key 1, nonce, hash and signature all zero. -/
def tok (code : Nat) : List Byte := par 176 [(0, 1), (2, 1), (4, code)]

/-- A copy of an image: 256 bytes that begin with 32 zeros. -/
def copyA : ImgCopy := { len := 256, bytes := (List.range 32).map (fun k => (k, 0)), valid := true, age := 1 }

/-- A device with two owner keys, a nonce for the mailbox, firmware in slots 0 and 1, a configuration in slot 0 and no other image. -/
def owned : State := (rich.onTrust fun x =>
    { x with keys := [.valid (zeros 97), .valid (zeros 97), .empty, .empty], nonces := [(Src.mailbox.key, some (zeros 16, 0))] }).onDev fun d =>
  { d with images := [(0, { ImgSlot.empty with a := copyA }), (1, { ImgSlot.empty with a := copyA }), (2, .empty), (0x10, { ImgSlot.empty with a := copyA }),
      (0x80, .empty), (0x81, .empty), (0x82, .empty)] }

/-- A signed packet of the mailbox. -/
def signedReq (code obj : Nat) (ps : List Byte) (s : State) : Req :=
  { src := .mailbox, flags := 9, tag := 0, object := BitVec.ofNat 32 obj, seq := (s.stream .mailbox).expect, params := ps ++ tok code }

/-- The state after a token has been taken. -/
def spent (r : Req) (s : State) : State := s.onTrust fun x => { x with nonces := terase x.nonces r.src.key }

/-- The part of a token check that needs no cryptography. -/
def tokOk (s : State) (c : Cmd) : Bool :=
  let t := c.pkt.req.params.drop (c.pkt.req.params.length - 176)
  (c.ownerErr s).isNone && c.signed && Sys2Proof.u t 0 2 == 1 && allZero (slice t 3 1) && Sys2Proof.u t 4 2 == c.pkt.code && allZero (slice t 6 2) &&
    Sys2Proof.u t 8 8 == 0 && (c.tokenKey s (Sys2Proof.u t 2 1)).isSome && slice t 32 48 == zeros 48 &&
    (match tget none s.trust.nonces c.pkt.req.src.key with
      | some (n, a) => n == slice t 16 16 && !decide (a + 300 * uS ≤ s.now)
      | none => false)

theorem token_ok (hS : Config.serial = 0) (hH : ∀ b, Config.sha384 b = zeros 48) (hV : ∀ k b g, Config.verifies k b g = true) (sp : OpSpec) (c : Cmd)
    (s : State) (h : tokOk s c = true) (hn : sp.token c s = true) : sp.tokenErr c s = (spent c.pkt.req s, none) := by
  simp only [tokOk, Bool.and_eq_true, beq_iff_eq, Option.isNone_iff_eq_none, Option.isSome_iff_exists] at h
  obtain ⟨⟨⟨⟨⟨⟨⟨⟨⟨h1, h2⟩, h3⟩, h4⟩, h5⟩, h6⟩, h7⟩, ⟨k, h8⟩⟩, h9⟩, h10⟩ := h
  have h0 : c.tokenCheck s = (spent c.pkt.req s, none) := by
    unfold Cmd.tokenCheck
    simp only [h3, h4, h5, h6, h7, hS, h8, hH, h9, hV]
    split at h10
    · rename_i n a hn
      simp only [Bool.and_eq_true, beq_iff_eq, Bool.not_eq_true', decide_eq_false_iff_not] at h10
      rw [hn]
      simp [h10.1, h10.2, spent]
    · cases h10
  unfold OpSpec.tokenErr
  simp [h1, h2, h0, hn]

/-- What is left to test of a signed packet. -/
def signedOk (sp : OpSpec) (code obj : Nat) (ps : List Byte) (s : State) : Bool :=
  let r := signedReq code obj ps s
  let t := spent r (s.taken (packetOf code r))
  let cs := cmdsOf code r s
  passesAt t code sp r s && cs.all (fun c => tokOk (s.taken (packetOf code r)) c && sp.token c (s.taken (packetOf code r))) && (sp.regOver false t cs).isNone && (sp.regOver true t cs).isNone && cs.all (fun c => (sp.more c t).isNone) &&
    cs.all (fun c => decide (c.pkt.req = r)) && (match (sp.runAll (t.claim { sp := sp, cmds := cs } r.src) cs).2 with | .fail _ => false | _ => true)

theorem signed_met (hS : Config.serial = 0) (hH : ∀ b, Config.sha384 b = zeros 48) (hV : ∀ k b g, Config.verifies k b g = true) (sp : OpSpec)
    (code obj : Nat) (ps : List Byte) (s : State) (h : signedOk sp code obj ps s = true)
    (hr : ∀ c ∈ cmdsOf code (signedReq code obj ps s) s, c.range (sp.fields c (spent (signedReq code obj ps s) (s.taken (packetOf code (signedReq code obj ps s))))) = none) :
    Met code sp (signedReq code obj ps s) s := by
  simp only [signedOk, Bool.and_eq_true, List.all_eq_true, Option.isNone_iff_eq_none, decide_eq_true_eq] at h
  obtain ⟨⟨⟨⟨⟨⟨h1, h2⟩, hg1⟩, hg2⟩, h3⟩, h4⟩, h5⟩ := h
  refine met_of _ h1 (fun c hc => ?_) hr h3 (fun w => by cases w <;> assumption) (fun e he => ?_)
  · rw [token_ok hS hH hV sp c _ (h2 c hc).1 (h2 c hc).2, h4 c hc]
  · rw [he] at h5; cases h5

/-- The packets that need a token: opcode, description, object, parameters and state. -/
def signedCases : List PacketCase := [
  (0x0901, opTimeSet, 0, par 24 [(2, 100000), (14, 100000)], owned),
  (0x0905, opTimeStepAuth, 0, par 12 [(4, 1)], owned.onTmu fun t => { t with pending := some 5 }),
  (0x1007, opFwActivate, 0x54000001, par 4 [(0, 10)], owned),
  (0x1105, opOwnerKeyRevoke, 0, par 4 [(0, 1)], owned),
  (0x1107, opOwnerRelease, 0, par 4 [], owned),
  (0x1108, opPrivSet, 0, par 4 [], owned),
  (0x110A, opCtrAdvance, 0, par 4 [(0, 5), (2, 1)], owned),
  (0x110C, opDebugUnlock, 0, par 4 [(0, 1)], owned)]

/-- What is tested of each of them. -/
def PacketCase.signedOk (e : PacketCase) : Bool :=
  let r := signedReq e.1 e.2.2.1 e.2.2.2.1 e.2.2.2.2
  Tests.signedOk e.2.1 e.1 e.2.2.1 e.2.2.2.1 e.2.2.2.2 &&
    (cmdsOf e.1 r e.2.2.2.2).all fun c => (c.range (e.2.1.fields c (spent r (e.2.2.2.2.taken (packetOf e.1 r))))).isNone

/-- Of ConverterAndLink-, TimeAndClock- and EventServiceAndTrustPacketsComplete: the packets that need a token. -/
theorem wit_signedPackets (hS : Config.serial = 0) (hH : ∀ b, Config.sha384 b = zeros 48) (hV : ∀ k b g, Config.verifies k b g = true) :
    ∀ e ∈ signedCases, Met e.1 e.2.1 (signedReq e.1 e.2.2.1 e.2.2.2.1 e.2.2.2.2) e.2.2.2.2 := by
  have h : signedCases.all PacketCase.signedOk = true := by decide +kernel
  intro e he
  have h1 := List.all_eq_true.mp h e he
  simp only [PacketCase.signedOk, Bool.and_eq_true, List.all_eq_true, Option.isNone_iff_eq_none] at h1
  exact signed_met hS hH hV _ _ _ _ _ h1.1 h1.2

/-- OWNER_KEY_SET on an owned device, with a key that is a point of the curve. -/
theorem wit_ownerKeySet (hS : Config.serial = 0) (hH : ∀ b, Config.sha384 b = zeros 48) (hV : ∀ k b g, Config.verifies k b g = true)
    (hP : ∀ b, Config.pointOnCurve b = true) :
    Met 0x1104 opOwnerKeySet (signedReq 0x1104 0 (par 104 [(0, 3), (4, 4)]) owned) owned := by
  refine signed_met hS hH hV _ _ _ _ _ (by decide +kernel) (fun c hc => ?_)
  have h : (cmdsOf 0x1104 (signedReq 0x1104 0 (par 104 [(0, 3), (4, 4)]) owned) owned).all (fun c =>
      [fU 0 1 1 4, fR 1 3, fX 4 (fun p => Sys2Proof.u p 4 1 == 4), fR 101 3].all fun f => f.ok c.p) = true := by decide +kernel
  have h1 := List.all_eq_true.mp h c hc
  simp only [List.all_cons, List.all_nil, Bool.and_true, Bool.and_eq_true] at h1
  unfold Cmd.range
  simp only [opOwnerKeySet, List.find?_cons, h1.1, h1.2.1, h1.2.2.2, fX, hP, Bool.and_true]
  have h2 := h1.2.2.1
  simp only [fX] at h2
  simp [h2]

/-- An owned device with an image of a configuration that has been written and is ready for its commit. -/
def committing : State := owned.onImg 0x10 fun x =>
  { x with a := { len := 256, bytes := (par 256 [(0, 0x494E5341), (4, 1), (6, 2), (8, 1), (9, 5), (20, 32)]).zipIdx.map (fun e => (e.2, e.1)), valid := false, age := 0 },
           opened := some 0, begun := true }

/-- The commit, and its command. -/
def commitReq : Req := mailReq opImageCommit 0x54000010 [] committing
def commitCmd : Cmd :=
  { pkt := packetOf 0x0103 commitReq, obj := { cls := .image, quire := 0, folio := 0, ctx := 0, index := 16 }, p := [], timed := false, signed := false }

theorem commit_run (c : Cmd) (s : State) (n : Nat) (ho : (s.img c.i).opened = some n) (hi : s.imageErr c.i ((s.img c.i).copy n) = none) :
    (opImageCommit.run c s).2 = .accepted [wait .imageCommit c.i 0] false none := by
  simp [opImageCommit, ho, hi]

/-- IMAGE_COMMIT of an image whose hash and signature are right. -/
theorem wit_imageCommit (hH : ∀ b, Config.sha384 b = zeros 48) (hV : ∀ k b g, Config.verifies k b g = true) :
    Met 0x0103 opImageCommit commitReq committing := by
  have hc : cmdsOf 0x0103 commitReq committing = [commitCmd] := by decide +kernel
  have hi : (((committing.taken (packetOf 0x0103 commitReq)).claim { sp := opImageCommit, cmds := [commitCmd] } .mailbox).imageErr 16
      ((((committing.taken (packetOf 0x0103 commitReq)).claim { sp := opImageCommit, cmds := [commitCmd] } .mailbox).img 16).copy 0)) = none := by
    unfold State.imageErr
    simp only [hH, hV]
    decide +kernel
  refine met_of (committing.taken (packetOf 0x0103 commitReq)) (by decide +kernel) ?_ ?_ ?_ (by decide +kernel) ?_
  · rw [hc]; intro c h
    obtain rfl : c = commitCmd := by simpa using h
    rfl
  · intro c _; rfl
  · intro c _; rfl
  · rw [hc]; intro e he
    have hx : (((committing.taken (packetOf 0x0103 commitReq)).claim { sp := opImageCommit, cmds := [commitCmd] } .mailbox).img 16).opened = some 0 := by
      decide +kernel
    have hr := commit_run commitCmd _ 0 hx hi
    simp only [OpSpec.runAll] at he
    rw [show commitReq.src = .mailbox from rfl, hr] at he
    cases he

/-- CONFIG_APPLY of an image whose section makes no settings. -/
def applyReq : Req := mailReq opConfigApply 0x00000000 (par 4 []) owned
theorem wit_configApply (hC : ∀ b n, Config.imageSection b n = []) : Met 0x0105 opConfigApply applyReq owned := by
  have h : (cmdsOf 0x0105 applyReq owned).all (fun c => !c.signed && (c.range (opConfigApply.fields c (owned.taken (packetOf 0x0105 applyReq)))).isNone &&
      c.u 0 2 == 0 && decide (c.obj.cls = .device)) = true := by decide +kernel
  simp only [List.all_eq_true, Bool.and_eq_true, Bool.not_eq_true', Option.isNone_iff_eq_none, beq_iff_eq, decide_eq_true_eq] at h
  have hi : (owned.taken (packetOf 0x0105 applyReq)).cfgImage 0 = some copyA := by decide +kernel
  refine met_of (owned.taken (packetOf 0x0105 applyReq)) (by decide +kernel) (fun c hc => ?_) (fun c hc => (h c hc).1.1.2) (fun c hc => ?_) (by decide +kernel) ?_
  · simp [OpSpec.tokenErr, opConfigApply, (h c hc).1.1.1, failIf]
  · simp only [opConfigApply, (h c hc).1.2, (h c hc).2]
    unfold State.sectionErr
    rw [hi]
    have hv : ¬ (owned.taken (packetOf 0x0105 applyReq)).fwVersion (owned.taken (packetOf 0x0105 applyReq)).dev.fwRunning < copyA.u 16 4 := by decide +kernel
    simp only [ImgCopy.section', hC, hv, if_false]
    rfl
  · intro e he
    have hc : (cmdsOf 0x0105 applyReq owned).length = 1 ∧ (cmdsOf 0x0105 applyReq owned).all (fun c => decide (c.obj.cls = .device)) = true := by decide +kernel
    cases hl : cmdsOf 0x0105 applyReq owned with
    | nil => rw [hl] at hc; exact absurd hc.1 (by simp)
    | cons c cs =>
      rw [hl] at hc he
      cases cs with
      | nil =>
        have hd : c.obj.cls = .device := by simpa using hc.2
        simp [OpSpec.runAll, opConfigApply, hd, Cmd.answer] at he
      | cons c' cs' => exact absurd hc.1 (by simp)

/-! ### WEAVE_SET

Its 2,088 bytes of zeros are in range field by field. -/

/-- A field of zero bytes is 0. -/
theorem u_zeros (m off n : Nat) : Sys2Proof.u (zeros m) off n = 0 := by
  have h : ∀ k, leNat (List.replicate k (0 : Byte)) = 0 := by
    intro k
    induction k with
    | zero => rfl
    | succ k ih => rw [List.replicate_succ, leNat, ih]; rfl
  unfold Sys2Proof.u slice zeros
  rw [List.drop_replicate, List.take_replicate]
  exact h _

theorem allZero_zeros (m off n : Nat) : allZero (slice (zeros m) off n) = true := by
  unfold allZero slice zeros
  rw [List.drop_replicate, List.take_replicate, List.all_replicate]
  simp

theorem weave_range (c : Cmd) (s : State) (h : c.p = zeros 2088) : c.range (opWeaveSet.fields c s) = none := by
  have hf : (opWeaveSet.fields c s).find? (fun f => !f.ok c.p) = none := by
    rw [List.find?_eq_none, h]
    generalize zeros 2088 = z, u_zeros 2088 = hz, allZero_zeros 2088 = ha
    intro f hf
    simp only [opWeaveSet, List.mem_append, List.mem_map, List.mem_cons, List.not_mem_nil, or_false] at hf
    rcases hf with ((rfl | rfl | rfl | rfl) | ⟨j, _, rfl⟩) | ⟨k, _, rfl⟩ <;> simp [fU, fR, fX, msetField, hz, ha]
  unfold Cmd.range
  rw [hf]

/-- The packet. -/
def weaveReq : Req := mailReq opWeaveSet 0x04000000 (zeros 2088) rich
theorem wit_weaveSet : Met 0x030A opWeaveSet weaveReq rich := by
  have h : (cmdsOf 0x030A weaveReq rich).all (fun c => !c.signed && decide (c.p = zeros 2088) &&
      (opWeaveSet.more c (rich.taken (packetOf 0x030A weaveReq))).isNone) = true := by decide +kernel
  simp only [List.all_eq_true, Bool.and_eq_true, Bool.not_eq_true', decide_eq_true_eq, Option.isNone_iff_eq_none] at h
  refine met_of (rich.taken (packetOf 0x030A weaveReq)) (by decide +kernel) (fun c hc => ?_) (fun c hc => weave_range c _ (h c hc).1.2)
    (fun c hc => (h c hc).2) (by decide +kernel) ?_
  · simp [OpSpec.tokenErr, opWeaveSet, (h c hc).1.1, failIf]
  · intro e he
    have hc : (match (opWeaveSet.runAll ((rich.taken (packetOf 0x030A weaveReq)).claim { sp := opWeaveSet, cmds := cmdsOf 0x030A weaveReq rich } weaveReq.src)
        (cmdsOf 0x030A weaveReq rich)).2 with | .fail _ => false | _ => true) = true := by decide +kernel
    rw [he] at hc; cases hc

end Sys2Proof.Tests
end

