-- ==== Sys2Proof/Tests/RowsA.lean ====
section
/-! SUPPORT. States that meet the hypotheses of the statements, clause by clause: packets, host interface, SMBus, deadlines, step words, Folios, read-out
and feedback cores (O2 to O12, O24 to O33). -/
set_option Elab.async false -- one thread at a time: each has a large stack

namespace Sys2Proof.Tests
open Sys2Proof.Machine

/-! ### Packets in general (O2 to O12) -/

theorem wit_EmptyQueuePassesOneTick : State.reset.pending = [] := rfl

/-- A DEV_NOP of the mailbox. -/
def nop (flags : BitVec 8) (seq : BitVec 32) (ps : List Byte) : Req := { src := .mailbox, flags := flags, tag := 7, object := 0, seq := seq, params := ps }

/-- A stream that has taken the first DEV_NOP and stores its reply. -/
def tookNop : State := rich.onStream .mailbox fun t => { t with expect := 1, last := some (packetOf 0 (nop 1 0 [])).crc, stored := some [1, 2, 3] }

theorem wit_PacketRowsAreReceived : (Instr.devNop (nop 1 0 [])).packet? = some (0, nop 1 0 []) := rfl

theorem wit_OutOfSequencePacketsAreRefused :
    (Instr.memInfo (nop 1 5 [])).packet? = some (0x100B, nop 1 5 []) ∧ rich.reaches .mailbox = true ∧ rich.pausedFor (packetOf 0x100B (nop 1 5 [])) = false ∧
      (5 : BitVec 32) ≠ (rich.stream .mailbox).expect ∧ ¬((5 : BitVec 32) + 1 = (rich.stream .mailbox).expect ∧
        (rich.stream .mailbox).last = some (packetOf 0x100B (nop 1 5 [])).crc) := by
  decide +kernel

/-- One witness for a stored reply, one for a command still in flight. -/
theorem wit_DuplicatesAreNotRunAgain :
    (Instr.devNop (nop 1 0 [])).packet? = some (0, nop 1 0 []) ∧
      (∀ s ∈ [tookNop, tookNop.onDev fun d => { d with held := [⟨packetOf 0 (nop 1 0 []), true, [], [], false, 0, none, []⟩] }],
        s.reaches .mailbox = true ∧ s.pausedFor (packetOf 0 (nop 1 0 [])) = false ∧ (0 : BitVec 32) ≠ (s.stream .mailbox).expect ∧
        (0 : BitVec 32) + 1 = (s.stream .mailbox).expect ∧ (s.stream .mailbox).last = some (packetOf 0 (nop 1 0 [])).crc) ∧
      tookNop.inFlight (packetOf 0 (nop 1 0 [])) = false ∧ (tookNop.stream .mailbox).stored = some [1, 2, 3] ∧
      (tookNop.onDev fun d => { d with held := [⟨packetOf 0 (nop 1 0 []), true, [], [], false, 0, none, []⟩] }).inFlight (packetOf 0 (nop 1 0 [])) = true := by
  decide +kernel

theorem wit_ChainedPacketsWaitForTheLast :
    (Instr.memInfo (nop 17 0 [])).packet? = some (0x100B, nop 17 0 []) ∧ twf .reset rich.dev.streams = true ∧ rich.reaches .mailbox = true ∧
      rich.pausedFor (packetOf 0x100B (nop 17 0 [])) = false ∧ (0 : BitVec 32) = (rich.stream .mailbox).expect ∧
      (packetOf 0x100B (nop 17 0 [])).chained = true ∧ (rich.stream .mailbox).chain.length < 15 := by
  decide +kernel

theorem err_of {x : State × Except Err Checked} (h : (match x.2 with | .error _ => true | .ok _ => false) = true) : ∃ t e, x = (t, .error e) := by
  rcases x with ⟨t, e | k⟩
  · exact ⟨t, e, rfl⟩
  · cases h

theorem ok_of {x : State × Except Err Checked} (h : (match x.2 with | .error _ => false | .ok _ => true) = true) : ∃ t k, x = (t, .ok k) := by
  rcases x with ⟨t, e | k⟩
  · cases h
  · exact ⟨t, k, rfl⟩

/-- A DEV_STATUS with four bytes of parameters has no valid length. -/
theorem wit_FailedPacketsChangeNothingButTheirReply :
    ((Instr.devStatus (nop 1 0 (zeros 4))).packet? = some (2, nop 1 0 (zeros 4)) ∧ twf .reset rich.dev.streams = true ∧ rich.reaches .mailbox = true ∧
      rich.pausedFor (packetOf 2 (nop 1 0 (zeros 4))) = false ∧ (0 : BitVec 32) = (rich.stream .mailbox).expect ∧
      (packetOf 2 (nop 1 0 (zeros 4))).chained = false ∧ (rich.stream .mailbox).chain = []) ∧
    ∃ t e, (rich.taken (packetOf 2 (nop 1 0 (zeros 4)))).check (packetOf 2 (nop 1 0 (zeros 4))) (placeOf 1 0 (packetOf 2 (nop 1 0 (zeros 4))) false) =
      (t, .error e) := by
  refine ⟨?_, err_of ?_⟩ <;> decide +kernel

/-- A CTX_PHASE_SHIFT to be executed at 1 ms. -/
def shiftReq : Req := { src := .mailbox, flags := 7, tag := 7, object := 0x0C000000, seq := 0, params := dtBytes uMs ++ leBytes 4 5 }
theorem wit_TimedPacketsWaitForTheirTime :
    ((Instr.ctxPhaseShift shiftReq).packet? = some (0x0204, shiftReq) ∧ twf .reset rich.dev.streams = true ∧ rich.reaches .mailbox = true ∧
      rich.pausedFor (packetOf 0x0204 shiftReq) = false ∧ shiftReq.seq = (rich.stream .mailbox).expect ∧ (packetOf 0x0204 shiftReq).chained = false ∧
      (rich.stream .mailbox).chain = [] ∧ (packetOf 0x0204 shiftReq).timed = true) ∧
    ∃ t k, (rich.taken (packetOf 0x0204 shiftReq)).check (packetOf 0x0204 shiftReq) (placeOf 1 0 (packetOf 0x0204 shiftReq) false) = (t, .ok k) := by
  refine ⟨?_, ok_of ?_⟩ <;> decide +kernel

/-- Without ACK_REQ, and with it. -/
theorem wit_RepliesFollowAckReq : (packetOf 0 (nop 0 0 [])).quiet = false ∧ (packetOf 0 (nop 0 0 [])).req.flags.getLsbD 0 = false ∧
    (packetOf 0 (nop 1 0 [])).req.flags.getLsbD 0 = true := by decide +kernel

theorem wit_UnassignedOpcodesAreRefused : specOf 0x1200 = none ∧ specOf 0xFFFF = none ∧ specOf 0x0109 = none := by decide +kernel

/-! ### The host interface, SMBus and deadlines (O24 to O26) -/

def ringOn : State := rich.onRing 3 fun r => { r with en := true, depthLog2 := 4 }
def winState : State := rich.onDev fun d => { d with winRegion := 1, winEn := true, winBase := 65536 }
def dmaState : State := (rich.onDma 2 fun d => { d with busy := true, region := 1, length := 64 }).onDma 3 fun d =>
  { d with busy := true, region := 1, length := 128, dir := true }

theorem wit_HostInterfaceRowsComplete :
    (ringOn.reaches (.ring 3) = true ∧ (ringOn.ring 3).en = true ∧ 15 < (ringOn.ring 3).depth) ∧
    (rich.reaches (.ring 7) = true ∧ (rich.ring 7).en = false ∧ (193 : BitVec 32).getLsbD 0 = true ∧ 4 ≤ bits 193 4 4 ∧ bits 193 4 4 ≤ 12) ∧
    (rich.reaches .mailbox = true ∧ rich.dev.mbox.busy = false ∧ rich.dev.mbox.ready = false) ∧
    (∃ s, s = (rich.onDev fun d => { d with mbox := { d.mbox with ready := true } }) ∧ s.reaches .mailbox = true ∧ s.dev.mbox.ready = true) ∧
    (rich.reaches .mailbox = true ∧ rich.region (bits 0x80000001 0 11) = reg 1048576) ∧
    (winState.reaches .mailbox = true ∧ winState.dev.winEn = true ∧ winState.dev.st ≠ .endpaper ∧ winState.region winState.dev.winRegion = reg 1048576 ∧
      983036 + [(1 : Byte), 2, 3, 4].length ≤ 2 ^ 30 ∧ winState.dev.winBase + 983036 + [(1 : Byte), 2, 3, 4].length ≤ 1048576) ∧
    ((dmaState.dmaCh 2).busy = true ∧ (dmaState.dmaCh 2).stream = none ∧ (dmaState.dmaCh 2).circ = false ∧ (dmaState.dmaCh 2).dir = false ∧
      (dmaState.dmaCh 3).busy = true ∧ (dmaState.dmaCh 3).stream = none ∧ (dmaState.dmaCh 3).circ = false ∧ (dmaState.dmaCh 3).dir = true) ∧
    (65532 + (zeros 4).length ≤ 65536 ∧ 65536 < 65533 + (zeros 4).length ∧ 2 ^ 30 < (2 ^ 30 - 1) + 2) := by
  refine ⟨?_, ?_, ?_, ⟨_, rfl, ?_⟩, ?_, ?_, ?_, ?_⟩ <;> decide +kernel

def smb (g : Smbus → Smbus) : State := rich.onDev fun d => { d with smbus := g d.smbus }
/-- Three bytes of a packet have arrived; a reply of 300 bytes is stored. -/
def assembling : State := smb fun x => { x with assembling := true, next := 5, partialReq := [1, 2, 3] }
def longReply : State := smb fun x => { x with replies := [zeros 300] }
theorem wit_SmbusRowsComplete :
    (rich.dev.st ≠ .off ∧ rich.dev.smbus.assembling = false ∧ rich.dev.smbus.replies = [] ∧ rich.alert = false) ∧
    (let s := smb fun x => { x with replies := List.replicate 4 [1] }
     s.dev.st ≠ .off ∧ bitOf (0x80 : Byte).toNat 7 = true ∧ 4 ≤ s.dev.smbus.replies.length) ∧
    (∀ e ∈ [((0x80 : Byte), rich, true), (0xC0, rich, true), (0x81, rich, false), (0x80, assembling, true), (0x05, assembling, true), (0x45, assembling, true),
        (0x06, assembling, false), (0x00, rich, false)],
      e.2.1.dev.st ≠ .off ∧ e.2.1.dev.smbus.replies.length < 4 ∧
        (if bitOf e.1.toNat 7 then decide (e.1.toNat % 64 = 0)
          else e.2.1.dev.smbus.assembling && decide (e.1.toNat % 64 = e.2.1.dev.smbus.next)) = e.2.2) ∧
    (bitOf (0x45 : Byte).toNat 6 = true ∧ bitOf (0x05 : Byte).toNat 6 = false) ∧
    (let s := smb fun x => { x with replies := [zeros 254, [1]] }
     s.dev.st ≠ .off ∧ s.dev.smbus.replies = zeros 254 :: [[1]] ∧ (zeros 254).length ≤ s.dev.smbus.sentTo + 254 ∧ s.alert = true) ∧
    (longReply.dev.smbus.replies = zeros 300 :: [] ∧ longReply.dev.smbus.sentTo + 254 < (zeros 300).length) ∧
    (assembling.dev.st ≠ .off ∧ assembling.dev.smbus.assembling = true) ∧
    (rich.onDev fun d => { d with st := .off }).dev.st = .off := by
  decide +kernel

def heldNop (acc : Bool) : Held := ⟨packetOf 0 (nop 1 0 []), acc, [], [.mk .evRoute 0 0], false, 0, none, []⟩
def heldState : State := rich.onDev fun d => { d with held := [heldNop false, heldNop true] }
/-- A CTX_PHASE_SHIFT that waits for 1 ms. -/
def timedState : State := rich.onDev fun d => { d with timed := [{ pkts := [packetOf 0x0204 shiftReq], time := uMs, fast := true }] }

theorem oks_of {x : State × Except (Nat × Err) (List (Pkt × Checked))} (h : (match x.2 with | .error _ => false | .ok _ => true) = true) :
    ∃ t k, x = (t, .ok k) := by
  rcases x with ⟨t, e | k⟩
  · cases h
  · exact ⟨t, k, rfl⟩

theorem errs_of {x : State × Except (Nat × Err) (List (Pkt × Checked))} (h : (match x.2 with | .error _ => true | .ok _ => false) = true) :
    ∃ t i e, x = (t, .error (i, e)) := by
  rcases x with ⟨t, e | k⟩
  · exact ⟨t, e.1, e.2, rfl⟩
  · cases h

/-- A TIMED entry with a packet of an opcode, due at 1 ms. -/
def entryA (code : Nat) : Timed := { pkts := [packetOf code shiftReq], time := uMs, fast := true }
theorem wit_DeadlineRowsComplete :
    (heldState.heldBy .mailbox 7 0 false = some (heldNop false) ∧ heldState.heldBy .mailbox 7 0 true = some (heldNop true) ∧
      ((rich.onStream .mailbox fun t => { t with chain := [packetOf 0 (nop 17 0 [])] }).stream .mailbox).chain ≠ []) ∧
    timedState.dev.timed = entryA 0x0204 :: [] ∧
    (∃ t ks, ((timedState.onDev fun d => { d with timed := [] }).advanceTo (entryA 0x0204).due).checkChain true (entryA 0x0204).pkts = (t, .ok ks)) ∧
    ∃ t i e, (rich.advanceTo (entryA 0x1200).due).checkChain true (entryA 0x1200).pkts = (t, .error (i, e)) := by
  refine ⟨?_, ?_, oks_of ?_, errs_of ?_⟩ <;> decide +kernel

/-! ### Step words and the timing of Folios (O27, O28) -/

def fol (g : Folio → Folio) : State := rich.onFolio 0 31 g
/-- Folio 31 of Quire 0 runs, and its next word is `w`, due at sample 1,000. -/
def folioAt (w : StepWord) : State := fol fun x => { x with steps := [(0, w.enc)], st := .running, boundary := 1000 }

theorem runs_of {s : State} {q f : Nat} {x : StepWord}
    (h : (decide ((s.folio q f).st = .running) && decide ((s.folio q f).halting = none) && decide ((s.folio q f).word.bind decodeStep = some x)) = true) :
    Runs s q f x := by
  simp only [Bool.and_eq_true, decide_eq_true_eq] at h
  exact ⟨h.1.1, h.1.2, h.2⟩

def genW : GenWord := { ctx := 3, rate := 7, env := 0, amp := 1000 }
def stepWits : List StepWord :=
  [.play 16777215 63 genW genW true, .hold 5 true false true, .acquire 1 0 genW 7 65535 true false, .waitUntil 1 true 1023, .waitEvent 9 255 true, .halt,
   .branch (.reg 7 6 4294967295) true false 2047, .jump true 0, .repeatBegin 65535 false 3, .repeatEnd, .setFrame 7 true 1023, .shiftPhase 7 false 3 4294967295,
   .emitEvent 255]

theorem wit_StepWordRowsComplete :
    (∀ w ∈ stepWits, Runs (folioAt w) 0 31 w) ∧
    (∀ w ∈ stepWits, OnTime (folioAt w) 0 31 ∧ ((folioAt w).folio 0 31).cfg.stepwait = false) ∧
    (let s := (folioAt (.waitUntil 1 true 1023)).onFolio 0 31 fun x => { x with params := [(1023, 5000)] }
     Runs s 0 31 (.waitUntil 1 true 1023) ∧ OnTime s 0 31 ∧
      waitEnd 1 (tget 0 (s.folio 0 31).params 1023) (s.folio 0 31).go (s.folio 0 31).boundary = some 5000 ∧ (s.folio 0 31).boundary ≤ 5000) ∧
    ((folioAt (.waitEvent 9 255 true)).folio 0 31).arrival 255 1000 1009 = none ∧ ((folioAt .halt).folio 0 31).zeroTime.pendLate = none ∧
    (let s := (folioAt (.emitEvent 255)).onEv fun e => { e with chans := [(255, { EvChan.reset with prods := [⟨folioId 0 31, 0⟩] })] }
     Runs s 0 31 (.emitEvent 255) ∧ ((s.inForce 255).prods.any fun r => r.obj == folioId 0 31) = true) ∧
    (let s := fol fun x => { x with steps := [(0, (StepWord.play 5 0 genW genW false).enc)], st := .late, boundary := 10 }
     Behind s 0 31 (.play 5 0 genW genW false)) := by
  refine ⟨fun w hw => runs_of ?_, fun w hw => ⟨⟨?_, ?_, ?_⟩, ?_⟩, ⟨runs_of ?_, ⟨?_, ?_, ?_⟩, ?_, ?_⟩, ?_, ?_, ⟨runs_of ?_, ?_⟩, ⟨?_, ?_, ?_, ?_⟩⟩
  case refine_1 => revert w hw; decide +kernel
  case refine_2 => revert w hw; decide +kernel
  case refine_3 => revert w hw; decide +kernel
  case refine_4 => revert w hw; decide +kernel
  case refine_5 => revert w hw; decide +kernel
  all_goals decide +kernel

def ringFol (g : Folio → Folio) : State :=
  fol fun x => g { x with st := .armed, ring := { base := 1024, region := 1, lwm := 0, start := 0, length := 1048576 }, inRing := true, pc := 2048 }
def ringB (base : Nat) : RingCfg := { base := base, region := 1, lwm := 0, start := 0, length := 1048576 }

theorem wit_FolioTimingRowsComplete :
    (let s := rich.onQb 0 fun b => { b with pendPers := some .service }
     s.persDue 0 = true) ∧
    ((fol fun x => { x with wait := some (.until 5000 true) }).folio 0 31).wait = some (.until 5000 true) ∧
    (∀ h, ((fol fun x => { x with wait := some (.event 3 1000 5000 h) }).folio 0 31).wait = some (.event 3 1000 5000 h)) ∧
    (∀ b, let s := fol fun x => { x with wait := some (.trig 1000 5000 none), cfg := { x.cfg with proceed := b } }
     (s.folio 0 31).wait = some (.trig 1000 5000 none) ∧ (s.folio 0 31).cfg.proceed = b) ∧
    (let s := fol fun x => { x with st := .running, pendLate := some 2 }
     (s.folio 0 31).st = .running ∧ (s.folio 0 31).pendLate = some 2) ∧
    (let s := ringFol fun x => { x with st := .running, pc := 1024 }
     (s.folio 0 31).st = .running ∧ (s.folio 0 31).pendLate = none ∧ (s.folio 0 31).word = none ∧ (s.folio 0 31).pc ≠ 2048) ∧
    (let s := fol fun x => { x with st := .running, boundary := 10, free := 11 }
     (s.folio 0 31).st = .running ∧ (s.folio 0 31).pendLate = none ∧ (s.folio 0 31).word ≠ none ∧ (s.folio 0 31).boundary < (s.folio 0 31).free) ∧
    (let s := ringFol fun x => { x with st := .late, pc := 1024, rr := { fetched := 65536, next := 65536, origin := 65536, lwmFired := true, log := [] } }
     (s.folio 0 31).st = .late ∧ (s.folio 0 31).word = none ∧ (s.folio 0 31).pc ≠ 2048 ∧ (s.folio 0 31).ring.total ≤ (s.folio 0 31).rr.next) ∧
    (let w : StepWord := .hold 5 true true false
     let s := fol fun x => { x with steps := [(0, w.enc)], st := .late, boundary := 100000 }
     (s.folio 0 31).st = .late ∧ (s.folio 0 31).word = some w.enc ∧ decodeStep w.enc = some w ∧ w.timed = true ∧ s.canResume (s.folio 0 31) = true) ∧
    (∀ e ∈ [(FState.armed, 0), (FState.running, uMs)],
      let s := { ringFol fun x => { x with st := e.1, pc := 1024 } with now := e.2 }
      let fo := s.folio 0 31
      fo.wantsRefill = true ∧ decide (fo.st = .running ∧ fo.inRing = true ∧ fo.pathOpen 2048 fo.rr.next = true ∧ issueTime (fo.boundary - ahead) < s.now) =
        decide (e.1 = .running) ∧
      ∀ e ∈ (s.synq 0).folios, e.2.wantsRefill = false ∨ fo.residentAhead < e.2.residentAhead ∨ (fo.residentAhead = e.2.residentAhead ∧ 31 ≤ e.1)) ∧
    (let s := ringFol id
     (s.folio 0 31).inRing = true ∧ (s.folio 0 31).pc = 2048 ∧ (s.folio 0 31).ringPend = none) ∧
    (∀ b ∈ [1536, 2048], let s := ringFol fun x => { x with ringPend := some (ringB b) }
     (s.folio 0 31).inRing = true ∧ (s.folio 0 31).pc = 2048 ∧ (s.folio 0 31).ringPend = some (ringB b)) ∧
    (rich.pers 0 = .control ∧ rich.seqBoundary 0 = true ∧ ((rich.seqActions 0).qb 0).pendPers = none) ∧
    (let s := rich.onQb 0 fun b => { b with pendPers := some .service }
     s.pers 0 = .control ∧ s.seqBoundary 0 = true ∧ ((s.seqActions 0).qb 0).pendPers.isSome = true) := by
  refine ⟨?_, ?_, ?_, ?_, ?_, ?_, ?_, ?_, ?_, ?_, ?_, ?_, ?_, ?_⟩ <;> decide +kernel

/-! ### Read-out (O29) -/

/-- The read-out set of a test, and a window with label 1,000. -/
def setA (cut : Bool) : RSet := { RSet.reset with cut := cut, len := 8 }
def winA (cut : Bool) : Win := { set := setA cut, rset := 2, start := 1000, endAt := 1064, acq := 5, line := some 0, weave := none, mems := [], trunc := false, wcount := 0, bad := false }

def covA : Covar := { mems := [], start := 1000, nsamp := 2 }
theorem wit_ReadoutRowsComplete :
    ((rich.onRo 0 fun r => { r with covar := some covA }).roq 0).covar = some covA ∧
    (let s := rich.onDemod 0 31 fun d => { d with pend := [⟨2, 1000, 5⟩] }
     (s.demod 0 31).pend = [⟨2, 1000, 5⟩] ∧ (((s.advanceTo (outTime 1000)).demod 0 31).wins.find? fun w => w.openAt 1000) = none) ∧
    (∀ cut, let s := rich.onDemod 0 31 fun d => { d with pend := [⟨2, 1010, 6⟩], wins := [winA cut] }
     (s.demod 0 31).pend = [⟨2, 1010, 6⟩] ∧ ((s.advanceTo (outTime 1010)).demod 0 31).wins.find? (fun w => w.openAt 1010) = some (winA cut) ∧
      (winA cut).set.cut = cut ∧ (s.demod 0 31).wins = winA cut :: []) := by
  refine ⟨?_, ?_, ?_⟩ <;> decide +kernel

/-! ### Feedback cores (O30 to O33) -/

def core (g : FbCore → FbCore) : State := rich.onCore 0 3 g
/-- Core 3 of Quire 0 runs, and its first word is `w`. -/
def coreAt (w : CoreWord) : State := core fun c => { c with bank0 := [(0, BitVec.ofNat 32 w.enc)], st := .running }

theorem issues_of {s : State} {q k : Nat} {w : CoreWord}
    (h : (decide ((s.core q k).st = .running) && decide (s.pers q = .control) && decide (decodeCore ((s.core q k).word (s.core q k).pc) = some w)) = true) :
    Issues s q k w := by
  simp only [Bool.and_eq_true, decide_eq_true_eq] at h
  exact ⟨h.1.1, h.1.2, h.2⟩

theorem issues_all {l : List CoreWord} (h : (l.all fun w => let s := coreAt w
      decide ((s.core 0 3).st = .running) && decide (s.pers 0 = .control) && decide (decodeCore ((s.core 0 3).word (s.core 0 3).pc) = some w)) = true) :
    ∀ w ∈ l, Issues (coreAt w) 0 3 w := fun w hw => issues_of (List.all_eq_true.mp h w hw)

theorem wit_AluRowsGiveTheirResults :
    (∀ w ∈ ([8, 9, 10, 11, 12, 13, 14, 15, 16, 18, 19].map fun o => CoreWord.alu o 7 6 5) ++ [.alu 0x11 7 6 0], Issues (coreAt w) 0 3 w) ∧
    (∀ w ∈ ([0x15, 0x16, 0x17, 0x18, 0x19, 0x1A].map fun o => CoreWord.imm o 7 6 65535) ++ [.imm 0x14 7 0 65535, .imm 0x1B 7 6 15, .imm 0x1C 7 6 15],
      Issues (coreAt w) 0 3 w) :=
  ⟨issues_all (by decide +kernel), issues_all (by decide +kernel)⟩

def movesA : Moves := { xd := 7, xi := 3, xen := true, yd := 6, yi := 2, yen := true, xupd := true, yupd := false }
theorem wit_CoreDataRowsGiveTheirResults :
    ∀ w ∈ [.mac 1 false 0 0 movesA, .mac 2 true 7 6 movesA, .mac 3 true 7 6 movesA, .mac 4 true 7 6 movesA] ++
        ([0, 1, 2, 3, 4, 5, 6, 7, 8, 9, 10].map fun k => CoreWord.acc true 7 63 k) ++
        [.mem false 7 true 3 true true 8191, .mem true 7 true 3 true true 8191, .mem false 7 true 3 true false 0, .mem true 7 true 3 true false 0,
         .movs 0x35 7 true, .movs 0x35 7 false, .lds 0x35 65535, .pop false, .pop true], Issues (coreAt w) 0 3 w :=
  issues_all (by decide +kernel)

/-- A word, with four return addresses and four open levels. -/
def deepAt (w : CoreWord) : State := (coreAt w).onCore 0 3 fun c => { c with calls := [9, 9, 9, 9], reps := List.replicate 4 ⟨1, 50, 3⟩ }
/-- A core that waits. -/
def waitAt (kind count : Nat) (g : FbCore → FbCore) : State := core fun c => g { c with st := .waiting, wait := some ⟨kind, 2, 10, count⟩ }

theorem wit_CoreControlRowsComplete :
    (∀ w ∈ [.plain 0, .branch 14 4095, .call 4095, .ret, .rep true 7 0 4095, .rep false 7 1023 4095, .wait 3 3 65535, .plain 0x3C, .plain 0x3F],
      Issues (coreAt w) 0 3 w) ∧
    (let s := coreAt (.call 4095)
     ((issueState s 0 3 0x29).core 0 3).calls.length < 4) ∧
    (let s := deepAt (.call 4095)
     (s.core 0 3).st = .running ∧ s.pers 0 = .control ∧ decodeCore ((s.core 0 3).word (s.core 0 3).pc) = some (.call 4095) ∧
      4 ≤ ((issueState s 0 3 0x29).core 0 3).calls.length) ∧
    (let s := deepAt .ret
     (s.core 0 3).st = .running ∧ s.pers 0 = .control ∧ decodeCore ((s.core 0 3).word (s.core 0 3).pc) = some .ret ∧
      ((issueState s 0 3 0x2A).core 0 3).calls = 9 :: [9, 9, 9]) ∧
    ((issueState (coreAt .ret) 0 3 0x2A).core 0 3).calls = [] ∧
    (let x := (issueState (coreAt (.rep false 7 1023 4095)) 0 3 0x2C).core 0 3
     (x.reps.any fun y => y.fin == x.pc) = false ∧ 1023 + 1 ≠ 0 ∧ x.reps.length < 4) ∧
    (let x := (issueState (coreAt (.rep true 7 0 4095)) 0 3 0x2C).core 0 3
     (x.reps.any fun y => y.fin == x.pc) = false ∧ (x.dr 7).toNat = 0) ∧
    (let s := deepAt (.rep false 7 1023 4095)
     let x := (issueState s 0 3 0x2C).core 0 3
     (s.core 0 3).st = .running ∧ s.pers 0 = .control ∧ decodeCore ((s.core 0 3).word (s.core 0 3).pc) = some (.rep false 7 1023 4095) ∧
      (x.reps.any fun y => y.fin == x.pc) = false ∧ 4 ≤ x.reps.length) ∧
    ((waitAt 3 9 id).core 0 3).wait = some ⟨3, 2, 10, 9⟩ ∧
    (let c := (waitAt 0 9 fun c => { c with rfifo := [⟨19, 0⟩] }).core 0 3
     c.wait = some ⟨0, 2, 10, 9⟩ ∧ c.holdsAt ⟨0, 2, 10, 9⟩ = some 19) ∧
    ((waitAt 1 9 id).core 0 3).wait = some ⟨1, 2, 10, 9⟩ ∧ ((waitAt 1 9 id).core 0 3).holdsAt ⟨1, 2, 10, 9⟩ = none ∧
    (∀ b, let s := (coreAt (.plain 0x3C)).onCore 0 3 fun c => { c with stopSafe := b }
     let x := (issueState s 0 3 0x3C).core 0 3
     (s.core 0 3).st = .running ∧ s.pers 0 = .control ∧ decodeCore ((s.core 0 3).word (s.core 0 3).pc) = some (.plain 0x3C) ∧
      (x.reps.isEmpty && x.calls.isEmpty) = true ∧ x.swap = none ∧ x.stopSafe = b) ∧
    (let s := deepAt (.plain 0x3C)
     let x := (issueState s 0 3 0x3C).core 0 3
     (s.core 0 3).st = .running ∧ s.pers 0 = .control ∧ decodeCore ((s.core 0 3).word (s.core 0 3).pc) = some (.plain 0x3C) ∧
      (x.reps.isEmpty && x.calls.isEmpty) = false) ∧
    (∀ e ∈ [(true, true), (true, false), (false, true), (false, false)],
     let s := (coreAt (.plain 0x3C)).onCore 0 3 fun c => { c with swap := some (4095, e.1, 9), next := if e.2 then 10 else 9 }
     let x := (issueState s 0 3 0x3C).core 0 3
     (s.core 0 3).st = .running ∧ s.pers 0 = .control ∧ decodeCore ((s.core 0 3).word (s.core 0 3).pc) = some (.plain 0x3C) ∧
      (x.reps.isEmpty && x.calls.isEmpty) = true ∧ x.swap = some (4095, e.1, 9) ∧ decide (9 < x.next) = e.2) := by
  refine ⟨issues_all ?_, ?_, ?_, ?_, ?_, ?_, ?_, ?_, ?_, ?_, ?_, ?_, ?_, ?_, ?_⟩ <;> decide +kernel

def sendA (port : Nat) : FbSend := { issue := 100, core := 1, route := 3, port := port, addr := 7, payload := zeros 16 }
/-- A frame in flight to core 2, with the given bits of its control byte. -/
def flightA (ctrl : Nat) : FbFlight := { arrive := 200, order := 0, remote := true, payload := [0, BitVec.ofNat 8 ctrl] ++ zeros 14 }
def flightState (pers : Pers) (ctrl : Nat) : State := (rich.onQb 0 fun b => { b with pers := pers }).onFb 0 fun b => { b with inbound := [flightA ctrl] }

theorem wit_CoreOutputRowsComplete :
    (∀ w ∈ [.flag 63 0 0, .flag 63 1 0, .flag 63 2 14, .flag 63 3 127, .flagg 3 7 6, .sendf 15 true 7 6 true 5, .evout 3], Issues (coreAt w) 0 3 w) ∧
    256 ≤ lget 0xFFFF ((issueState (coreAt (.evout 3)) 0 3 0x33).core 0 3).cfg.evo 3 ∧
    (let s := (coreAt (.evout 3)).onCore 0 3 fun c => { c with cfg := { c.cfg with evo := [0, 0, 0, 255] } }
     (s.core 0 3).st = .running ∧ s.pers 0 = .control ∧ decodeCore ((s.core 0 3).word (s.core 0 3).pc) = some (.evout 3) ∧
      lget 0xFFFF ((issueState s 0 3 0x33).core 0 3).cfg.evo 3 < 256) ∧
    (∀ p ∈ [0, 4], ((rich.onFb 0 fun b => { b with sendq := [sendA p] }).fbq 0).sendq = [sendA p]) ∧ (sendA 4).port ≠ 0 ∧
    ((flightState .service 10).fbq 0).inbound = [flightA 10] ∧
    (∀ e ∈ [(Pers.service, 10), (.control, 10), (.control, 6)],
      let s1 := ((flightState e.1 e.2).advanceTo (200 * uCycle)).onFb 0 fun b => { b with inbound := [] }
      s1.pers 0 = e.1) ∧
    (let c := Sys2Proof.u (flightA 10).payload 1 1
     bitOf c 2 = false ∧ bitOf c 3 = true) ∧
    (let c := Sys2Proof.u (flightA 6).payload 1 1
     bitOf c 2 = true ∧ bitOf c 3 = false) := by
  refine ⟨issues_all ?_, ?_, ?_, ?_, ?_, ?_, ?_, ?_, ?_⟩ <;> decide +kernel

end Sys2Proof.Tests
end

