-- ==== Sys2Proof/Tests/RowsB.lean ====
section
/-! SUPPORT. States that meet the hypotheses of the statements, clause by clause: intake and plans, converters, lanes, links, time, clocks and supplies
(O34 to O40). -/
set_option Elab.async false -- one thread at a time: each has a large stack

namespace Sys2Proof.Tests
open Sys2Proof.Machine

/-! ### Intake and plans (O34) -/

/-- A frame of source 7: 16 channels of format 0, one sample each, at device time 0, sequence number 9. -/
def frameA : List Byte :=
  withCrc (leBytes 1 1 ++ leBytes 1 0 ++ leBytes 2 7 ++ leBytes 2 0 ++ leBytes 2 16 ++ dtBytes 0 ++ leBytes 4 9 ++ leBytes 2 16 ++ zeros 6 ++ zeros 16)
/-- A correlation runs, and lane 71 receives source 7 for input 0. -/
def runState : State :=
  (corrRun.onInput 0 fun x => { x with src := { srcA with kind := 1, format := 0, source := 7, line := 71, nchan := 16 } }).onLane 71 fun l => { l with st := .up }
def integA (n first last : Nat) (e : Option CorrExport) : Integ :=
  { number := n, first := first, time := 0, last := last, blocks := 0, flags := 0, sat := 0, blankedSum := 0, weights := [], discard := false, exp := e }
def expA : CorrExport := { paths := 1, dma := 0, baseline := false, addrs := [0, 0, 0, 0] }
/-- Block 1 of two released blocks is being added into an integration that began at block 0. -/
def addState : State :=
  ((corrRun.onCt fun c => { c with released := 2 }).onCorr fun c => { c with cur := [integA 0 0 4 none] }).onCorrRun fun r => { r with proc := 1 }
def wrapState : State := (planState.onCt fun c => { c with pend := some { ctA with b := 512 }, released := 2, nextB := 3 })
/-- The same while a correlation runs whose next block is block 2, in an integration that began there or not at all. -/
def wrapRun (cur : List Integ) : State :=
  ((((corrRun.onCt fun c => { c with pend := some { ctA with b := 512 }, released := 2, nextB := 3 }).onCorrRun fun r => { r with proc := 2 }).onChan 2 fun x =>
    { x with next := 512 })).onCorr fun c => { c with cur := cur }
def finState (x : Integ) : State := addState.onCorr fun c => { c with finished := [x], cur := [integA 2 1 3 none] }
def beamGo : State := beamRun.onCt fun c => { c with released := 1 }

/-- What the clauses on blocks and integrations ask of a state. -/
def adds (s : State) : Bool :=
  decide (s.plans.corr.cfg = some corrA) && decide (s.ct.cfg = some ctA) && s.plans.corr.run.active && decide (s.plans.corr.run.st ≠ .pending) &&
    decide (s.plans.corr.run.proc < s.ct.released)
/-- What the clauses on a wrap ask of a state. -/
def wraps (s : State) : Bool :=
  decide (s.ct.cfg = some ctA) && decide (s.ct.pend = some { ctA with b := 512 }) &&
    decide (s.plans.corr.run.active = true → s.plans.corr.run.st ≠ .pending → s.plans.corr.run.proc = s.ct.released) &&
    decide (s.plans.beam.run.active = true → s.plans.beam.run.st ≠ .pending → s.plans.beam.run.proc = s.ct.released) &&
    decide (s.ct.num s.ct.released % 2 = 0) && decide (s.ct.nextB ≤ s.ct.released + 1) &&
    s.chanQuires.all fun q => decide ((s.chanl q).next = s.ct.origin + s.ct.num s.ct.released * ctA.b)

theorem wit_IntakeAndPlanRowsComplete :
    ((runState.lane 71).st = .up ∧ (match runState.frameCheck 71 true frameA with | .ok i => decide (i = 0) | .error _ => false) = true ∧
      (∀ b ∈ [[], frameA.set 3 1, withCrc (zeros 40)], (match runState.frameCheck 71 true b with | .ok _ => false | .error _ => true) = true) ∧
      (match runState.frameCheck 71 false frameA with | .ok _ => false | .error _ => true) = true) ∧
    ((runState.chanl 2).cfg = some chanA ∧ runState.ct.cfg = some ctA ∧ runState.chanRuns 2 = true ∧ (runState.chanl 2).until' = none ∧
      (runState.ct.place ctA.b (runState.chanl 2).next).1 = 0 ∧
      (let s := runState.onChan 2 fun x => { x with until' := some 0 }
       (s.chanl 2).cfg = some chanA ∧ s.chanRuns 2 = true ∧ (s.chanl 2).until' = some 0)) ∧
    (let s := runState.onChan 2 fun x => { x with written := 1 }
     s.ct.cfg = some ctA ∧ s.chanQuires ≠ [] ∧ s.halfFree s.ct.released = true ∧ ∀ q ∈ s.chanQuires, s.ct.released < (s.chanl q).written) ∧
    (wraps wrapState = true ∧ wrapState.plans.corr.cfg = none) ∧
    (∀ cur ∈ [[], [integA 4 2 6 none]], wraps (wrapRun cur) = true ∧ (wrapRun cur).plans.corr.cfg = some corrA ∧ (wrapRun cur).plans.corr.run.st = .running ∧
      (wrapRun cur).ct.nextB = (wrapRun cur).ct.released + 1) ∧
    (beamRun.blocksCome = true ∧ beamRun.plans.corr.cfg = none) ∧ corrRun.blocksCome = true ∧
    (let c := addState.plans.corr
     adds addState = true ∧ (c.cur.find? fun x => decide (x.first ≤ c.run.proc) && decide (c.run.proc < x.last)) = some (integA 0 0 4 none) ∧
      c.run.proc ≠ (integA 0 0 4 none).first) ∧
    (let s := (addState.onCorrRun fun r => { r with proc := 0 }).onCorr fun c => { c with finished := [integA 9 0 0 none] }
     let c := s.plans.corr
     adds s = true ∧ (c.cur.find? fun x => decide (x.first ≤ c.run.proc) && decide (c.run.proc < x.last)) = some (integA 0 0 4 none) ∧
      c.run.proc = (integA 0 0 4 none).first ∧ c.chan = 0 ∧ ∀ y ∈ c.finished, y.number % 2 ≠ (integA 0 0 4 none).number % 2) ∧
    (let s := addState.onCorr fun c => { c with cur := [integA 0 2 4 none] }
     adds s = true ∧ ∀ x ∈ s.plans.corr.cur, x.first ≤ s.plans.corr.run.proc → x.last ≤ s.plans.corr.run.proc) ∧
    (let s := addState.onCorrRun fun r => { r with proc := 4 }
     s.plans.corr.cur = integA 0 0 4 none :: [] ∧ (integA 0 0 4 none).last ≤ s.plans.corr.run.proc ∧ s.plans.corr.chan = 0) ∧
    (∀ e ∈ [none, some expA], let s := finState (integA 0 0 1 e)
     s.plans.corr.finished = integA 0 0 1 e :: [] ∧ s.plans.corr.cfg = some corrA ∧ s.ct.cfg = some ctA ∧
      (integA 0 0 1 e).exp = e ∧ (∃ i ∈ expA.list, s.pathCap i ≠ 0) ∧
      ∃ y ∈ s.plans.corr.cur, y.number % 2 = (integA 0 0 1 e).number % 2 ∧ y.first = s.plans.corr.run.proc ∧ y.first < s.ct.released) ∧
    (∀ l ∈ [none, some 1, some 2], ∀ st ∈ [PState.running, .stopping], let s := (beamGo.onBeam fun b => { b with last := l }).onBeamRun fun r => { r with st := st }
     s.plans.beam.cfg = some beamA ∧ s.ct.cfg = some ctA ∧ s.plans.beam.run.st = st ∧ s.plans.beam.run.proc + 1 = s.ct.released ∧
      s.plans.beam.last = l ∧ s.plans.beam.run.proc = 0) := by
  refine ⟨?_, ?_, ?_, ?_, ?_, ?_, ?_, ?_, ?_, ?_, ?_, ?_, ?_⟩ <;> decide +kernel

/-! ### Converter lines (O35) -/

def dac (g : DacLine → DacLine) : State := rich.onDac 39 g
def muted (raw pin : Bool) (f : Nat) : State := rich.onRf fun r => { r with pinRaw := raw, pin := pin, filter := f }
def refCal (until' : Option Nat) (policy : Nat) (due : Bool) : State :=
  rich.onAdc 15 fun d => { d with cal := { d.cal with until' := until', policy := policy, due := due } }
theorem wit_ConverterRowsComplete :
    (rich.dev.st ≠ .off ∧ (rich.onDev fun d => { d with st := .off }).dev.st = .off) ∧
    (∀ low, (muted low false 9).rf.pinRaw = low ∧ ((muted (!low) low 9).rf.pinRaw ≠ low ∧ (muted (!low) low 9).rf.pin = low) ∧
      ∀ f ∈ [0, 9], (muted (!low) (!low) f).rf.pinRaw ≠ low ∧ (muted (!low) (!low) f).rf.pin ≠ low ∧ (muted (!low) (!low) f).rf.filter = f) ∧
    (let s := dac fun d => { d with mutes := [9], muteAt := some 5 }
     (s.dac 39).mutes ++ (s.dac 39).muteAt.toList = 9 :: [5]) ∧
    (let s := dac fun d => { d with opened := false }
     (s.dac 39).zero = true ∧ (s.dac 39).cause ≠ 0 ∧ (s.dac 39).opened = false) ∧
    (let s := dac fun d => { d with resumeAt := some 7, cause := 0 }
     (s.dac 39).resumeAt = some 7 ∧ (s.dac 39).cause = 0) ∧
    ((dac fun d => { d with settleTo := some 7 }).dac 39).settleTo = some 7 ∧
    ((110000 : Int) < 110001 ∧ rich.rf.hot.contains 3 = false) ∧
    ((99999 : Int) < 100000 ∧ (rich.onRf fun r => { r with hot := [3] }).rf.hot.contains 3 = true) ∧
    (∀ e ∈ [((0 : Nat), (some 9 : Option Nat)), (2, none)], let s := dac fun d => { d with cal := { d.cal with policy := e.1, until' := e.2 } }
     s.runs = true ∧ s.dacOut 39 = false ∧ s.dacRetired 39 = false ∧ (s.dac 39).cal.until' = e.2 ∧ (s.dac 39).cal.policy = e.1) ∧
    ((refCal (some 9) 0 false).dev.st ≠ .off ∧ ((refCal (some 9) 0 false).adc 15).cal.until' = some 9) ∧
    (let s := refCal none 1 true
     s.dev.st ≠ .off ∧ (s.adc 15).cal.until' = none ∧ (s.adc 15).cal.due = true ∧ (s.adc 15).cal.policy = 1 ∧
      (s.advanceTo (tickAt s.now)).calAllowed 15 = true) ∧
    (∀ e ∈ [((none : Option Nat), (1 : Nat)), (some 9, 2), (none, 2)], let s := refCal e.1 e.2 false
     s.runs = true ∧ s.adcOut 15 = false ∧ s.adcRetired 15 = false ∧ (s.adc 15).cal.until' = e.1 ∧ (s.adc 15).cal.policy = e.2) := by
  refine ⟨?_, ?_, ?_, ?_, ?_, ?_, ?_, ?_, ?_, ?_, ?_, ?_⟩ <;> decide +kernel

/-! ### Lanes and links (O36, O37) -/

def ln (n : Nat) (g : LaneSt → LaneSt) : State := rich.onLane n g
def idA : Ident := { addr := 9, kind := 1, lane := 0, level := 2, flags := 0, rate := 2 }
/-- An identification message. -/
def identA : List Byte := withCrc (leBytes 1 1 ++ zeros 10)
/-- A bracket that is open for the first second, and a frame of 20,000 characters from reset on. -/
def preA : TxPre := { start := 0, stop := uS, cs := [], skip := false, cyc := none }
def longA : TxFrame := { kind := .frame, start := 0, cs := List.replicate 20000 (.d 0) }
theorem wit_LaneRowsComplete :
    ((ln 91 fun l => { l with st := .training }).lane 91).st = .training ∧
    (let s := ln 91 fun l => { l with st := .up }
     (s.lane 91).st = .up ∧ (((s.laneErrs 91 ++ [(s.now, 3 + 4)]).map Prod.snd).sum < 8) ∧ 8 ≤ ((s.laneErrs 91 ++ [(s.now, 4 + 4)]).map Prod.snd).sum) ∧
    (∀ b, let s := ln 91 fun l => { l with st := .test, fromUp := b }
     (s.lane 91).st = .test ∧ (s.lane 91).cmdTest = none) ∧
    ((ln 91 fun l => { l with st := .absent }).lane 91).st = .absent ∧
    (∀ e ∈ [((true : Bool), (true : Bool)), (false, true), (false, false)],
     let s := ln 91 fun l => { l with st := .absent, pres := if e.1 then [preA] else [], frames := if e.2 then [longA] else [] }
     let t := (s.lane 91).skipAt + 1024 * slotTime (s.laneRate 91)
     let s1 := (s.advanceTo t).onLane 91 fun l => { l with skipAt := t }
     let l := s1.lane 91
     (s.lane 91).sendsSets = true ∧ (l.pres.find? fun p => decide (p.start ≤ s1.now) && decide (s1.now < p.stop)) = (if e.1 then some preA else none) ∧
      (l.frames.any fun f => f.kind == .frame && decide (f.start < s1.now) && decide (s1.now < l.stopOf (s1.charOf 91) f)) = e.2) ∧
    (72 ≤ 91 ∧ rich.dev.st ≠ .off ∧ identA.length = 15 ∧ (crc32c (identA.take 11)).toNat = Sys2Proof.u identA 11 4 ∧ Sys2Proof.u identA 0 1 ≠ 0 ∧
      (zeros 15).length = 15 ∧ (crc32c ((zeros 15).take 11)).toNat ≠ Sys2Proof.u (zeros 15) 11 4) ∧
    ((ln 91 fun l => { l with ident := some idA }).lane (72 + 19)).ident ≠ none ∧
    (∀ f, ((ln 0 fun l => { l with cmdTest := some (9, f) }).lane 0).cmdTest = some (9, f)) := by
  decide +kernel

/-- Port 3 hears on lane 91. -/
def hearing : State := ln 91 fun l => { l with st := .up }
/-- A frame of a class from device 5, with `n` bytes after the header. -/
def linkFrame (cls dest n : Nat) : List Byte :=
  withCrc (frameHeader cls dest 5 0 ++ (if cls ≤ 2 then [] else leBytes 4 6 ++ leBytes 2 n ++ zeros 2) ++ zeros n)

theorem noFrame_of {x : State × Option Hdr} (e : x.2.isNone = true) : ∃ s1, x = (s1, none) := ⟨x.1, Prod.ext rfl (Option.isNone_iff_eq_none.mp e)⟩

theorem frame_of {x : State × Option Hdr} {h : Hdr} (e : x.2 = some h) : ∃ s1, x = (s1, some h) := ⟨x.1, Prod.ext rfl e⟩

theorem wit_LinkFrameRowsComplete :
    (hearing.hears 3 = true ∧
      ∀ e ∈ [(3, 0, 20), (4, 0, 16), (5, 0, 32), (2, 77, 16), (2, 0, 16)],
        (hearing.frameIn 3 true (linkFrame e.1 e.2.1 e.2.2)).2 = some { cls := e.1, dest := e.2.1, src := 5, hops := 0 }) ∧
    (∀ w, (hearing.frameIn 3 w (zeros 20)).2.isNone = true) ∧
    ((77 : Nat) ≠ hearing.dev.addr ∧ 0 = hearing.dev.addr ∧ Sys2Proof.u (slice (linkFrame 2 0 16) 8 16) 0 1 < 16 ∧
      (let b := withCrc (frameHeader 2 0 5 0 ++ [16] ++ zeros 15)
       (hearing.frameIn 3 true b).2 = some { cls := 2, dest := 0, src := 5, hops := 0 } ∧ 16 ≤ Sys2Proof.u (slice b 8 16) 0 1)) ∧
    ((rich.onPort 3 fun x => { x with held := [⟨9, 100, []⟩] }).port 3).firstHeld = some ⟨9, 100, []⟩ ∧
    (((rich.onPort 3 fun x => { x with peers := [⟨4, [], 9, 0, 1, false⟩] }).port 3).peers.find? fun x => x.seq == (9 : BitVec 32).toNat) =
      some ⟨4, [], 9, 0, 1, false⟩ := by
  decide +kernel

/-! ### Device time (O38) -/

def timeFrame (k : Nat) : List Byte := withCrc (frameHeader 1 0 5 0 ++ leBytes 1 k ++ zeros 15)
/-- Lane 72 is UP, usable and active, and its partner has identified itself. -/
def linked : State := rich.onLane 72 fun l => { l with st := .up, usable := true, ident := some idA }
def slotA : State := linked.onSlot 0 3 fun x => { x with st := .armed, time := uMs, frame := zeros 40 }
theorem wit_TimeRowsComplete :
    (hearing.hears 3 = true ∧ (∀ k ∈ [1, 2, 3, 4, 5], (hearing.frameIn 3 true (timeFrame k)).2 = some { cls := 1, dest := 0, src := 5, hops := 0 } ∧
      Sys2Proof.u (slice (timeFrame k) 8 16) 0 1 = k) ∧ 0 = hearing.dev.addr) ∧
    ((hearing.frameIn 3 true (zeros 20)).2.isNone = true ∧ (∀ k ∈ [0, 6], (hearing.frameIn 3 true (timeFrame k)).2 = some { cls := 1, dest := 0, src := 5, hops := 0 } ∧
      Sys2Proof.u (slice (timeFrame k) 8 16) 0 1 = k) ∧
      (let b := withCrc (frameHeader 1 77 5 0 ++ zeros 16)
       (hearing.frameIn 3 true b).2 = some { cls := 1, dest := 77, src := 5, hops := 0 } ∧ 77 ≠ hearing.dev.addr)) ∧
    (let s := rich
     s.dev.st ≠ .off ∧ (s.advanceTo ((s.now / (2 ^ s.tmu.cfg.syncLog2 * uUs) + 1) * (2 ^ s.tmu.cfg.syncLog2 * uUs))).portUp 0 = false) ∧
    (let s := linked
     let per := 2 ^ s.tmu.cfg.syncLog2 * uUs
     let s1 := s.advanceTo ((s.now / per + 1) * per)
     s.dev.st ≠ .off ∧ s1.portUp 0 = true ∧ s1.portRole 0 = 2) ∧
    ((rich.onPort 3 fun x => { x with vec := some { prio := 1, cls := 2, gm := 3, steps := 4 } }).port 3).vec ≠ none ∧
    ((rich.onPort 3 fun x => { x with ignore := [(3, 4), (5, 6)] }).port 3).ignore = (3, 4) :: [(5, 6)] ∧
    ((rich.onPort 3 fun x => { x with exch := some ⟨7, 8, none, none, none⟩ }).port 3).exch = some ⟨7, 8, none, none, none⟩ ∧
    (∀ x ∈ [none, some (⟨9, none⟩ : StepAt)], let s := rich.onTmu fun t => { t with setTo := some (9, 100), step := x }
     s.tmu.setTo = some (9, 100) ∧ ∀ y, s.tmu.step = some y → 9 ≤ y.time) ∧
    (let s := rich.onTmu fun t => { t with step := some ⟨9, some 3⟩, setTo := some (10, 100), pending := some (-12) }
     s.tmu.step = some ⟨9, some 3⟩ ∧ (∀ a, s.tmu.setTo = some a → 9 < a.1) ∧ ((s.advanceTo 9).onTmu fun t => { t with step := none }).tmu.pending = some (-12) ∧ (-12 : Int).natAbs ≤ 4 * 3) ∧
    (∀ e ∈ [((some 3 : Option Nat), (some 13 : Option Int)), (some 3, none), (none, some 13), (none, none)],
     let s := rich.onTmu fun t => { t with step := some ⟨9, e.1⟩, pending := e.2 }
     s.tmu.step = some ⟨9, e.1⟩ ∧ s.tmu.setTo = none ∧ ((s.advanceTo 9).onTmu fun t => { t with step := none }).tmu.pending = e.2) ∧ 4 * 3 < (13 : Int).natAbs ∧
    (let s := (rich.onRf fun r => { r with allow := true }).onTrig 15 fun t => { t with mode := 1, count := 1, width := 4 }
     (s.trig 15).scheduled = true ∧ s.runs = true ∧ (s.trig 15).activeTo ≤ (s.trig 15).pulse (s.trig 15).next + (s.trig 15).fine * 16384 ∧
      (s.advanceTo ((s.trig 15).pulse (s.trig 15).next + (s.trig 15).fine * 16384)).rf.allow = true) ∧
    (let s := rich.onTrig 15 fun t => { t with mode := 1, count := 0, width := 4, activeTo := uMs }
     (s.trig 15).scheduled = true ∧ s.runs = true ∧ (s.trig 15).pulse (s.trig 15).next + (s.trig 15).fine * 16384 < (s.trig 15).activeTo) ∧
    (let s := rich.onTrig 15 fun t => { t with mode := 1, count := 1, width := 4 }
     let s1 := s.advanceTo ((s.trig 15).pulse (s.trig 15).next + (s.trig 15).fine * 16384)
     (s.trig 15).scheduled = true ∧ s.runs = true ∧ s1.clk.coherent = false ∧ s1.rf.allow = false) ∧
    (let s := rich.onTrig 15 fun t => { t with edge := 3 }
     (s.trig 15).mode = 0 ∧ s.dev.st ≠ .off ∧ (s.trig 15).edge % 2 = 1 ∧ 2 ≤ (s.trig 15).edge) ∧
    (((rich.onSlot 0 3 fun x => { x with st := .armed }).port 0).slot 3).st = .armed ∧
    ((rich.onSlot 0 3 fun x => { x with st := .armed }).advanceTo 0).timingLane 0 = none ∧
    (((slotA.port 0).slot 3).st = .armed ∧ (slotA.advanceTo uMs).timingLane 0 = some 72 ∧ (slotA.advanceTo uMs).partner 0 = some idA) := by
  refine ⟨?_, ?_, ?_, ?_, ?_, ?_, ?_, ?_, ?_, ?_, ?_, ?_, ?_, ?_, ?_, ?_, ?_, ?_⟩ <;> decide +kernel

/-! ### Clocks and supplies (O39, O40) -/

def clk (g : Clk → Clk) : State := rich.onClk g
theorem wit_ClockRowsComplete :
    (clk fun c => { c with meter := some ⟨1, 2, 10⟩ }).clk.meter = some ⟨1, 2, 10⟩ ∧
    (rich.dev.st ≠ .off ∧ (∀ n ∈ [srcEref, srcRec, srcHold, srcInt], (clk fun c => { c with sel := n }).clk.sel = n) ∧ rich.clk.sel ≠ srcEref ∧
      rich.clk.sel ≠ srcRec ∧ rich.clk.sel ≠ srcHold ∧
      (∀ b, (clk fun c => { c with lostE := b, lostR := b, lostSel := b }).clk.lostE = b ∧ (clk fun c => { c with lostE := b, lostR := b }).clk.lostR = b ∧
        (clk fun c => { c with lostSel := b }).clk.lostSel = b ∧ (clk fun c => { c with cfg := { c.cfg with erefEn := b } }).clk.cfg.erefEn = b) ∧
      rich.recCandidate = false ∧ (clk fun c => { c with sel := srcRec }).clk.lostSel = false ∧ (clk fun c => { c with sel := srcRec }).clk.lostR = false) ∧
    (let s := clk fun c => { c with sel := srcHold }
     s.clk.sel = srcHold ∧ s.clk.lostSel = false ∧ s.dev.st ≠ .off) ∧
    (let s := clk fun c => { c with switchTo := some 1 }
     s.clk.switchTo = some 1 ∧ s.clk.lostSel = false ∧ s.dev.st ≠ .off) ∧
    (clk fun c => { c with lostSel := true }).clk.lostSel = true ∧
    ((rich.onClk id).refEvent.isRetired { kind := 8, phys := physOf 31 0 0 0 } = false ∧
      ((rich.onSvc fun v => { v with retiredUnits := [{ kind := 8, phys := physOf 31 0 0 0 }] }).onClk id).refEvent.isRetired
        { kind := 8, phys := physOf 31 0 0 0 } = true) ∧
    (let s := ((rich.onRo 0 fun r => { r with weave := { r.weave with enable := true } }).onCoreIsl 0 fun x => { x with use := 1 }).onClk fun c =>
       { c with rootReset := false }
     s.needsPin 0 = true ∧ s.pq 0 ≠ 31 ∧ (s.coreIsl (s.pq 0)).use ≤ 1 ∧ s.clk.pinned.contains 0 = false ∧ s.clk.lostSel = false ∧ s.clk.rootReset = false) ∧
    ((rich.onCoreIsl 16 fun x => { x with trans := some (1, 9) }).coreIsl 16).trans = some (1, 9) := by
  refine ⟨?_, ?_, ?_, ?_, ?_, ?_, ?_, ?_⟩ <;> decide +kernel

def boot (g : Dev → Dev) : State := State.reset.onDev g
def copyB : ImgCopy := { len := 256, bytes := [(8, 0), (9, 0), (12, 0), (13, 0), (14, 0), (15, 0)], valid := true, age := 1 }
/-- A device in BOOT whose firmware slots 0 and 1 and microcode slot 2 hold these copies. -/
def flash (a b c : ImgCopy) (g : Dev → Dev) : State :=
  boot fun d => g { d with images := [(0, { ImgSlot.empty with a := a }), (1, { ImgSlot.empty with a := b }), (2, { ImgSlot.empty with a := c })] }
/-- All sensors at `m`. -/
def temps (m : Int) : List Int := List.replicate 26 m
/-- A device whose boot self-test can end, with the firmware and microcode images that it needs. -/
def tested : State := (flash copyB .erased copyB fun d => { d with fwUp := true }).onClk fun c => { c with sAt := some 5, rootReset := false }
def bound (s : State) : State := ((List.range 17).foldl (fun (a : State) p => a.onPhys p fun x => { x with mcode := s.microcode }) s).bindAll
theorem wit_PowerRowsComplete :
    (boot fun d => { d with st := .off }).dev.st = .off ∧ rich.dev.st ≠ .off ∧
    ((10 : Fin 11).val ≠ 0 ∧ (let s1 := (clk fun c => { c with good := 1023 }).onClk fun c => { c with good := setBit c.good 10 true }
      s1.clk.good = 2047 ∧ s1.clk.sAt = none) ∧ ((clk fun c => { c with good := 0 }).onClk fun c => { c with good := setBit c.good 10 true }).clk.good ≠ 2047) ∧
    (rich.clk.filterAt (rich.now - 100 * uUs) ≤ 100 ∧ 0 < rich.clk.filterAt (rich.now - 0 * uUs) ∧ State.reset.clk.filterAt (State.reset.now - 100 * uUs) ≤ 100 ∧
      epState.clk.filterAt (epState.now - 100 * uUs) ≤ 100 ∧ regulated 0 = true ∧ regulated 49 = true) ∧
    (∀ b, let s := boot fun d => { d with rst := b }
     s.dev.st ≠ .off ∧ s.dev.rst = b) ∧
    (rich.runs = true ∧ (tested.dev.st = .boot ∧ tested.clk.sAt ≠ none) ∧ epState.dev.st = .endpaper ∧
      (State.reset.runs = false ∧ State.reset.clk.sAt = none ∧ State.reset.dev.st ≠ .endpaper)) ∧
    (State.reset.dev.st = .boot ∧ State.reset.clk.sAt = none ∧ State.reset.lastImage = none) ∧
    (let s := flash .erased .erased .erased id
     s.dev.st = .boot ∧ s.dev.fwUp = false ∧ s.dev.rst = false ∧ s.newest s.dev.fwActive = none ∧ s.newest (1 - s.dev.fwActive) = none) ∧
    (let s := flash copyB .erased copyB id
     s.dev.st = .boot ∧ s.dev.fwUp = false ∧ s.dev.rst = false ∧ (s.newest s.dev.fwActive).isSome = true ∧ s.lastImage = none) ∧
    (let s := flash .erased copyB copyB id
     s.dev.st = .boot ∧ s.dev.fwUp = false ∧ s.dev.rst = false ∧ s.newest s.dev.fwActive = none ∧ (s.newest (1 - s.dev.fwActive)).isSome = true) ∧
    (tested.dev.st = .boot ∧ tested.dev.fwUp = true ∧ tested.dev.rst = false ∧ tested.clk.sAt ≠ none ∧ tested.clk.lostSel = false ∧ tested.clk.rootReset = false ∧ tested.clk.regsBad = [] ∧ (bound tested).fullCapacity = true ∧
      (bound (tested.onSvc fun v => { v with dramRetired := 1 })).fullCapacity = false) ∧
    (hotSensor (temps 115001) 115000 (fun _ => true) = some 0 ∧ hotSensor (temps 115000) 115000 (fun _ => true) = none ∧
      hotSensor (temps 125001) 125000 (fun i => i != 22) = some 0 ∧ hotSensor (temps 125000) 125000 (fun i => i != 22) = none) := by
  refine ⟨?_, ?_, ?_, ?_, ?_, ?_, ?_, ?_, ?_, ?_, ?_, ?_⟩ <;> decide +kernel

end Sys2Proof.Tests
end

