-- ==== Sys2Proof/Tests/RowsC.lean ====
section
/-! SUPPORT. States that meet the hypotheses of the statements, clause by clause: capture, bias, events and service, the general rules and the
invariants (O41 to O60). -/
set_option Elab.async false -- one thread at a time: each has a large stack

namespace Sys2Proof.Tests
open Sys2Proof.Machine

/-! ### Capture and the interval meter (O41) -/

def capA (kind : Nat) : CapCfg :=
  { skind := kind, line := 0, dec := 0, mask := false, quire := 0, folio := 0, rsets := 0, ring := false, region := 1, mcomp := 1, queue1 := false, nseg := 1, seglen := 64, pre := 0, evSeg := 0xFFFF, evDone := 0xFFFF, evAlarm := 0xFFFF, mhyst := 0, mlevel := 0 }
def capAt (kind : Nat) (st : CapSt) : State := rich.onCapU 15 fun u => { u with cfg := some (capA kind), st := st }
def trigA : CapTrig := { tsrc := 1, tcomp := 0, slope := 0, level := 0, hyst := 0, evch := 7 }
def tinLine (g : TinIn → TinIn) : State := rich.onTinIn 7 g
def hits (n : Nat) : List Nat := [n]
/-- Sixteen converter codes of ADC line 0. -/
def codesA : List AdcIn := [{ line := 0, first := 0, codes := List.replicate 16 5 }]
theorem wit_CaptureAndIntervalRowsComplete :
    (∀ k ∈ [0, 1], ∀ st ∈ [CapSt.armed, .recording, .holdoff], ((capAt k st).capU 15).cfg = some (capA k) ∧ (capA k).skind ≠ 2 ∧
      ((capAt k st).capU 15).st = st ∧ ((capAt k st).capU 15).skind ≠ 2 ∧ (capA k).reach codesA ((capAt k st).capU 15).from' ≠ 0 ∧
      (capA k).reach [] ((capAt k st).capU 15).from' = 0) ∧
    (((capAt 2 .holdoff).capU 15).skind = 2 ∧ ((capAt 2 .holdoff).capU 15).st = .holdoff) ∧
    (∀ p ∈ [none, some (trigA, 3)], ((rich.onCapU 15 fun u => { u with trigPend := p }).capU 15).trigPend = p) ∧
    (∀ b, let s := (tinLine fun x => { x with calBy := some (6, 16) }).onCal fun c => { c with suspended := b }
     s.tinRun 6 = some (7, 16) ∧ s.bsc.cal.suspended = b ∧ tinAgree (2 ^ 16) (hits 65536) (hits 65536) = true ∧
      tinAgree (2 ^ 16) (hits 65536) (hits 1) = false) ∧
    (let s := tinLine fun x => { x with filter := 9 }
     let s1 := (s.advanceTo (100 * uTick)).onCap fun c => { c with temp := 25000 }
     s.runs = true ∧ 7 < 8 ∧ 8 ≤ 14 ∧ (s1.tinIn 7).filter ≤ 9 ∧ ¬ (s1.tinIn 7).filter ≤ 8 ∧ (s1.tinIn 7).calBy = none ∧ (s1.tinIn 7).lastEdge = none) ∧
    (let s := tinLine fun x => { x with table := some [], lastEdge := some 20971500 }
     let s1 := (s.advanceTo (100 * uTick)).onCap fun c => { c with temp := 25000 }
     s.runs = true ∧ (s1.tinIn 7).filter ≤ 9 ∧ (s1.tinIn 7).calBy = none ∧ (s1.tinIn 7).lastEdge = some 20971500 ∧
      5 * (((s1.tinTables 7 true).edgeTime 7 100 5).1 - (20971500 : Int)) < 2097152) ∧
    (∀ n ∈ [62, 63], let s := rich.onCap fun c => { c with divs := [(14, n)] }
     let s1 := (s.advanceTo (100 * uTick)).onCap fun c => { c with temp := 25000 }
     s.runs = true ∧ tget 0 s1.cap.divs 14 + 1 = n + 1) ∧
    (let s := rich.onTinEng 7 fun e => { e with running := true, cfg := { e.cfg with mode := 2 }, open' := some (5, 9) }
     (s.tinEng 7).running = true ∧ (s.tinEng 7).cfg.mode = 2 ∧ (s.tinEng 7).open' = some (5, 9)) := by
  refine ⟨?_, ?_, ?_, ?_, ?_, ?_, ?_, ?_⟩ <;> decide +kernel

/-! ### Bias and monitor (O42) -/

/-- A safe-code image whose entry of channel 0 is 0 V in range 0. -/
def safeA : ImgCopy :=
  let e := par 32 [(3, 0xFF), (12, 2 ^ 32 - 1250000), (16, 1250000), (20, 1000), (22, 1000)]
  { len := 2500, bytes := [(8, 0), (9, 3), (12, 0), (13, 0), (14, 0), (15, 0)] ++ (List.range 32).map fun k => (128 + k, lget 0 e k), valid := true, age := 1 }
def safeState : State := (rich.onImg 0x081 fun x => { x with a := safeA }).onClk fun c => { c with good := 2047 }
def injA : Inj := { ch := 5, avg := 0, count := 1, settle := 0, who := .cmd, begun := true, done := 0, raw := 0, sum := 0, halfRaw := 0, halfSum := 0, bad := 0, first := 0 }
/-- The state in which a host slot looks at the injections. -/
def slotState (s : State) : State :=
  s.bsc.calRuns.foldl (fun (a : State) r => a.biasCalNext r) ((s.advanceTo (1 * uUs)).onBsc fun b =>
    { b with hostSlot := 1, seq := { b.seq with passFrom := if b.seq.run && b.seq.passFrom.isNone then some 1 else b.seq.passFrom } })
def injState (begun run : Bool) (again : Nat) : State :=
  (rich.onBsc fun b => { b with injs := [{ injA with begun := begun }] }).onSeq fun q => { q with run := run, again := again }
theorem wit_BiasAndMonitorRowsComplete :
    ((rich.onBch 63 fun c => { c with sw := some { step := .held 9, range := 2, target := some 5 } }).bch 63).sw = some { step := .held 9, range := 2, target := some 5 } ∧
    (rich.dev.st ≠ .off ∧ rich.dev.st ≠ .endpaper) ∧
    ((safeState.bch 0).st = .clamped ∧ safeState.bsc.mayRamp = true ∧ safeState.dev.st ≠ .off ∧ safeState.dev.st ≠ .endpaper ∧
      (safeState.safeEntry 0).isSome = true ∧ bitOf safeState.clk.good 9 = true ∧ bitOf safeState.clk.good 10 = true ∧
      
      (let s := rich.onImg 0x081 fun _ => ImgSlot.empty
       (s.bch 1).st = .clamped ∧ s.bsc.mayRamp = true ∧ s.safeEntry 1 = none)) ∧
    (roundCh 112 = 146 ∧ roundCh 113 = 32 ∧ roundCh 40 = 74 ∧ roundCh 0 ≠ 146 ∧ roundCh 0 ≠ 32 ∧ roundCh 0 ≠ 74 ∧ roundCh 0 < 82 ∧ 82 ≤ roundCh 111 ∧
      roundCh 111 ≠ 146 ∧ rich.svc.spq ≠ none ∧ (rich.onSvc fun v => { v with spq := none }).svc.spq = none) ∧
    (slotState rich).bsc.injs = [] ∧
    (∀ e ∈ [((true, false, 0) : Bool × Bool × Nat), (false, false, 0), (false, true, 8), (false, true, 7)], let s2 := slotState (injState e.1 e.2.1 e.2.2)
     s2.bsc.injs = { injA with begun := e.1 } :: [] ∧ s2.bsc.seq.run = e.2.1 ∧ s2.bsc.seq.again = e.2.2) ∧
    (∀ b, ∀ k ∈ [0, 1, 2, 3], let s := rich.onCal fun c => { c with suspended := b }
      let c := lget ⟨1, 10, 0⟩ s.bsc.cal.classes k
      let t := (max c.last s.now / (c.intervalMs * uMs) + 1) * (c.intervalMs * uMs)
      ((s.advanceTo t).onCal fun x => { x with classes := lput x.classes k { c with last := t } }).bsc.cal.suspended = b) := by
  refine ⟨?_, ?_, ?_, ?_, ?_, ?_, ?_⟩ <;> decide +kernel

/-! ### Events and service (O43) -/

def flA : Flight := { ch := 3, task := .obj 7, fields := [0], prod := 9, ehops := 0, time := 5 }
def svc (g : Svc → Svc) : State := rich.onSvc g
def migA (copied : Bool) : Migration := { q := 1, target := 16, why := .command, since := 0, first := true, copied := copied, dirty := 100 }
def runT (w : TestWhy) : RunTest := { unit := { kind := 1, phys := 2 }, why := w, object := 0, detail := 0, till := 9, remapped := false, page := none }
def moveA (back : Bool) (v : Option (Option Nat)) : PendMove := { unit := { kind := 6, phys := physOf 1 5 0 0 }, back := back, verdict := v, flags := 0, object := 0, detail := 0 }
theorem wit_EventAndServiceRowsComplete :
    (rich.dev.st ≠ .off ∧ rich.hifUp = true) ∧
    (let s := rich.onEv fun e => { e with flights := [{ flA with ch := 4 }, flA] }
     let x := s.oldest flA
     s.ev.flights.drop 1 = flA :: [] ∧ (((s.advanceTo (s.actEnd x)).ev.flights.filter x.same).filter (x.meets (s.actEnd x))).take 1 = [flA]) ∧
    (let s := rich.onEv fun e => { e with flights := [{ flA with time := uS }] }
     let x := s.oldest { flA with time := uS }
     s.ev.flights.drop 0 = { flA with time := uS } :: [] ∧
      (((s.advanceTo (s.actEnd x)).ev.flights.filter x.same).filter (x.meets (s.actEnd x))).take 1 = [{ flA with time := uS }]) ∧
    ((svc fun v => { v with migration := some (migA false) }).svc.migration = some (migA false) ∧ (migA false).copied = false) ∧
    (let s := svc fun v => { v with migration := some (migA true) }
     s.svc.migration = some (migA true) ∧ s.maySwitch (migA true) = true) ∧
    (svc fun v => { v with handover := .staging 1 9 }).svc.handover = .staging 1 9 ∧
    (svc fun v => { v with handover := .waitPause 1 9 }).svc.handover = .waitPause 1 9 ∧
    (∀ b, let s := svc fun v => { v with handover := .pause 1 9 0 b }
      s.svc.handover = .pause 1 9 0 b ∧ s.now ≤ 0 + 150 * uUs) ∧
    (svc fun v => { v with trial := some (0, 9) }).svc.trial = some (0, 9) ∧
    (errorKind 1 = true ∧ FUnit.ok { kind := 1, phys := (16 : BitVec 32).toNat } = true ∧ rich.isRetired { kind := 1, phys := (16 : BitVec 32).toNat } = false) ∧
    (∀ w ∈ [TestWhy.selftest, .error, .readmit], let s := svc fun v => { v with tests := [runT .readmit, runT w] }
      s.svc.tests.drop 1 = runT w :: [] ∧ (runT w).why = w) ∧
    (∀ b, ∀ v ∈ [none, some none], let s := svc fun x => { x with moves := [moveA b v] }
      s.svc.moves.drop 0 = moveA b v :: [] ∧ s.boundTo (moveA b v).unit.pq = some 1 ∧ s.moveReady 1 (moveA b v).unit = true ∧ (moveA b v).back = b ∧
        (moveA b v).verdict = v ∧ (s.onQb 1 fun x => { x with pq := 31 }).boundTo (moveA b v).unit.pq = none) ∧
    (let s := rich.onTrust fun x => { x with nonces := [(Src.mgmt.key, some ([1], 9))] }
     tget none s.trust.nonces Src.mgmt.key = some ([1], 9)) ∧
    (let s := rich.onDev fun d => { d with held := [⟨packetOf 0 { src := .mailbox, flags := 1, tag := 0, object := 0, seq := 0, params := [] }, true, [], [.mk .ownerRelease 0 0], false, 0, none, []⟩] }
     (s.heldOn (wait .ownerRelease 0 0)).isSome = true) ∧
    (∀ k ∈ [WaitKind.imageBegin, .imageCommit, .imageErase],
     let s := rich.onDev fun d => { d with held := [⟨packetOf 0 { src := .mailbox, flags := 1, tag := 0, object := 0, seq := 0, params := [] }, true, [], [.mk k 130 0], false, 0, none, []⟩] }
     (s.heldOn (wait k 130 0)).isSome = true ∧ ∀ j ∈ [WaitKind.imageBegin, .imageCommit, .imageErase], j ≠ k → s.heldOn (wait j 130 0) = none) ∧
    (let r : Region := { size := 65536, owner := 0, shared := true, mfault := false, zeroed := false, retiredPages := [] }
     let s := svc fun v => { v with regions := [(2047, some r)] }
     tget none s.svc.regions 2047 = some r ∧ r.zeroed = false) := by
  refine ⟨?_, ?_, ?_, ?_, ?_, ?_, ?_, ?_, ?_, ?_, ?_, ?_, ?_, ?_, ?_⟩ <;> decide +kernel

/-! ### General rules (O44 to O50) -/

def persObj : Obj := { cls := .quire, quire := 4, folio := 0, ctx := 0, index := 0 }
/-- A PERS_SET of Quire 4 from array port 1, an observer. -/
def persPkt (src : Src) : Pkt := packetOf 0x0106 { src := src, flags := 1, tag := 0, object := 0x04400000, seq := 0, params := par 4 [(0, 1), (2, NO)] }
def persCmd (src : Src) : Cmd := { pkt := persPkt src, obj := persObj, p := par 4 [(0, 1), (2, NO)], timed := false, signed := false }
/-- What O44 and O45 ask alike. -/
theorem pers_common : ∀ src ∈ [Src.array 0, .mailbox],
    specOf (persPkt src).code = some opPersSet ∧ (placeOf 1 0 (persPkt src) false).waited = false ∧
      (persPkt src).flagsOk opPersSet (placeOf 1 0 (persPkt src) false) = true ∧ (persPkt src).quiet = false ∧
      (persPkt src).extra ≤ (persPkt src).req.params.length ∧ opPersSet.fits ((persPkt src).req.params.length - (persPkt src).extra) = true ∧
      Obj.ofId (persPkt src).req.object.toNat = some persObj ∧ opPersSet.takes persObj = true ∧ persObj.wild = false ∧
      (persPkt src).cmds epState.live persObj = [persCmd src] ∧ (persPkt src).cmds State.reset.live persObj = [persCmd src] ∧
      opPersSet.objOk (persCmd src).obj = true := by
  intro src h
  simp only [List.mem_cons, List.not_mem_nil, or_false] at h
  rcases h with rfl | rfl <;> exact ⟨rfl, by decide +kernel⟩

theorem wit_PrivilegeIsRequired :
    (State.reset.privOf (persCmd (.array 0)).port).code < (opPersSet.priv (persCmd (.array 0))).code := by decide +kernel

theorem wit_StoppedDeviceTakesItsSubsetOnly :
    opPersSet.portErr (persCmd .mailbox) epState = none ∧ opPersSet.tokenErr (persCmd .mailbox) epState = (epState, none) ∧
      epState.dev.st ≠ .run ∧ epState.dev.st ≠ .reduced ∧ opPersSet.ep (persCmd .mailbox) = false := by
  decide +kernel

theorem wit_DeviceTimeFieldsRoundTrip : (2 ^ 48 * uS - 25) % 25 = 0 ∧ 2 ^ 48 * uS - 25 < 2 ^ 48 * uS ∧ (dtBytes 0).length = 12 := by decide +kernel

theorem wit_ObjectIdsRoundTrip : persObj.quire < 64 ∧ persObj.folio < 64 ∧ persObj.ctx < 8 ∧ persObj.index < 2048 ∧ Obj.ofId 0x04400000 = some persObj := by
  decide +kernel

theorem wit_StepWordsDecodeTheirEncoding : StepWord.ok (.hold 16777215 true true true) = true := by decide
theorem wit_CoreWordsDecodeTheirEncoding : CoreWord.ok (.rep true 7 0 4095) = true := by decide

/-- A table with one channel and one route. -/
theorem wit_LoopCheckFindsExactlyTheCycles : twf EvChan.reset evState.ev.chans = true ∧ (∀ e ∈ evState.ev.chans, e.1 < 256) ∧
    evState.evCheck 0 evState.ev.chans = none := by decide +kernel

/-! ### Feedback cores: the invariant and the frame (O51, O53 to O55) -/

/-- Core 3 of Quire 0 runs, and its first word is `w`. -/
def runsWord (w : CoreWord) : State := rich.onCore 0 3 fun c => { c with bank0 := [(0, BitVec.ofNat 32 w.enc)], st := .running }

theorem next_of {x : Host.Outcome State Fault Refusal} (h : (match x with | .next _ => true | _ => false) = true) : ∃ t, x = .next t := by
  cases x with
  | next t => exact ⟨t, rfl⟩
  | fault f => cases h
  | refused r => cases h

theorem coreReady_of {s : State} {q k : Nat} (h : (let c := s.core q k
    twf FbQuire.reset s.fb && twf FbCore.reset (s.fbq q).cores && decide (c.d.length = 8) &&
    decide (c.x.length = 4 ∧ c.y.length = 4 ∧ c.wx.length = 4 ∧ c.wy.length = 4) && decide (c.eilat.length = 4 ∧ c.ifd.length = 3) &&
    decide (c.calls.length ≤ 4 ∧ ∀ t ∈ c.calls, t ≤ 4096) && decide (c.reps.length ≤ 4 ∧ ∀ r ∈ c.reps, r.start ≤ 4096) && c.swap.isNone &&
    decide (c.pc < 4096)) = true) : CoreReady s q k := by
  simp only [Bool.and_eq_true, decide_eq_true_eq, Option.isNone_iff_eq_none] at h
  obtain ⟨⟨⟨⟨⟨⟨⟨⟨h1, h2⟩, h3⟩, h4⟩, h5⟩, h6⟩, h7⟩, h8⟩, h9⟩ := h
  exact ⟨h1, h2, h3, h4, h5, h6, h7, fun e he => by rw [h8] at he; (cases he), by omega, fun _ => h9⟩

theorem wit_CoreRowsKeepTheirCoreWellFormed :
    let w := CoreWord.call 4095
    let s := runsWord w
    Instr.coreCall 0 3 ∈ coreRows 0 3 ∧ Issues s 0 3 w ∧ CoreReady s 0 3 ∧ CoreReady (issueState s 0 3 w.opc) 0 3 ∧
      ((issueState s 0 3 w.opc).core 0 3).st = .running ∧ ∃ t, Machine.exec (.coreCall 0 3) s = .next t := by
  refine ⟨by decide +kernel, ⟨by decide +kernel, by decide +kernel, by decide +kernel⟩, coreReady_of (by decide +kernel), coreReady_of (by decide +kernel),
    by decide +kernel, next_of (by decide +kernel)⟩

theorem wit_CoreStepsLeaveEverythingElse :
    let s := runsWord (.alu 8 1 2 3)
    (((issueState s 0 3 8).core 0 3).after 1).pc < 4096 ∧ twf FbQuire.reset (issueState s 0 3 8).fb = true ∧
      twf FbCore.reset ((issueState s 0 3 8).fbq 0).cores = true := by
  decide +kernel

def noMoves : Moves := { xd := 7, xi := 3, xen := false, yd := 6, yi := 2, yen := false, xupd := true, yupd := false }
theorem wit_GuardBitsHold256Products : noMoves.xen = false ∧ noMoves.yen = false ∧
    (∀ o ∈ [2, 3, 4], let w := CoreWord.mac o true 7 6 noMoves
      ((runsWord w).core 0 3).st = .running ∧ (runsWord w).pers 0 = .control ∧
        decodeCore (((runsWord w).core 0 3).word ((runsWord w).core 0 3).pc) = some w) ∧
    (List.replicate 256 ((0x8000 : BitVec 16), (0x8000 : BitVec 16))).length ≤ 256 := by
  decide +kernel

theorem wit_RepeatLevelsRunCountPlusOneTimes :
    Folio.reset.inRing = false ∧ Folio.reset.pc + 1 < Folio.reset.ring.base ∧ Folio.reset.reps.length < 3 ∧ Folio.reset.reps = [] ∧
      Folio.reset.pendHalt = none ∧ 3 ≤ ({ Folio.reset with reps := List.replicate 3 ⟨1, false, 0, 2, 0⟩ } : Folio).reps.length := by
  decide +kernel

/-- A Folio at rest, and one that plays. -/
theorem wit_PhaseShiftsAddModulo : (rich.folio 0 0).busy = false ∧ ((rich.onFolio 0 0 fun x => { x with st := .running }).folio 0 0).busy = true := by
  decide +kernel

/-! ### Memory (O57 to O59) -/

/-- The window over the last bytes of region 1. -/
def window : State := rich.onDev fun d => { d with winRegion := 1, winEn := true, winBase := 65536 }
def regionA : Region := { size := 1048576, owner := 0, shared := true, mfault := false, zeroed := true, retiredPages := [] }
def bytes4 : List Byte := [1, 2, 3, 4]
theorem wit_WindowWritesReadBack :
    window.reaches .mailbox = true ∧ window.dev.winEn = true ∧ window.dev.st ≠ .endpaper ∧ window.region window.dev.winRegion = some regionA ∧
      983036 + bytes4.length ≤ 2 ^ 30 ∧ window.dev.winBase + 983036 + bytes4.length ≤ regionA.size ∧ regionA.size ≤ 2 ^ 40 ∧
      (∀ j, j < bytes4.length → pageRetired regionA (window.dev.winBase + 983036 + j) = false) ∧ Memory.wf window.svc.dram = true := by
  refine ⟨?_, ?_, ?_, ?_, ?_, ?_, ?_, fun _ _ => rfl, ?_⟩ <;> decide +kernel

def dmaIn : State := rich.onDma 15 fun d => { d with busy := true, region := 1, length := 128 }
theorem wit_WindowAndDmaWritesStoreWhereTheySay :
    (window.reaches .mailbox = true ∧ window.dev.winEn = true ∧ window.dev.st ≠ .endpaper ∧ window.region window.dev.winRegion = some regionA ∧
      983036 + bytes4.length ≤ 2 ^ 30 ∧ window.dev.winBase + 983036 + bytes4.length ≤ regionA.size ∧ regionA.size ≤ 2 ^ 40) ∧
    ((dmaIn.dmaCh 15).busy = true ∧ (dmaIn.dmaCh 15).stream = none ∧ (dmaIn.dmaCh 15).dir = false ∧
      (dmaIn.dmaCh 15).regOffset + (dmaIn.dmaCh 15).length ≤ 2 ^ 40) := by
  decide +kernel

theorem wit_HostAccessesKeepMemoryCanonical : Memory.wf window.svc.dram = true ∧
    ∀ i ∈ [Instr.bar2Access 0 (.write bytes4), .winCtl (.base 0), .dmaGo 15 0, .dmaStop 15 0 [], .dmaPassComplete 15 [] true, .regionZeroed 5, .fabricStall 25],
      ∃ t, Machine.exec i window = .next t := by
  refine ⟨by decide +kernel, fun i hi => next_of ?_⟩
  revert i hi
  decide +kernel

/-- One command inside BAR0, and two inside BAR2. -/
theorem wit_EveryCommandCompletes :
    (∀ i ∈ [Instr.regWrite 65532 (zeros 4), .bar2Access (2 ^ 30 - 4) (.read 4), .bar2Access (2 ^ 30 - 4) (.write bytes4)],
      (∀ off b, i = .regWrite off b → off + b.length ≤ 65536) ∧ (∀ off n, i = .bar2Access off (.read n) → off + n ≤ 2 ^ 30) ∧
      (∀ off b, i = .bar2Access off (.write b) → off + b.length ≤ 2 ^ 30)) := by
  intro i hi
  simp only [List.mem_cons, List.not_mem_nil, or_false] at hi
  rcases hi with rfl | rfl | rfl <;> refine ⟨?_, ?_, ?_⟩ <;> intro off b h <;> cases h <;> decide

end Sys2Proof.Tests
end

