-- ==== Sys2Proof/Tests/Slice0.lean ====
section
/-! SUPPORT. The model's own tests: ill-formed commands that WellFormed refuses, and the worked examples and check values of the spec. The witnesses of
the statements' hypotheses stand in the files this one imports. -/
set_option Elab.async false -- one thread at a time: each has a large stack

namespace Sys2Proof.Tests
open Sys2Proof.Machine

/-! ### Well-formedness -/

/-- A DEV_NOP with given flags and parameters. -/
def nopWith (flags : BitVec 8) (ps : List Byte) : Instr := .devNop { src := .mailbox, flags := flags, tag := 0, object := 0, seq := 0, params := ps }
theorem test_wf_accepts_nop : (nopWith 31 (zeros 4064)).wf = true := by decide +kernel
theorem test_wf_refuses_reply_bit : (nopWith 32 []).wf = false := by decide
theorem test_wf_refuses_long_packet : (nopWith 1 (zeros 4068)).wf = false := by decide +kernel
theorem test_wf_refuses_odd_length : (nopWith 1 (zeros 3)).wf = false := by decide
theorem test_wf_refuses_long_block : (Instr.blockWrite (zeros 256) true).wf = false := by decide +kernel
theorem test_wf_refuses_short_shutdown : (Instr.temperatureShutdown [0]).wf = false := by decide
theorem test_wf_refuses_short_trip : (Instr.hardwareThermalTrip (List.replicate 27 0)).wf = false := by decide

/-! ### Encodings written out in the spec -/

/-- 00, the examples of object IDs. -/
theorem test_object_ids :
    ({ cls := .tonegen, quire := 3, folio := 7, ctx := 0, index := 1 } : Obj).id = 0x1031C001 ∧
    ({ cls := .context, quire := 63, folio := 31, ctx := 5, index := 0 } : Obj).id = 0x0FF7E800 ∧ (monId 33) = 0x38000021 := by decide

/-- R37: the check value of the nine ASCII bytes "123456789". -/
theorem test_crc_check_value : crc32c [0x31, 0x32, 0x33, 0x34, 0x35, 0x36, 0x37, 0x38, 0x39] = 0xE3069283 := by decide +kernel

/-- 02, "moving Q3 from SERVICE to CORRELATE": the bytes of the packet. -/
def persReq : Req := { src := .ring 2, flags := 1, tag := 0x42, object := 0x04300000, seq := 0x17, params := [0x02, 0x00, 0x05, 0x00] }
theorem test_packet_bytes : (packetOf 0x0106 persReq).body =
    [0x01, 0x01, 0x06, 0x01, 0x42, 0x00, 0x04, 0x00, 0x00, 0x00, 0x30, 0x04, 0x17, 0x00, 0x00, 0x00, 0x02, 0x00, 0x05, 0x00] := by decide
/-- The same example: from CONTROL step 10 fails with E_STATE, and the status word reads 0x0000_0002 (RUN). -/
theorem test_pers_set_from_control :
    opPersSet.state { pkt := packetOf 0x0106 persReq, obj := { cls := .quire, quire := 0, folio := 0, ctx := 0, index := 0 }, p := persReq.params, timed := false, signed := false }
      rich = some { status := 0x0104, word := 2, more := [] } := by decide +kernel

/-- 03, the worked example: words 2 and 6 of Folio 0. -/
theorem test_step_words :
    decodeStep 0x00000000000010000000000000000321 =
      some (.play 50 0 { ctx := 0, rate := 0, env := 0, amp := 0x20000 } { ctx := 0, rate := 0, env := 0, amp := 0 } false) ∧
    decodeStep 0x08000A16 = some (.branch (.result 0 0 1) false false 10) := by decide
/-- R91: a reserved bit, a reserved OP and a DUR of 0 are refused. -/
theorem test_step_words_refused : decodeStep (0x321 + 2 ^ 127) = none ∧ decodeStep 13 = none ∧ decodeStep 1 = none := by decide

/-- 05, the worked example: the twelve words of the program. -/
theorem test_core_words :
    [0x50800001, 0xB8000000, 0xBC000000, 0x45700000, 0x302E0000, 0xC08C0000, 0xC8240000, 0x2DAE0000, 0x59B0000E, 0xC0988000, 0xA0000001].map decodeCore =
      [some (.imm 0x14 1 0 1), some (.wait 0 0 0), some (.pop false), some (.alu 0x11 2 7 0), some (.alu 0x0C 0 2 7), some (.flag 8 3 0),
       some (.sendf 0 true 1 0 false 0), some (.alu 0x0B 3 2 7), some (.imm 0x16 3 3 14), some (.flag 9 2 2), some (.branch 0 1)] := by decide
/-- R189: a reserved OPC and a nonzero reserved bit are refused. -/
theorem test_core_words_refused : decodeCore 0x14000000 = none ∧ decodeCore 1 = none := by decide

/-- 12, the example's header: label 1,562,560,936 is SEC 1, NS 38,999 and FRAC 2,621. -/
theorem test_device_time_fields : dtBytes (1562560936 * uSample) = leBytes 2 2621 ++ leBytes 4 38999 ++ leBytes 6 1 := by decide

/-! ### Results written out in the spec -/

/-- 04, the worked example: the discriminator of read-out set 0. -/
def discA : Disc :=
  { nstates := 3, a0 := 6912, b0 := -1728, a1 := -2304, b1 := 5184, a2 := -5184, b2 := -4032, c0 := -25380864000, c1 := -16091136000, c2 := -21565440000, margin := 6635520000 }
theorem test_discriminator : discA.decide 6912000 (-1728000) = (0, false) ∧ discA.decide 2304000 1728000 = (0, true) ∧
    discA.decide (-2304000) 5184000 = (1, false) ∧ discA.scores 6912000 (-1728000) = [25380864000, -40974336000, -50429952000] := by decide
/-- The same example: a result landing on centre 1, WCOUNT 5. -/
theorem test_result_word : resultWord 1 false false false false false false 0 0 5 (topBits (-2304000)) (topBits 5184000) = 0x4F1A373600050001 := by decide

/-- 13, the worked example: the codes of BIAS12 on RANGE 1 and RANGE 2. -/
theorem test_bias_codes : codeOf 1 (1800000 * u15) = 377487 ∧ codeOf 2 (377487 * biasLsb 1) = 188744 ∧ codeOf 2 (-3200000 * u15) = -335544 := by decide

/-- 14, the worked example: EV_SEG 45 on CU2 would close the cycle 45 → 46 → 45, EV_SEG 47 does not. -/
def evTable (seg : Nat) : List (Nat × EvChan) :=
  let base := [(45, { EvChan.reset with routes := [{ kind := 1, port := 0, target := 46, addr := 0 }] }), (46, { EvChan.reset with cons := [⟨captureId 2, 0⟩] })]
  let p := { EvChan.reset with prods := [⟨captureId 2, 1⟩] }
  if seg = 45 then (45, { p with routes := [{ kind := 1, port := 0, target := 46, addr := 0 }] }) :: base.drop 1 else base ++ [(seg, p)]
theorem test_loop_check : evLoop (evTable 45) = true ∧ evLoop (evTable 47) = false := by decide +kernel

/-- 03, the worked example: a FW of −2^43 turns the phase by 2^48 − 2^43 in one sample, and R118 adds to PHASE modulo 2^32. -/
theorem test_phase : phaseAt 0xF80000000000 0 0 1 = 0xF80000000000 ∧ phaseAt 0xF80000000000 0 0 32 = 0 ∧
    ((rich.apply (.ctxShift 0 0 0 0xFFFFFFFF)).apply (.ctxShift 0 0 0 2)).folio 0 0 = (rich.apply (.ctxShift 0 0 0 1)).folio 0 0 := by decide +kernel

/-- R167: −2^15 × −2^15 added 512 times is 2^39 and wraps with OV; 511 times does not. -/
theorem test_accumulator :
    let t := fun (n : Nat) => (List.range n).foldl (fun (x : FbCore) _ => x.accum false ((x.a false).toInt + (-32768) * (-32768))) .reset
    (t 511).sr.ov = false ∧ (t 512).sr.ov = true ∧ ((t 512).a false).toInt = -(2 ^ 39) := by decide +kernel

/-! ### The line code and BAR0 -/

/-- R303: each D21.5 is 1010101010, and the idle set has at least 33 transitions in its 40 bits, at either disparity. -/
def setBits (rd : Bool) : Nat := idleSet.foldl (fun (a : Nat × Bool) c => (1024 * a.1 + c.code a.2, a.2 != c.flips)) (0, rd) |>.1
theorem test_idle_set : (∀ rd, d21_5.code rd = 0b1010101010) ∧
    ∀ rd, 33 ≤ (List.range 39).countP fun k => bitOf (setBits rd) k != bitOf (setBits rd) (k + 1) := by decide
/-- R301: the two codes of an unbalanced character are complements, and it turns the disparity. -/
theorem test_comma : (ctl 28 5).code false + (ctl 28 5).code true = 1023 ∧ (ctl 28 5).flips = true ∧ d21_5.flips = false := by decide

/-- R59: RING_STAT shows ACTIVE and RING_CFG what was written; R56: reserved space reads 0. -/
theorem test_bar0_reads : ringOn.bar0Read (0x0400 + 64 * 3 + 0x10) 8 = leBytes 4 (1 + 4 * 16 + 3 * 1024) ++ leBytes 4 1 ∧ ringOn.bar0Read 0xFF00 4 = zeros 4 := by decide +kernel

/-! ### One step of the machine -/

/-- R64, R65: bytes that a BAR2 write has stored, and a byte outside them. -/
theorem test_bar2_write :
    (match Machine.exec (.bar2Access 983036 (.write bytes4)) window with | .next t => some (t.memRead 1 1048571 5) | _ => none) = some [0, 1, 2, 3, 4] := by
  decide +kernel

/-- R56: an offset past BAR0 is a hole. -/
theorem test_bar0_hole : Machine.exec (.regWrite 65536 [0]) rich = .fault .bar0Hole := by rfl

/-- R38, R72: DEV_NOP returns its parameters, and the mailbox shows the reply. -/
theorem test_nop_replies :
    (match Machine.exec (.devNop (nop 1 0 [9, 8, 7, 6])) rich with | .next t => some (t.sent.filterMap fun o => match o with | .reply _ b => some (slice b 16 4) | _ => none) | _ => none)
      = some [[9, 8, 7, 6]] := by decide +kernel

/-- R170: ADD wraps and sets C and Z. -/
theorem test_add_wraps :
    (match Machine.exec (.coreAdd 0 3) ((coreAt (.alu 8 1 2 3)).onCore 0 3 fun c => { c with d := [0, 0, 0xFFFF, 1, 0, 0, 0, 0] }) with
      | .next t => some ((t.core 0 3).dr 1, (t.core 0 3).sr.z, (t.core 0 3).sr.c, (t.core 0 3).sr.v, (t.core 0 3).pc)
      | _ => none) = some (0, true, true, false, 1) := by decide +kernel

end Sys2Proof.Tests
end

section
/-! ## Object IDs (00, R3 and R4)

A class code is 6 bits wide, and the fields of an ID lie side by side in 32 bits. -/
namespace Sys2Proof.Machine

theorem Cls.code_lt (c : Cls) : c.code < 64 := by cases c <;> decide

@[simp] theorem Cls.ofCode_code (c : Cls) : Cls.ofCode c.code = some c := by cases c <;> rfl

/-- Each entry of the table of classes stands at the class's own code. -/
theorem Cls.all_ofCode_code : ∀ n < 64, (Cls.ofCode n).all (·.code == n) = true := by decide

theorem Cls.code_of_ofCode {n : Nat} {c : Cls} (hn : n < 64) (h : Cls.ofCode n = some c) : c.code = n := by
  simpa [h] using Cls.all_ofCode_code n hn

theorem bits_lt (v lo n : Nat) : bits v lo n < 2 ^ n := Nat.mod_lt _ (Nat.two_pow_pos n)

theorem Obj.ofId_eq_some {n : Nat} {o : Obj} :
    Obj.ofId n = some o ↔ Cls.ofCode (bits n 26 6) = some o.cls ∧ o.quire = bits n 20 6 ∧ o.folio = bits n 14 6 ∧ o.ctx = bits n 11 3 ∧
      o.index = bits n 0 11 := by
  obtain ⟨c, q, f, x, i⟩ := o
  unfold Obj.ofId
  split
  · next h => simp [h]
  · next h => simp [h, eq_comm]

theorem Obj.ofId_eq_none {n : Nat} : Obj.ofId n = none ↔ Cls.ofCode (bits n 26 6) = none := by
  unfold Obj.ofId
  split
  · next h => simp [h]
  · next h => simp [h]

/-- The fields of R3 do not overlap: each is read back from the sum that spells them. -/
theorem bits_of_fields {c q f x i : Nat} (hc : c < 64) (hq : q < 64) (hf : f < 64) (hx : x < 8) (hi : i < 2048) :
    let n := c * 2 ^ 26 + q * 2 ^ 20 + f * 2 ^ 14 + x * 2 ^ 11 + i
    n < 2 ^ 32 ∧ bits n 26 6 = c ∧ bits n 20 6 = q ∧ bits n 14 6 = f ∧ bits n 11 3 = x ∧ bits n 0 11 = i := by
  simp only [bits]
  omega

/-- A number of 32 bits is the sum that its fields spell. -/
theorem fields_of_bits {n : Nat} (h : n < 2 ^ 32) :
    bits n 26 6 * 2 ^ 26 + bits n 20 6 * 2 ^ 20 + bits n 14 6 * 2 ^ 14 + bits n 11 3 * 2 ^ 11 + bits n 0 11 = n := by
  simp only [bits]
  omega

theorem Obj.ofId_id {o : Obj} (hq : o.quire < 64) (hf : o.folio < 64) (hx : o.ctx < 8) (hi : o.index < 2048) :
    o.id < 2 ^ 32 ∧ Obj.ofId o.id = some o := by
  obtain ⟨hlt, hcls, hquire, hfolio, hctx, hindex⟩ := bits_of_fields o.cls.code_lt hq hf hx hi
  refine ⟨hlt, Obj.ofId_eq_some.mpr ⟨?_, hquire.symm, hfolio.symm, hctx.symm, hindex.symm⟩⟩
  exact (congrArg Cls.ofCode hcls).trans o.cls.ofCode_code

theorem Obj.id_of_ofId {n : Nat} {o : Obj} (hn : n < 2 ^ 32) (h : Obj.ofId n = some o) : o.id = n := by
  obtain ⟨hcls, hquire, hfolio, hctx, hindex⟩ := Obj.ofId_eq_some.mp h
  have hcode : o.cls.code = bits n 26 6 := Cls.code_of_ofCode (bits_lt n 26 6) hcls
  rw [Obj.id, hcode, hquire, hfolio, hctx, hindex]
  exact fields_of_bits hn

/-- Settles O47: the fields of an ID are disjoint bit fields, and the table of classes inverts their codes. -/
theorem objectIdsRoundTrip : Obligations.ObjectIdsRoundTrip :=
  ⟨fun _ hq hf hx hi => Obj.ofId_id hq hf hx hi, fun _ _ hn h => Obj.id_of_ofId hn h, fun _ => Obj.ofId_eq_none⟩

end Sys2Proof.Machine
end

section
/-! ## The reception of a packet that stands alone (R40, R41) -/
namespace Sys2Proof.Machine

/-- Every packet row is the reception of its packet. -/
theorem exec_packet {i : Instr} {code : Nat} {r : Req} (h : i.packet? = some (code, r)) (s : State) : exec i s = receive code r s := by
  cases i <;> cases h <;> rfl

/-- What keeping a place for a reply changes is the count of reserved completion entries of a ring (R61). -/
theorem reserve_eq (s : State) (src : Src) : ∃ rings, s.reserve src false = s.onDev fun d => { d with rings := rings } := by
  cases src with
  | ring n => exact ⟨_, rfl⟩
  | mailbox => exact ⟨s.dev.rings, rfl⟩
  | array p => exact ⟨s.dev.rings, rfl⟩
  | mgmt => exact ⟨s.dev.rings, rfl⟩

/-- Taking any packet but a SESSION_OPEN changes the rings and the streams, and nothing else of the state. -/
theorem taken_eq (s : State) {p : Pkt} (hc : p.code ≠ 0x0003) :
    ∃ rings streams, s.taken p = s.onDev fun d => { d with rings := rings, streams := streams } := by
  obtain ⟨rings, hr⟩ := reserve_eq s p.req.src
  rw [State.taken, State.takeSeq, if_neg hc, hr]
  exact ⟨rings, _, rfl⟩

/-- A packet that stands alone with the expected SEQ takes its sequence number and is processed by itself. -/
theorem receive_alone {code : Nat} {r : Req} {s : State} (hw : twf .reset s.dev.streams = true) (hr : s.reaches r.src = true)
    (hp : s.pausedFor (packetOf code r) = false) (hs : s.NotStopping) (hseq : r.seq = (s.stream r.src).expect)
    (hc : (packetOf code r).chained = false) (hn : (s.stream r.src).chain = []) :
    receive code r s = .next ((s.taken (packetOf code r)).process [packetOf code r]).raisePoints := by
  have hstream : (s.reserve r.src false).stream r.src = s.stream r.src := taken_reserve_stream s r.src r.src false
  have hkept : twf .reset (s.reserve r.src false).dev.streams = true ∧ (s.reserve r.src false).pausedFor (packetOf code r) = false ∧
      (s.reserve r.src false).NotStopping := by
    obtain ⟨rings, he⟩ := reserve_eq s r.src
    rw [he]
    exact ⟨hw, hp, hs⟩
  obtain ⟨hw', hp', hs'⟩ := hkept
  have hchain := takeSeq_chain (packetOf code r) hw' (hstream ▸ hn)
  have haccept := accept_expected (s := s.reserve r.src false) (p := packetOf code r) rfl (hseq.trans (congrArg Stream.expect hstream.symm))
  have htake : (s.reserve r.src false).takeUp (packetOf code r) = (s.reserve r.src false).accept (packetOf code r) := by
    simp only [State.takeUp, stopDue_none hs', hp', Bool.not_false, if_true]
  calc receive code r s = .next ((s.reserve r.src false).takeUp (packetOf code r)) := by rw [receive, State.receive, if_pos hr]; rfl
    _ = .next ((s.taken (packetOf code r)).process [packetOf code r]).raisePoints := by rw [htake, haccept, joinChain_one hc hchain]; rfl

/-- One packet alone whose check fails is answered with its failure. -/
theorem process_one_error {s t : State} {p : Pkt} {e : Err} (h : s.check p (placeOf 1 0 p false) = (t, .error e)) :
    s.process [p] = t.replyErr p false e := by
  have hc : s.checkChain false [p] = (t, .error (0, e)) := by
    simp only [State.checkChain, List.length_singleton, State.checkAll, h]
  simp only [State.process, hc, State.failAll, if_true]

/-! ### What the checks use up: a nonce (R561), and the note that a Quire's next command gets E_CAPACITY (R532) -/

/-- The state with other nonces and another binding table, and every other part unchanged. -/
def State.withSpent (s : State) (nonces : List (Nat × Option (List Byte × Nat))) (qbind : List QBind) : State :=
  (s.onTrust fun x => { x with nonces := nonces }).onDev fun d => { d with qbind := qbind }

/-- `t` is `s` but for the nonces and the binding table. -/
def SpendsOnly (s t : State) : Prop := ∃ nonces qbind, t = s.withSpent nonces qbind

theorem SpendsOnly.refl (s : State) : SpendsOnly s s := ⟨s.trust.nonces, s.dev.qbind, rfl⟩

theorem SpendsOnly.trans {s t v : State} (h : SpendsOnly s t) (k : SpendsOnly t v) : SpendsOnly s v := by
  obtain ⟨_, _, rfl⟩ := h
  obtain ⟨n, q, rfl⟩ := k
  exact ⟨n, q, rfl⟩

theorem spendsOnly_onQb (s : State) (q : Nat) (f : QBind → QBind) : SpendsOnly s (s.onQb q f) := ⟨s.trust.nonces, _, rfl⟩

theorem capSpent_spendsOnly (s : State) (cs : List Cmd) : SpendsOnly s (s.capSpent cs) := by
  unfold State.capSpent
  refine List.foldlRecOn _ _ (SpendsOnly.refl s) fun a ha q _ => ?_
  split
  · exact ha.trans (spendsOnly_onQb a q _)
  · exact ha

/-- A token is judged without its nonce, or uses it up. -/
theorem tokenCheck_spendsOnly (c : Cmd) (s : State) : SpendsOnly s (c.tokenCheck s).1 := by
  have hnonce : SpendsOnly s (s.onTrust fun x => { x with nonces := terase x.nonces c.pkt.req.src.key }) :=
    ⟨terase s.trust.nonces c.pkt.req.src.key, s.dev.qbind, rfl⟩
  unfold Cmd.tokenCheck
  dsimp only
  split
  · exact .refl s
  split
  · exact .refl s
  split
  · exact .refl s
  split
  · exact hnonce
  split
  · exact hnonce
  split
  · exact hnonce
  split <;> exact hnonce

theorem tokenIgnored_spendsOnly (c : Cmd) (s : State) : SpendsOnly s (c.tokenIgnored s).1 := by
  unfold Cmd.tokenIgnored
  dsimp only
  split
  · split
    · exact .refl s
    · exact tokenCheck_spendsOnly c s
  · exact tokenCheck_spendsOnly c s

theorem tokenErr_spendsOnly (sp : OpSpec) (c : Cmd) (s : State) : SpendsOnly s (sp.tokenErr c s).1 := by
  unfold OpSpec.tokenErr
  split
  · exact .refl s
  · split
    · split
      · exact tokenCheck_spendsOnly c s
      · exact tokenIgnored_spendsOnly c s
    · exact .refl s

/-- Steps 5 to 9: the token alone leaves a trace. -/
theorem checkFirst_spendsOnly (s : State) (p : Pkt) (at' : Place) : SpendsOnly s (s.checkFirst p at').1 := by
  have htoken (sp : OpSpec) (c : Cmd) : SpendsOnly s (if at'.waited then (s, none) else sp.tokenErr c s).1 := by
    split
    · exact .refl s
    · exact tokenErr_spendsOnly sp c s
  unfold State.checkFirst
  split
  · exact .refl s
  dsimp only
  split
  · exact .refl s
  split
  · exact .refl s
  split
  · exact .refl s
  split
  · exact .refl s
  split
  · exact .refl s
  split
  · next h => exact (congrArg (SpendsOnly s ·.1) h).mp (htoken _ _)
  · next h => exact (congrArg (SpendsOnly s ·.1) h).mp (htoken _ _)

/-- Steps 10 to 12: the refusal for want of capacity alone leaves a trace. -/
theorem checkMid_spendsOnly (s : State) (p : Pkt) (at' : Place) (sp : OpSpec) (wild : Bool) (cs : List Cmd) :
    SpendsOnly s (s.checkMid p at' sp wild cs).1 := by
  unfold State.checkMid
  split
  · dsimp only
    split
    · exact capSpent_spendsOnly s cs
    · exact .refl s
  · exact .refl s

theorem checkTo12_spendsOnly (s : State) (p : Pkt) (at' : Place) : SpendsOnly s (s.checkTo12 p at').1 := by
  have hfirst := checkFirst_spendsOnly s p at'
  unfold State.checkTo12
  split
  · next h => rwa [h] at hfirst
  · next s1 sp wild cs h =>
    rw [h] at hfirst
    have hmid := checkMid_spendsOnly s1 p at' sp wild cs
    split
    · next h' => rw [h'] at hmid; exact hfirst.trans hmid
    · next h' => rw [h'] at hmid; exact hfirst.trans hmid

/-- The checks of R40 use up nonces and notes of a refusal, and change nothing else, whatever they find. -/
theorem check_spendsOnly (s : State) (p : Pkt) (at' : Place) : SpendsOnly s (s.check p at').1 := by
  have h12 := checkTo12_spendsOnly s p at'
  unfold State.check
  split
  · next h => rwa [h] at h12
  · next h =>
    rw [h] at h12
    split <;> exact h12

/-- Settles O8: taking a packet changes rings and streams, its checks nonces and the binding table, and a failed packet alone is only answered. -/
theorem failedPacketsChangeNothingButTheirReply : Obligations.FailedPacketsChangeNothingButTheirReply := by
  intro i code r s t e hi hcode hw hr hp hs hseq hc hn hcheck
  have hexec : exec i s = .next (t.replyErr (packetOf code r) false e).raisePoints := by
    rw [exec_packet hi, receive_alone hw hr hp hs hseq hc hn, process_one_error hcheck]
  obtain ⟨rings, streams, htaken⟩ := taken_eq s (p := packetOf code r) hcode
  obtain ⟨nonces, qbind, hspent⟩ := check_spendsOnly (s.taken (packetOf code r)) (packetOf code r) (placeOf 1 0 (packetOf code r) false)
  rw [hcheck, htaken] at hspent
  dsimp only at hspent
  refine ⟨hexec, ?_⟩
  subst hspent
  simp [State.withSpent]

end Sys2Proof.Machine
end

section
/-! ## The checks of a packet that names one object (R40)

A packet that names one object through no wildcard has one command, so each step of R40 judges that command alone. -/
namespace Sys2Proof.Machine

/-- A step of R40 over one command is its check on that command; only a wildcard's failure names the object (R49). -/
@[simp] theorem stepOver_one (c : Cmd) (f : Cmd → Option Err) : stepOver false [c] f = f c := by
  cases h : f c <;> simp [stepOver, h, Err.naming, Err.named]

/-- Steps 5 to 9: the packet of a known opcode passes them where its flags and length fit, its object exists, its port may give the command and its
token is in order. -/
theorem checkFirst_one {s t : State} {p : Pkt} {sp : OpSpec} {o : Obj} {c : Cmd} {pl : Place} (hspec : specOf p.code = some sp)
    (hwaited : pl.waited = false) (hflags : p.flagsOk sp pl = true) (hquiet : p.quiet = true → sp.bcast = true)
    (hextra : p.extra ≤ p.req.params.length) (hfits : sp.fits (p.req.params.length - p.extra) = true)
    (hid : Obj.ofId p.req.object.toNat = some o) (htakes : sp.takes o = true) (hwild : o.wild = false) (hcmds : p.cmds s.live o = [c])
    (hobj : sp.objOk c.obj = true) (hport : sp.portErr c s = none) (htoken : sp.tokenErr c s = (t, none)) :
    s.checkFirst p pl = (t, .ok (sp, false, [c])) := by
  have hform : (!p.flagsOk sp pl || (p.quiet && !sp.bcast)) = false := by simpa [hflags] using hquiet
  simp [State.checkFirst, hspec, hform, hextra, hfits, hid, htakes, hwild, hcmds, hwaited, hobj, hport, htoken, failIf, firstErr]

/-- Step 10 begins with the device state: outside RUN and REDUCED only the opcodes marked EP pass, and from HOST and MGMT alone (R29). -/
theorem stateErr_stopped {sp : OpSpec} {c : Cmd} {s : State} (hrun : s.dev.st ≠ .run) (hreduced : s.dev.st ≠ .reduced)
    (hsubset : sp.ep c = false ∨ (1 ≤ c.port ∧ c.port ≤ 4)) : sp.stateErr c s = some (eState s) := by
  have hruns : s.runs = false := by simp [State.runs, hrun, hreduced]
  have hallowed : (sp.ep c && (c.port == 0 || c.port == 5)) = false := by
    rcases hsubset with hep | ⟨hlo, hhi⟩
    · simp [hep]
    · simp [show c.port ≠ 0 by omega, show c.port ≠ 5 by omega]
  simp [OpSpec.stateErr, hruns, hallowed, stateIf, failIf, firstErr]

/-- A failure of step 10 other than E_CAPACITY ends the check and changes nothing more. -/
theorem check_fails_state {s t : State} {p : Pkt} {sp : OpSpec} {c : Cmd} {pl : Place} {e : Err}
    (hfirst : s.checkFirst p pl = (t, .ok (sp, false, [c]))) (hstate : sp.stateErr c t = some e) (hstatus : e.status ≠ Status.eCapacity) :
    s.check p pl = (t, .error e) := by
  have hmid : t.checkMid p pl sp false [c] = (t, some e) := by simp [State.checkMid, hstate, hstatus]
  simp [State.check, State.checkTo12, hfirst, hmid]

/-- Settles O45: the first check of step 10 is the device state, and nothing after it is reached. -/
theorem stoppedDeviceTakesItsSubsetOnly : Obligations.StoppedDeviceTakesItsSubsetOnly := by
  intro s t p sp o c pl hspec hwaited hflags hquiet hextra hfits hid htakes hwild hcmds hobj hport htoken hrun hreduced hsubset
  have hfirst := checkFirst_one hspec hwaited hflags hquiet hextra hfits hid htakes hwild hcmds hobj hport htoken
  have hstatus : (eState t).status ≠ Status.eCapacity := show Status.eState ≠ Status.eCapacity by decide
  exact check_fails_state hfirst (stateErr_stopped hrun hreduced hsubset) hstatus

end Sys2Proof.Machine
end

section
/-! ## What reset leaves (R18, R19, R30, R41, R129, R180, R283, R345, R496) -/
namespace Sys2Proof.Machine

/-- Each Quire is bound to the physical Quire of its number, in OFF (R18). -/
theorem reset_binding : ∀ q < 16, State.reset.pq q = q ∧ State.reset.pers q = .off := by decide

/-- The 64 flags are owned in four groups of 16 (R180). -/
theorem reset_owners : ∀ f < 64, lget 0xFF FbQuire.reset.owners f = f / 16 := by decide

/-- Settles O3: the tables in question are empty at reset and read as their entries' reset values; the bindings and the owners are lists. -/
theorem resetLeavesTheSpecifiedValues : Obligations.ResetLeavesTheSpecifiedValues := by
  refine ⟨rfl, rfl, rfl, ?streams, reset_binding, rfl, ?owners, ?slots, ?channels, rfl, rfl, rfl, rfl, rfl, rfl⟩
  case streams => exact fun _ => ⟨rfl, rfl, rfl⟩
  case owners => exact fun _ => reset_owners
  case slots => exact fun _ _ => ⟨rfl, rfl⟩
  case channels => exact fun _ => ⟨rfl, rfl, rfl⟩

end Sys2Proof.Machine
end

section
/-! ## The timing rows of a Folio: waits, lateness, refills, ring wraps and boundaries (R99 to R113, R27) -/
namespace Sys2Proof.Machine

section
variable {q : Fin 16} {f : Fin 32} {s : State}

/-! ### The ends of waits (R99 to R101) -/

theorem Folio.advance_timeout (fo : Folio) : fo.advance.timeout = fo.timeout := by
  unfold Folio.advance
  split
  · rfl
  · dsimp only
    split <;> rfl

/-- The end of a wait sets the state, the wait and the boundary; the sequencer's place and the marks of a halt and of lateness may change, TIMEOUT does not. -/
theorem Folio.goesOn_fields (fo : Folio) (n : Nat) :
    (fo.goesOn n).st = .running ∧ (fo.goesOn n).wait = none ∧ (fo.goesOn n).boundary = n ∧ (fo.goesOn n).timeout = fo.timeout := by
  unfold Folio.goesOn
  dsimp only
  split <;> exact ⟨rfl, rfl, rfl, fo.advance_timeout⟩

theorem execWaitUntilEnd_of_wait {n : Nat} {b : Bool} (hwait : (s.folio q f).wait = some (.until n b)) :
    execWaitUntilEnd q f s = .next (s.still (s.advanceTo (issueTime (n - ahead))) q f fun t => t.onFolio q f fun fo => fo.goesOn n) := by
  simp only [execWaitUntilEnd, hwait]

theorem execWaitEventTimeout_of_wait {c i n : Nat} {h : Bool} (hwait : (s.folio q f).wait = some (.event c i n h)) :
    execWaitEventTimeout q f s = .next (s.still (s.advanceTo (issueTime n)) q f fun t =>
      let s1 := t.onFolio q f fun fo => { fo.goesOn n with timeout := true }.noted fo.flags (issueTime n)
      if h then s1.haltAt q f 5 else s1) := by
  simp only [execWaitEventTimeout, hwait]

/-- The Folio whose trigger has not come by sample `n`: TIMEOUT is set, and the step may start at expiry. -/
def State.trigExpired (s : State) (q f b n : Nat) : State :=
  s.onFolio q f fun fo => { fo with timeout := true, wait := some (.trig b n (some n)) }.noted fo.flags (issueTime n)

/-- With PROCEED the step starts at expiry. -/
theorem execTrigTimeout_proceeds {b n : Nat} (hwait : (s.folio q f).wait = some (.trig b n none)) (hproceed : (s.folio q f).cfg.proceed = true) :
    execTrigTimeout q f s = .next (s.still (s.advanceTo (issueTime n)) q f fun t => t.trigExpired q f b n) := by
  simp only [execTrigTimeout, hwait, hproceed, if_true, State.trigExpired]

/-- Without PROCEED the Folio halts with cause 6. -/
theorem execTrigTimeout_halts {b n : Nat} (hwait : (s.folio q f).wait = some (.trig b n none)) (hproceed : (s.folio q f).cfg.proceed = false) :
    execTrigTimeout q f s = .next (s.still (s.advanceTo (issueTime n)) q f fun t =>
      ((t.trigExpired q f b n).onFolio q f fun fo => { fo with boundary := n }).haltAt q f 6) := by
  simp only [execTrigTimeout, hwait, hproceed, Bool.false_eq_true, if_false, State.trigExpired]

/-! ### Lateness (R110) -/

/-- The Folio's next word is not resident: there is none at the sequencer's place, which is not the end of the ring. -/
def Folio.absent (fo : Folio) : Prop := fo.word = none ∧ fo.pc ≠ 2048

theorem execFolioLate_marked {c : Nat} (hst : (s.folio q f).st = .running) (hmark : (s.folio q f).pendLate = some c) :
    execFolioLate q f s = .next (s.goLate q f c) := by
  simp [execFolioLate, hst, hmark]

theorem execFolioLate_absent (hst : (s.folio q f).st = .running) (hmark : (s.folio q f).pendLate = none) (habsent : (s.folio q f).absent) :
    execFolioLate q f s = .next (s.still (s.advanceTo (issueTime ((s.folio q f).boundary - ahead))) q f fun t =>
      t.goLate q f (s.folio q f).absentCause) := by
  obtain ⟨hword, hpc⟩ := habsent
  simp [execFolioLate, hst, hmark, hword, hpc]

theorem execFolioLate_behind (hst : (s.folio q f).st = .running) (hmark : (s.folio q f).pendLate = none) (hpresent : ¬ (s.folio q f).absent)
    (hbehind : (s.folio q f).boundary < (s.folio q f).free) : execFolioLate q f s = .next (s.goLate q f 3) := by
  have hword : ((s.folio q f).word.isNone && (s.folio q f).pc != 2048) = false := by
    simpa [Folio.absent] using hpresent
  simp [execFolioLate, hst, hmark, hword, hbehind]

/-- A LATE Folio that has reached the end of its stream halts with cause 4. -/
theorem execFolioLate_end (hst : (s.folio q f).st = .late) (habsent : (s.folio q f).absent)
    (hend : (s.folio q f).ring.total ≤ (s.folio q f).rr.next) :
    execFolioLate q f s = .next ((s.onFolio q f fun x => { x with lateCause := 4 }).haltAt q f 4) := by
  obtain ⟨hword, hpc⟩ := habsent
  simp [execFolioLate, hst, hword, hpc, hend]

theorem execFastForwardResume_resumes {w : Nat} {x : StepWord} (hst : (s.folio q f).st = .late) (hword : (s.folio q f).word = some w)
    (hdecode : decodeStep w = some x) (htimed : x.timed = true) (hcan : s.canResume (s.folio q f) = true) :
    execFastForwardResume q f s = .next (s.onFolio q f fun x => { x with st := .running }) := by
  simp [execFastForwardResume, hst, hword, hdecode, htimed, hcan]

/-! ### Refills and ring wraps (R109, R112) -/

/-- No Folio of the Quire that wants a refill comes before `f`: each has more resident words ahead, or as many and no lower a number. -/
def State.mostUrgent (s : State) (q f : Nat) : Prop :=
  ∀ e ∈ (s.synq q).folios, e.2.wantsRefill = false ∨ (s.folio q f).residentAhead < e.2.residentAhead ∨
    ((s.folio q f).residentAhead = e.2.residentAhead ∧ f ≤ e.1)

/-- The words that a refill brings at `now` come too late for a running Folio's next timed step. -/
def Folio.refillsLate (fo : Folio) (now : Nat) : Bool :=
  fo.st == .running && fo.inRing && fo.pathOpen 2048 fo.rr.next && decide (issueTime (fo.boundary - ahead) < now)

theorem Folio.refillsLate_iff {fo : Folio} {now : Nat} : fo.refillsLate now = true ↔
    fo.st = .running ∧ fo.inRing = true ∧ fo.pathOpen 2048 fo.rr.next = true ∧ issueTime (fo.boundary - ahead) < now := by
  simp [Folio.refillsLate, and_assoc]

/-- What the engine does for the Folio that it serves: it fetches 64 words, remembers the fetch and judges the low watermark. -/
def State.refill (s : State) (q f now : Nat) : State := ((s.onFolio q f fun x => x.noteFetch now).fetchWords q f 64).checkLwm q f

theorem execRefillFetch_served (hwants : (s.folio q f).wantsRefill = true) (hurgent : s.mostUrgent q f) :
    execRefillFetch q f s = .next ((if (s.folio q f).refillsLate s.now
      then s.onFolio q f fun x => { x with pendLate := some (x.pendLate.getD (s.folio q f).absentCause) } else s).refill q f s.now) := by
  have hfirst : ((s.synq q).folios.all fun (g, x) => !x.wantsRefill || decide ((s.folio q f).residentAhead < x.residentAhead) ||
      ((s.folio q f).residentAhead == x.residentAhead && decide (f.val ≤ g))) = true := by
    simpa [State.mostUrgent, or_assoc] using hurgent
  exact if_neg (by simp only [hwants, hfirst, Bool.and_self, Bool.not_true, Bool.false_eq_true, not_false_eq_true])

theorem execRefillFetch_inTime (hwants : (s.folio q f).wantsRefill = true) (hurgent : s.mostUrgent q f)
    (htime : ¬ (s.folio q f).refillsLate s.now = true) : execRefillFetch q f s = .next (s.refill q f s.now) := by
  rw [execRefillFetch_served hwants hurgent, if_neg htime]

theorem execRefillFetch_late (hwants : (s.folio q f).wantsRefill = true) (hurgent : s.mostUrgent q f)
    (hlate : (s.folio q f).refillsLate s.now = true) : execRefillFetch q f s =
      .next ((s.onFolio q f fun x => { x with pendLate := some (x.pendLate.getD (s.folio q f).absentCause) }).refill q f s.now) := by
  rw [execRefillFetch_served hwants hurgent, if_pos hlate]

theorem execRingWrap_same (hring : (s.folio q f).inRing = true) (hpc : (s.folio q f).pc = 2048) (hpend : (s.folio q f).ringPend = none) :
    execRingWrap q f s = .next (s.onFolio q f fun x => { x with pc := x.ring.base, rr := { x.rr with origin := x.rr.next } }) := by
  simp [execRingWrap, hring, hpc, hpend]

theorem execRingWrap_change {r : RingCfg} (hring : (s.folio q f).inRing = true) (hpc : (s.folio q f).pc = 2048)
    (hpend : (s.folio q f).ringPend = some r) :
    execRingWrap q f s = .next ((s.onFolio q f fun x =>
      if r.base = 2048 then (x.setRing r x.rr.next).toHalt 9 else { x.setRing r x.rr.next with pc := r.base }).resolve
        (wait .seqRing (folioId q f) 0) []) := by
  simp [execRingWrap, hring, hpc, hpend]

/-! ### Personality changes and sequence boundaries (R27, R113) -/

theorem execPersChangeComplete_due (hdue : s.persDue q = true) : execPersChangeComplete q s = .next (s.persChange q) := by
  simp [execPersChangeComplete, hdue]

/-- A personality change that waits comes about at the boundary. -/
theorem execSequenceBoundary_change (hpers : s.pers q = .control) (hboundary : s.seqBoundary q = true)
    (hpend : ((s.seqActions q).qb q).pendPers.isSome = true) : execSequenceBoundary q s = .next ((s.seqActions q).persChange q) := by
  simp [execSequenceBoundary, hpers, hboundary, hpend]

/-- A Quire that stays in CONTROL may slow down at the boundary. -/
theorem execSequenceBoundary_stay (hpers : s.pers q = .control) (hboundary : s.seqBoundary q = true)
    (hpend : ((s.seqActions q).qb q).pendPers = none) :
    execSequenceBoundary q s = .next ((s.seqActions q).govern fun k => k == q.val) := by
  simp [execSequenceBoundary, hpers, hboundary, hpend]

end

/-- Settles O28: each clause is the law of its row above. -/
theorem folioTimingRowsComplete : Obligations.FolioTimingRowsComplete :=
  ⟨fun _ _ => execPersChangeComplete_due, fun _ _ _ _ _ => execWaitUntilEnd_of_wait, fun _ _ _ _ _ _ _ => execWaitEventTimeout_of_wait,
    Folio.goesOn_fields, fun _ _ _ _ _ hwait => ⟨execTrigTimeout_proceeds hwait, execTrigTimeout_halts hwait⟩,
    fun _ _ _ _ => execFolioLate_marked,
    fun _ _ _ hst hmark => ⟨execFolioLate_absent hst hmark, execFolioLate_behind hst hmark⟩,
    fun _ _ _ hst hword hpc => execFolioLate_end hst ⟨hword, hpc⟩, fun _ _ _ _ _ => execFastForwardResume_resumes,
    fun _ _ _ hwants hurgent => ⟨fun htime => execRefillFetch_inTime hwants hurgent (htime ∘ Folio.refillsLate_iff.mp),
      fun hlate => execRefillFetch_late hwants hurgent (Folio.refillsLate_iff.mpr hlate)⟩,
    fun _ _ _ => execRingWrap_same, fun _ _ _ _ => execRingWrap_change,
    fun _ _ hpers hboundary => ⟨execSequenceBoundary_change hpers hboundary, execSequenceBoundary_stay hpers hboundary⟩⟩

end Sys2Proof.Machine
end

section
/-! ## Supplies, resets, the start-up and the temperature limits (R30, R400 to R404, R589) -/
namespace Sys2Proof.Machine

section
variable {s : State}

/-! ### VAUX (R400, R401) -/

theorem execVauxGood_off (hoff : s.dev.st = .off) :
    let s1 : State := { s with now := 0, dev := { s.dev with st := .boot }, clk := { s.clk with good := setBit s.clk.good 0 true } }
    let s2 := s1.onClk fun c => { c with sAt := if c.good = 2047 then some 0 else none }
    execVauxGood s = .next ((if s2.rf.pin then s2.setCauses allDacs mPin s2.rf.latch else s2).toBoot.timeSelect) := by
  simp [execVauxGood, hoff]

theorem execVauxGood_on (hon : s.dev.st ≠ .off) : execVauxGood s = .next s := by simp [execVauxGood, hon]
theorem execVauxLoss_on (hon : s.dev.st ≠ .off) : execVauxLoss s = .next s.unpowered := by simp [execVauxLoss, hon]
theorem execVauxLoss_off (hoff : s.dev.st = .off) : execVauxLoss s = .next s := by simp [execVauxLoss, hoff]

/-! ### The other rails and the regulators (R400, R403, R414) -/

/-- The state in which rail `n` has become good; a fault of the bias supplies ends with the last of them. -/
def State.withRail (s : State) (n : Nat) : State :=
  s.onClk fun c => { c with good := setBit c.good n true, vbias := c.vbias && !(bitOf (setBit c.good n true) 9 && bitOf (setBit c.good n true) 10) }

theorem execRailGood_last {n : Fin 11} (hn : n.val ≠ 0) (hall : setBit s.clk.good n true = 2047) (hfirst : s.clk.sAt = none) :
    execRailGood (.rail n) s = .next (((s.withRail n).onClk fun c => { c with sAt := some s.now }).raisePoints).enableLanes := by
  simp [execRailGood, State.withRail, hn, hall, hfirst]

theorem execRailGood_other {n : Fin 11} (hn : n.val ≠ 0) (hother : setBit s.clk.good n true ≠ 2047 ∨ s.clk.sAt ≠ none) :
    execRailGood (.rail n) s = .next (s.withRail n) := by
  have hlast : ¬(setBit s.clk.good n true = 2047 ∧ s.clk.sAt.isNone = true) := by
    rintro ⟨hall, hnone⟩
    exact hother.elim (· hall) (· (Option.isNone_iff_eq_none.mp hnone))
  simp only [execRailGood, State.withRail, hn, if_false, State.onClk_clk, hlast]

/-- The state in which rail `n` is lost; that of a bias rail switches the bias outputs off. -/
def State.withoutRail (s : State) (n : Nat) : State :=
  let s1 := s.onClk fun c => { c with good := setBit c.good n false, lost := setBit c.lost n true, sAt := none }
  if 9 ≤ n then (s1.onClk fun c => { c with vbias := true }).biasOff else s1

/-- The loss of a rail stops the device: one that runs, one that has been supplied in BOOT, and one in ENDPAPER, where it is one cause more. -/
def State.stopsWithoutRail (s : State) : Bool := s.runs || (s.dev.st == .boot && s.clk.sAt.isSome) || s.dev.st == .endpaper

theorem State.stopsWithoutRail_iff :
    s.stopsWithoutRail = true ↔ s.runs = true ∨ (s.dev.st = .boot ∧ s.clk.sAt ≠ none) ∨ s.dev.st = .endpaper := by
  simp [State.stopsWithoutRail, Option.isSome_iff_ne_none, or_assoc]

/-- What the loss of rail `n` does to the device as a whole. -/
def State.railLost (s : State) (n : Nat) : State := if s.stopsWithoutRail then (s.withoutRail n).toEndpaper 1 n 0 else s.withoutRail n

theorem State.railLost_stops {n : Nat} (h : s.stopsWithoutRail = true) : s.railLost n = (s.withoutRail n).toEndpaper 1 n 0 := if_pos h
theorem State.railLost_goesOn {n : Nat} (h : ¬ s.stopsWithoutRail = true) : s.railLost n = s.withoutRail n := if_neg h

theorem execRailLoss_rail {n : Fin 11} {us : Nat} (hn : n.val ≠ 0) (hus : s.clk.filterAt (s.now - us * uUs) ≤ us) :
    execRailLoss ⟨.rail n, us⟩ s =
      .next (if (n.val = 1 ∨ n.val = 8) ∧ s.dev.st ≠ .off then (s.railLost n).hifReset else s.railLost n) :=
  (if_neg (Nat.not_lt.mpr hus)).trans (if_neg hn)

theorem execRailLoss_rail_hif {n : Fin 11} {us : Nat} (hn : n.val ≠ 0) (hus : s.clk.filterAt (s.now - us * uUs) ≤ us)
    (hhif : (n.val = 1 ∨ n.val = 8) ∧ s.dev.st ≠ .off) : execRailLoss ⟨.rail n, us⟩ s = .next (s.railLost n).hifReset := by
  rw [execRailLoss_rail hn hus, if_pos hhif]

theorem execRailLoss_rail_plain {n : Fin 11} {us : Nat} (hn : n.val ≠ 0) (hus : s.clk.filterAt (s.now - us * uUs) ≤ us)
    (hhif : ¬((n.val = 1 ∨ n.val = 8) ∧ s.dev.st ≠ .off)) : execRailLoss ⟨.rail n, us⟩ s = .next (s.railLost n) := by
  rw [execRailLoss_rail hn hus, if_neg hhif]

theorem execRailLoss_short {r : Rail} {us : Nat} (hus : us < s.clk.filterAt (s.now - us * uUs)) : execRailLoss ⟨r, us⟩ s = .next s := by
  simp [execRailLoss, hus]

theorem execRailLoss_regulator {i : Fin 50} {us : Nat} (hreg : regulated i = true) (hus : s.clk.filterAt (s.now - us * uUs) ≤ us) :
    let s1 := s.onClk fun c => { c with regsBad := i.val :: c.regsBad.filter fun k => k != i.val }
    execRailLoss ⟨.regulator i, us⟩ s = .next (if i.val = 0 ∧ s.dev.st ≠ .off then s1.hifReset else s1) := by
  simp [execRailLoss, Nat.not_lt.mpr hus, hreg]

/-- The seconds that BOOT waits for the supplies: 10, or what the configuration image sets. -/
def State.bootLimit (s : State) : Nat := match s.lastImage with | some x => (Config.bootTimeout x.read).getD 10 | none => 10

/-- The supplies are not all good in time: the lowest rail that is missing is recorded. -/
theorem execBootSupplyTimeout_waiting (hboot : s.dev.st = .boot) (hmissing : s.clk.sAt = none) :
    execBootSupplyTimeout s =
      .next ((s.advanceTo (s.dev.bootAt + s.bootLimit * uS)).toEndpaper 6 (((List.range 11).find? fun n => !bitOf s.clk.good n).getD 0) 0) :=
  if_neg (by simp [hboot, hmissing])

/-! ### The reset pins (R402) -/

theorem execSysRstN_ignored {low : Bool} {ns : Nat} (h : ns < 1000 ∨ low = s.dev.rst) : execSysRstN ⟨low, ns⟩ s = .next s := if_pos h

theorem execSysRstN_change {low : Bool} {ns : Nat} (hns : 1000 ≤ ns) (hchange : low ≠ s.dev.rst) :
    execSysRstN ⟨low, ns⟩ s = .next (if low && s.dev.st != .off then (s.onDev fun d => { d with rst := low }).sysReset
      else s.onDev fun d => { d with rst := low }) :=
  if_neg (not_or.mpr ⟨Nat.not_lt.mpr hns, hchange⟩)

theorem execSysRstN_assert {ns : Nat} (hon : s.dev.st ≠ .off) (hns : 1000 ≤ ns) (hhigh : s.dev.rst = false) :
    execSysRstN ⟨true, ns⟩ s = .next (s.onDev fun d => { d with rst := true }).sysReset := by
  rw [execSysRstN_change hns (by simp [hhigh]), if_pos (by simp [hon])]

theorem execSysRstN_release {ns : Nat} (hns : 1000 ≤ ns) (hlow : s.dev.rst = true) :
    execSysRstN ⟨false, ns⟩ s = .next (s.onDev fun d => { d with rst := false }) := by
  rw [execSysRstN_change hns (by simp [hlow]), if_neg (by simp)]

/-- Without VAUX the pin is followed, and there is nothing to reset. -/
theorem execSysRstN_off {low : Bool} {ns : Nat} (hoff : s.dev.st = .off) (hns : 1000 ≤ ns) (hchange : low ≠ s.dev.rst) :
    execSysRstN ⟨low, ns⟩ s = .next (s.onDev fun d => { d with rst := low }) := by
  rw [execSysRstN_change hns hchange, if_neg (by simp [hoff])]

theorem execPerstN_assert (hon : s.dev.st ≠ .off) : execPerstN true s = .next (s.onDev fun d => { d with perst := true }).hifReset := by
  simp [execPerstN, hon]

theorem execPerstN_off (hoff : s.dev.st = .off) (low : Bool) : execPerstN low s = .next (s.onDev fun d => { d with perst := low }) := by
  simp [execPerstN, hoff]

/-! ### Firmware and the self-test (R30, R403, R404) -/

/-- The firmware of `slot` runs: what its start loads, and what has waited for it. -/
def State.firmwareUp (s : State) (slot : Nat) : State :=
  let addr := match s.lastImage with | some x => (Config.smbusAddr x.read).map fun (a : BitVec 7) => a.toNat | none => none
  (s.noting fun s => s.onDev fun d => { d with fwUp := true, fwRunning := slot, smbus := { d.smbus with addr := addr.getD d.smbus.addr } }).calBoot.reloadSafety.resume

theorem execFirmwareVerified_boot (hboot : s.dev.st = .boot) (hdown : s.dev.fwUp = false) (hrst : s.dev.rst = false) :
    execFirmwareVerified s = .next (if s.newest s.dev.fwActive ≠ none then s.firmwareUp s.dev.fwActive
      else if s.newest (1 - s.dev.fwActive) ≠ none then s.firmwareUp (1 - s.dev.fwActive) else s.toEndpaper 7 0 0) := by
  simp only [execFirmwareVerified, hboot, hdown, hrst]
  cases s.newest s.dev.fwActive <;> cases s.newest (1 - s.dev.fwActive) <;> rfl

/-- The self-test may run: the firmware runs, the supplies and the clock are there and no reset holds. -/
structure State.CanTest (s : State) : Prop where
  boot : s.dev.st = .boot
  up : s.dev.fwUp = true
  rst : s.dev.rst = false
  supplied : s.clk.sAt ≠ none
  selected : s.clk.lostSel = false
  root : s.clk.rootReset = false
  regs : s.clk.regsBad = []

/-- The state in which the physical Quires hold their microcode. -/
def State.loadMicrocode (s : State) : State := (List.range 17).foldl (fun (a : State) p => a.onPhys p fun x => { x with mcode := s.microcode }) s

/-- The self-test is over: the device runs, with its full capacity or without. -/
def State.tested (s : State) : State := (((s.bootLines.setDevSt (if s.fullCapacity then .run else .reduced)).noncoh).refStop).raisePoints

theorem State.tested_full (h : s.fullCapacity = true) : s.tested = (((s.bootLines.setDevSt .run).noncoh).refStop).raisePoints := by
  rw [State.tested, if_pos h]

theorem State.tested_reduced (h : s.fullCapacity = false) : s.tested = (((s.bootLines.setDevSt .reduced).noncoh).refStop).raisePoints := by
  rw [State.tested, if_neg (by simp [h])]

/-- The units that failed the self-test. -/
def failedUnits (failed : List (Nat × Nat)) : List FUnit := (failed.map fun e => ({ kind := e.1, phys := e.2 } : FUnit)).filter FUnit.ok

/-- The self-test has found these units failed: a Quire is retired before the Quires are bound, any other unit after it. -/
def State.selfTested (s : State) (us : List FUnit) : State :=
  let gone := us.filter FUnit.sinks
  let s1 := (gone.foldl (fun (a : State) x => a.retireQuire x.pq) s.loadMicrocode).bindAll
  let s2 := gone.foldl (fun (a : State) x =>
    a.logFault (quireUnit x.pq) (if a.pq x.pq = 31 then 3 else 2) 0 (if x.pq < 16 then quireId x.pq else noObject) 0) s1
  (us.filter fun x => !x.sinks).foldl (fun (a : State) x => a.bootFail x) s2

theorem State.selfTested_nil : s.selfTested [] = s.loadMicrocode.bindAll := by
  simp only [State.selfTested, List.filter_nil, List.foldl_nil]

theorem execBootSelftestComplete_tests (h : s.CanTest) (failed : List (Nat × Nat)) :
    execBootSelftestComplete failed s = .next (s.selfTested (failedUnits failed)).tested := by
  obtain ⟨hboot, hup, hrst, hsupplied, hselected, hroot, hregs⟩ := h
  exact if_neg (by simp [hboot, hup, hrst, hsupplied, hselected, hroot, hregs])

theorem execBootSelftestComplete_passed (h : s.CanTest) : execBootSelftestComplete [] s = .next s.loadMicrocode.bindAll.tested := by
  have hnone : failedUnits [] = [] := by simp only [failedUnits, List.map_nil, List.filter_nil]
  rw [execBootSelftestComplete_tests h, hnone, State.selfTested_nil]

theorem execBootSelftestComplete_full (h : s.CanTest) (hfull : s.loadMicrocode.bindAll.fullCapacity = true) : execBootSelftestComplete [] s =
    .next (((s.loadMicrocode.bindAll.bootLines.setDevSt .run).noncoh).refStop).raisePoints := by
  rw [execBootSelftestComplete_passed h, State.tested_full hfull]

theorem execBootSelftestComplete_reduced (h : s.CanTest) (hless : s.loadMicrocode.bindAll.fullCapacity = false) : execBootSelftestComplete [] s =
    .next (((s.loadMicrocode.bindAll.bootLines.setDevSt .reduced).noncoh).refStop).raisePoints := by
  rw [execBootSelftestComplete_passed h, State.tested_reduced hless]

/-! ### Temperatures and the bias chiplet (R589) -/

/-- The state in which the sensors read `m`. -/
def State.sensed (s : State) (m : List Int) : State :=
  (s.onClk fun c => { c with temps := (List.range 26).map fun i => lget 0 m i }).onCap fun c => { c with temp := lget 0 m 17 }

theorem execTemperatureShutdown_on (hon : s.dev.st ≠ .off) (m : List Int) :
    execTemperatureShutdown m s = .next (match hotSensor m 115000 fun _ => true with
      | some i => if s.runs || s.dev.st == .endpaper then (s.sensed m).toEndpaper 2 (sensorDetail i) 0 else s.sensed m
      | none => s.sensed m) := if_neg (by simp [hon])

theorem execTemperatureShutdown_stops {m : List Int} {i : Nat} (hon : s.dev.st ≠ .off) (hhot : hotSensor m 115000 (fun _ => true) = some i)
    (hstops : s.runs = true ∨ s.dev.st = .endpaper) :
    execTemperatureShutdown m s = .next ((s.sensed m).toEndpaper 2 (sensorDetail i) 0) := by
  rw [execTemperatureShutdown_on hon, hhot]
  exact congrArg _ (if_pos (by simpa using hstops))

theorem execTemperatureShutdown_records {m : List Int} {i : Nat} (hon : s.dev.st ≠ .off) (hhot : hotSensor m 115000 (fun _ => true) = some i)
    (hrecords : ¬ (s.runs = true ∨ s.dev.st = .endpaper)) : execTemperatureShutdown m s = .next (s.sensed m) := by
  rw [execTemperatureShutdown_on hon, hhot]
  exact congrArg _ (if_neg (by simpa using hrecords))

theorem execTemperatureShutdown_cool {m : List Int} (hon : s.dev.st ≠ .off) (hcool : hotSensor m 115000 (fun _ => true) = none) :
    execTemperatureShutdown m s = .next (s.sensed m) := by
  rw [execTemperatureShutdown_on hon, hcool]

theorem execHardwareThermalTrip_on (hon : s.dev.st ≠ .off) (m : List Int) :
    execHardwareThermalTrip m s = .next (match hotSensor m 125000 fun i => i != 22 with
      | some i => (s.sensed m).toEndpaper 3 (sensorDetail i) 0
      | none => s.sensed m) := if_neg (by simp [hon])

theorem execHardwareThermalTrip_hot {m : List Int} {i : Nat} (hon : s.dev.st ≠ .off) (hhot : hotSensor m 125000 (fun i => i != 22) = some i) :
    execHardwareThermalTrip m s = .next ((s.sensed m).toEndpaper 3 (sensorDetail i) 0) := by
  rw [execHardwareThermalTrip_on hon, hhot]

theorem execHardwareThermalTrip_cool {m : List Int} (hon : s.dev.st ≠ .off) (hcool : hotSensor m 125000 (fun i => i != 22) = none) :
    execHardwareThermalTrip m s = .next (s.sensed m) := by
  rw [execHardwareThermalTrip_on hon, hcool]

theorem execBiasChipletFault_stops (hon : s.dev.st ≠ .off) (hruns : s.runs = true) :
    execBiasChipletFault true s = .next ((s.onClk fun c => { c with bscFault := true }).toEndpaper 4 0 0) := by
  simp [execBiasChipletFault, hon, hruns]

theorem execBiasChipletFault_records (hon : s.dev.st ≠ .off) (hruns : s.runs = false) :
    execBiasChipletFault true s = .next (s.onClk fun c => { c with bscFault := true }) := by
  simp [execBiasChipletFault, hon, hruns]

theorem execBiasChipletFault_ends (hon : s.dev.st ≠ .off) :
    execBiasChipletFault false s = .next (s.onClk fun c => { c with bscFault := false }) := by
  simp [execBiasChipletFault, hon]

end

/-- Settles O40: each clause is the law of its row above. -/
theorem powerRowsComplete : Obligations.PowerRowsComplete := by
  refine ⟨fun _ => execVauxGood_off, fun _ hon => ⟨execVauxGood_on hon, execVauxLoss_on hon⟩, fun _ => execVauxLoss_off,
    fun _ _ hn => ⟨execRailGood_last hn, execRailGood_other hn⟩, ?railLoss, fun _ _ _ => execRailLoss_short, ?regulator,
    fun _ => execBootSupplyTimeout_waiting, ?pins, fun _ _ _ => execSysRstN_ignored,
    fun _ _ hoff => ⟨fun _ hns => execSysRstN_off hoff hns, execPerstN_off hoff _⟩, ?firmware, ?selftest,
    fun failed _ hboot hup hrst hsupplied hselected hroot hregs =>
      execBootSelftestComplete_tests ⟨hboot, hup, hrst, hsupplied, hselected, hroot, hregs⟩ failed,
    ?temperatures, fun _ _ _ => rfl,
    fun _ hon => ⟨execBiasChipletFault_stops hon, execBiasChipletFault_records hon, execBiasChipletFault_ends hon⟩⟩
  case railLoss =>
    intro n us s hn hus
    have hstops := s.stopsWithoutRail_iff
    refine ⟨fun h hhif => (execRailLoss_rail_plain hn hus hhif).trans ?_, fun h hhif => (execRailLoss_rail_hif hn hus hhif).trans ?_,
      fun h hhif => (execRailLoss_rail_plain hn hus hhif).trans ?_, fun h hhif => (execRailLoss_rail_hif hn hus hhif).trans ?_⟩
    · rw [State.railLost_stops (hstops.mpr h)]; rfl
    · rw [State.railLost_stops (hstops.mpr h)]; rfl
    · rw [State.railLost_goesOn (mt hstops.mp h)]; rfl
    · rw [State.railLost_goesOn (mt hstops.mp h)]; rfl
  case regulator =>
    intro i us s hreg hus
    have hrow := execRailLoss_regulator hreg hus
    refine ⟨rfl, fun hi hon => hrow.trans (congrArg _ (if_pos ⟨hi, hon⟩)), fun hno => hrow.trans (congrArg _ (if_neg ?_))⟩
    rintro ⟨hi, hon⟩
    exact hno.elim (· hi) hon
  case pins =>
    exact fun s hon => ⟨fun _ => execSysRstN_assert hon, fun _ => execSysRstN_release, execPerstN_assert hon, rfl⟩
  case firmware =>
    intro s hboot hdown hrst
    have hrow := execFirmwareVerified_boot hboot hdown hrst
    exact ⟨fun ha ho => hrow.trans (congrArg _ ((if_neg (not_not_intro ha)).trans (if_neg (not_not_intro ho)))),
      fun ha ho => hrow.trans (congrArg _ ((if_neg (not_not_intro ha)).trans (if_pos ho))),
      fun ha => hrow.trans (congrArg _ (if_pos ha))⟩
  case selftest =>
    intro s hboot hup hrst hsupplied hselected hroot hregs
    have hcan : s.CanTest := ⟨hboot, hup, hrst, hsupplied, hselected, hroot, hregs⟩
    exact ⟨execBootSelftestComplete_full hcan, execBootSelftestComplete_reduced hcan⟩
  case temperatures =>
    exact fun m i s hon => ⟨execTemperatureShutdown_stops hon, execTemperatureShutdown_records hon, execTemperatureShutdown_cool hon,
      execHardwareThermalTrip_hot hon, execHardwareThermalTrip_cool hon⟩

end Sys2Proof.Machine
end

section
/-! ## Steps 4 to 8 of R40 and the replies (R40 to R50)

What becomes of a packet that its stream does not take, that joins a chain or that waits for its time, and what a reply carries. -/
namespace Sys2Proof.Machine

/-! ### A packet that command processing takes up -/

/-- A packet that reaches the device while commands are processed is handled from step 4 on, with a place kept for its reply. -/
theorem receive_accept {code : Nat} {r : Req} {s : State} (hr : s.reaches r.src = true) (hp : s.pausedFor (packetOf code r) = false)
    (hs : s.NotStopping) : receive code r s = .next ((s.reserve r.src false).accept (packetOf code r)) := by
  obtain ⟨rings, he⟩ := reserve_eq s r.src
  have hstop : (s.reserve r.src false).NotStopping := by rw [he]; exact hs
  have hpause : (s.reserve r.src false).pausedFor (packetOf code r) = false := by rw [he]; exact hp
  have htake : (s.reserve r.src false).takeUp (packetOf code r) = (s.reserve r.src false).accept (packetOf code r) := by
    simp only [State.takeUp, stopDue_none hstop, hpause, Bool.not_false, if_true]
  rw [receive, State.receive, if_pos hr]
  exact congrArg _ htake

/-- The parts of the state that lie beside the ports, the links and the record of what has been sent. -/
theorem Beside.parts {s t : State} (h : Beside s t) :
    t.now = s.now ∧ t.svc = s.svc ∧ t.trust = s.trust ∧ t.ev = s.ev ∧ t.syn = s.syn ∧ t.ro = s.ro ∧ t.fb = s.fb ∧ t.clk = s.clk ∧
      t.plans = s.plans ∧ t.rf = s.rf ∧ t.cap = s.cap ∧ t.bsc = s.bsc ∧ t.delayed = s.delayed :=
  ⟨h.now, h.svc, h.trust, h.ev, h.syn, h.ro, h.fb, h.clk, h.plans, h.rf, h.cap, h.bsc, h.delayed⟩

/-! ### Step 4: the sequence (R41, R42) -/

/-- A packet out of sequence that is no duplicate and no SESSION_OPEN is not taken. -/
theorem accept_outOfSequence {s : State} {p : Pkt} (hq : p.quiet = false) (hc : p.code ≠ 0x0003) (hseq : p.req.seq ≠ (s.stream p.req.src).expect)
    (hdup : ¬(p.req.seq + 1 = (s.stream p.req.src).expect ∧ (s.stream p.req.src).last = some p.crc)) :
    s.accept p = s.bounce p Status.eSequence (leBytes 4 (s.stream p.req.src).expect.toNat) := by
  simp only [State.accept, State.sequence, hq, hseq, hdup, hc, Bool.false_eq_true, if_false]

theorem accept_duplicate {s : State} {p : Pkt} (hq : p.quiet = false) (hseq : p.req.seq ≠ (s.stream p.req.src).expect)
    (hdup : p.req.seq + 1 = (s.stream p.req.src).expect ∧ (s.stream p.req.src).last = some p.crc) : s.accept p = s.duplicate p := by
  simp only [State.accept, State.sequence, hq, hseq, hdup, Bool.false_eq_true, if_false, and_self, if_true]

theorem duplicate_inFlight {s : State} {p : Pkt} (h : s.inFlight p = true) : s.duplicate p = s.unreserve p.req.src false := by
  simp [State.duplicate, h]

theorem duplicate_stored {s : State} {p : Pkt} {b : List Byte} (h : s.inFlight p = false) (hb : (s.stream p.req.src).stored = some b) :
    s.duplicate p = s.deliver p.req.src false b := by
  simp [State.duplicate, h, hb]

theorem duplicate_beside (s : State) (p : Pkt) : Beside s (s.duplicate p) := by
  unfold State.duplicate
  split
  · exact deliver_beside _ _ _ _
  · exact unreserve_beside _ _ _

/-- The place that was kept for a reply is given up without a word. -/
@[simp] theorem unreserve_sent (s : State) (src : Src) (d : Bool) : (s.unreserve src d).sent = s.sent := by
  unfold State.unreserve
  split
  · rfl
  · split <;> rfl
  · rfl

@[simp] theorem reserve_sent (s : State) (src : Src) : (s.reserve src false).sent = s.sent := by
  obtain ⟨rings, he⟩ := reserve_eq s src
  rw [he]
  rfl

theorem reserve_inFlight (s : State) (src : Src) (p : Pkt) : (s.reserve src false).inFlight p = s.inFlight p := by
  obtain ⟨rings, he⟩ := reserve_eq s src
  rw [he]
  rfl

/-- Settles O5: step 4 bounces the packet, and a bounce changes what a reply changes. -/
theorem outOfSequencePacketsAreRefused : Obligations.OutOfSequencePacketsAreRefused := by
  intro i code r s hi hcode hr hp hs hseq hdup
  have hstream : (s.reserve r.src false).stream (packetOf code r).req.src = s.stream r.src := taken_reserve_stream s r.src r.src false
  have haccept := accept_outOfSequence (s := s.reserve r.src false) (p := packetOf code r) rfl hcode (hstream ▸ hseq) (hstream ▸ hdup)
  have hexec : exec i s = .next ((s.reserve r.src false).bounce (packetOf code r) 0x0111 (leBytes 4 (s.stream r.src).expect.toNat)) := by
    rw [exec_packet hi, receive_accept hr hp hs, haccept, hstream]
    rfl
  exact ⟨_, hexec, rfl, ((reserve_beside s r.src false).trans (bounce_beside _ _ _ _)).parts⟩

/-- Settles O6: step 4 finds a duplicate, which is answered from the store or not at all. -/
theorem duplicatesAreNotRunAgain : Obligations.DuplicatesAreNotRunAgain := by
  intro i code r s hi hr hp hs hseq hnext hcrc
  have hstream : (s.reserve r.src false).stream r.src = s.stream r.src := taken_reserve_stream s r.src r.src false
  have haccept := accept_duplicate (s := s.reserve r.src false) (p := packetOf code r) rfl (hstream ▸ hseq) (hstream ▸ ⟨hnext, hcrc⟩)
  have hflight := reserve_inFlight s r.src (packetOf code r)
  have hexec : exec i s = .next ((s.reserve r.src false).duplicate (packetOf code r)) := by
    rw [exec_packet hi, receive_accept hr hp hs, haccept]
  refine ⟨_, hexec, ?stored, ?running, ((reserve_beside s r.src false).trans (duplicate_beside _ _)).parts⟩
  case stored => exact fun b hdone hb => duplicate_stored (hflight.trans hdone) (hstream ▸ hb)
  case running =>
    intro hruns
    rw [duplicate_inFlight (hflight.trans hruns), unreserve_sent, reserve_sent]

/-! ### Chains (R47) -/

/-- One of the first 15 packets of a chain waits with those before it. -/
theorem joinChain_waits {s : State} {p : Pkt} (hc : p.chained = true) (hn : (s.stream p.req.src).chain.length < 15) :
    s.joinChain p = s.onStream p.req.src fun t =>
      { t with chain := (s.stream p.req.src).chain ++ [p], chainAt := if (s.stream p.req.src).chain.isEmpty then s.now else t.chainAt } := by
  simp [State.joinChain, hc, hn]

/-- What the stream of a packet becomes that takes its sequence number. -/
def Stream.took (t : Stream) (p : Pkt) : Stream := { t with expect := p.req.seq + 1, last := some p.crc, stored := none, taken := inc32 t.taken }

theorem takeSeq_plain (s : State) {p : Pkt} (hc : p.code ≠ 0x0003) : s.takeSeq p = s.onStream p.req.src (Stream.took · p) := by
  rw [State.takeSeq, if_neg hc]
  rfl

theorem takeSeq_stream {s : State} {p : Pkt} (hw : twf .reset s.dev.streams = true) (hc : p.code ≠ 0x0003) :
    (s.takeSeq p).stream p.req.src = (s.stream p.req.src).took p := by
  rw [takeSeq_plain s hc, stream_onStream_self _ _ hw]

theorem reserve_streams_wf {s : State} (src : Src) (hw : twf .reset s.dev.streams = true) :
    twf .reset (s.reserve src false).dev.streams = true := by
  obtain ⟨rings, he⟩ := reserve_eq s src
  rw [he]
  exact hw

/-- What the stream of a packet becomes that takes its sequence number and joins the chain at `now`. -/
def Stream.joined (t : Stream) (p : Pkt) (now : Nat) : Stream :=
  { t.took p with chain := t.chain ++ [p], chainAt := if t.chain.isEmpty then now else t.chainAt }

/-- Taking a packet into its chain changes its stream and nothing else. -/
theorem takeSeq_joinChain_waits {s : State} {p : Pkt} (hw : twf .reset s.dev.streams = true) (hcode : p.code ≠ 0x0003) (hc : p.chained = true)
    (hn : (s.stream p.req.src).chain.length < 15) :
    ((s.takeSeq p).joinChain p).stream p.req.src = (s.stream p.req.src).joined p s.now ∧
      ∃ streams, (s.takeSeq p).joinChain p = s.onDev fun d => { d with streams := streams } := by
  have htook := takeSeq_stream hw hcode
  have hwaits : ((s.takeSeq p).stream p.req.src).chain.length < 15 := by rw [htook]; exact hn
  rw [joinChain_waits hc hwaits, htook, takeSeq_plain s hcode]
  have hw1 := onStream_streams_wf p.req.src (Stream.took · p) hw
  refine ⟨?_, _, rfl⟩
  rw [stream_onStream_self _ _ hw1, stream_onStream_self _ _ hw]
  rfl

/-- Settles O7: the packet takes its sequence number and is put at the end of its stream's chain, which changes the streams alone. -/
theorem chainedPacketsWaitForTheLast : Obligations.ChainedPacketsWaitForTheLast := by
  intro i code r s hi hcode hw hr hp hs hseq hc hn
  have hstream : (s.reserve r.src false).stream (packetOf code r).req.src = s.stream r.src := taken_reserve_stream s r.src r.src false
  have hexec : exec i s = .next (((s.reserve r.src false).takeSeq (packetOf code r)).joinChain (packetOf code r)).raisePoints := by
    rw [exec_packet hi, receive_accept hr hp hs, accept_expected rfl (hseq.trans (congrArg Stream.expect hstream.symm))]
  obtain ⟨hjoined, streams, hjoin⟩ := takeSeq_joinChain_waits (reserve_streams_wf r.src hw) hcode hc (hstream ▸ hn)
  rw [hstream] at hjoined
  refine ⟨_, hexec, ?_, congrArg Stream.expect hjoined, congrArg Stream.chain hjoined, ?_⟩ <;> obtain ⟨rings, he⟩ := reserve_eq s r.src <;> rw [hjoin, he]
  · rfl
  · exact ⟨rfl, rfl, rfl, rfl, rfl, rfl, rfl, rfl, rfl, rfl, rfl, rfl, rfl⟩

/-! ### TIMED packets (R44) -/

theorem firstErr_eq_none {l : List (Option Err)} : firstErr l = none ↔ ∀ x ∈ l, x = none := by
  induction l with
  | nil => simp [firstErr]
  | cons x l ih => cases x <;> simp [firstErr, ih]

/-- Steps 10 to 12 pass on a packet that has to wait for its time: the state is as it was, and the time lies in the future, at most 1,000 s on. -/
theorem checkMid_none_timed {s t : State} {p : Pkt} {pl : Place} {sp : OpSpec} {wild : Bool} {cs : List Cmd} (ht : p.timed = true)
    (hw : pl.waited = false) (h : s.checkMid p pl sp wild cs = (t, none)) : t = s ∧ p.timeErr s = none := by
  unfold State.checkMid at h
  split at h
  · exact nomatch (Prod.mk.inj h).2
  · obtain ⟨hstate, herr⟩ := Prod.mk.inj h
    have htime := firstErr_eq_none.mp herr ((p.timeErr s).map (nameFirst wild cs)) (by simp [ht, hw])
    exact ⟨hstate.symm, Option.map_eq_none_iff.mp htime⟩

theorem checkTo12_ok_timed {s t : State} {p : Pkt} {pl : Place} {x : OpSpec × Bool × List Cmd} (ht : p.timed = true) (hw : pl.waited = false)
    (h : s.checkTo12 p pl = (t, .ok x)) : p.timeErr t = none := by
  unfold State.checkTo12 at h
  split at h
  · exact nomatch (Prod.mk.inj h).2
  · split at h
    · exact nomatch (Prod.mk.inj h).2
    · next hmid =>
      obtain ⟨hstate, htime⟩ := checkMid_none_timed ht hw hmid
      obtain ⟨rfl, -⟩ := Prod.mk.inj h
      rwa [hstate]

theorem check_ok_timed {s t : State} {p : Pkt} {pl : Place} {k : Checked} (ht : p.timed = true) (hw : pl.waited = false)
    (h : s.check p pl = (t, .ok k)) : p.timeErr t = none := by
  unfold State.check at h
  split at h
  · exact nomatch (Prod.mk.inj h).2
  · next h12 =>
    split at h
    · exact nomatch (Prod.mk.inj h).2
    · obtain ⟨rfl, -⟩ := Prod.mk.inj h
      exact checkTo12_ok_timed ht hw h12

/-- Step 12 passes: the packet has a time, which has not come and lies at most 1,000 s ahead (R44). -/
theorem timeErr_eq_none {p : Pkt} {s : State} (h : p.timeErr s = none) : ∃ w, p.time = some w ∧ s.now < w ∧ w ≤ s.now + 1000 * uS := by
  unfold Pkt.timeErr at h
  split at h
  · exact nomatch h
  · next w hw =>
    split at h
    · exact nomatch h
    · next hfar =>
      have hlate : ¬ w ≤ s.now := by
        intro hle
        simp [failIf, hle] at h
      exact ⟨w, hw, by omega, by omega⟩

/-- One TIMED packet alone whose check passes joins the TIMED entries. -/
theorem process_one_timed {s t : State} {p : Pkt} {k : Checked} (ht : p.timed = true) (h : s.check p (placeOf 1 0 p false) = (t, .ok k)) :
    s.process [p] = t.onDev fun d => { d with timed := insTimed { pkts := [p], time := p.queueTime s, fast := p.fast } d.timed } := by
  have hc : s.checkChain false [p] = (t, .ok [(p, k)]) := by
    simp only [State.checkChain, List.length_singleton, State.checkAll, h, Nat.not_succ_le_self, if_false]
  simp only [State.process, hc, ht, if_true]

/-- Settles O9: a packet whose checks pass has its time ahead of it, and is put among the TIMED entries. -/
theorem timedPacketsWaitForTheirTime : Obligations.TimedPacketsWaitForTheirTime := by
  intro i code r s t k hi hcode hw hr hp hs hseq hc hn ht hcheck
  obtain ⟨w, htime, hahead, hnear⟩ := timeErr_eq_none (check_ok_timed ht rfl hcheck)
  have hnow : (s.taken (packetOf code r)).now = t.now := by
    obtain ⟨nonces, qbind, hspent⟩ := check_spendsOnly (s.taken (packetOf code r)) (packetOf code r) (placeOf 1 0 (packetOf code r) false)
    rw [hcheck] at hspent
    exact (congrArg State.now hspent).symm
  have hqueue : (packetOf code r).queueTime (s.taken (packetOf code r)) = if code = 0x0702 then max w (t.now + 16 * uNs) else w := by
    rw [Pkt.queueTime, htime, hnow]
    rfl
  refine ⟨w, htime, hahead, hnear, ?_⟩
  rw [exec_packet hi, receive_alone hw hr hp hs hseq hc hn, process_one_timed ht hcheck, hqueue]

/-! ### Steps 5 and 8 (R40, R50, R71) -/

/-- Settles O12: the table of opcodes has 18 categories, and an opcode that it does not hold is the first thing that a check finds. -/
theorem unassignedOpcodesAreRefused : Obligations.UnassignedOpcodesAreRefused := by
  refine ⟨fun code hlow _ => ?unknown, fun s p pl hp => ?refused⟩
  case unknown =>
    have hrow : code / 256 = (code / 256 - 18) + 18 := by omega
    have hbase : specBase code = none := by
      unfold specBase
      rw [hrow]
      rfl
    rw [specOf, if_neg (by omega), if_neg (by omega), if_neg (by omega), if_neg (by omega), if_neg (by omega), if_neg (by omega), hbase]
  case refused => simp [State.check, State.checkTo12, State.checkFirst, hp, err, Status.eOpcode]

/-- Step 8 begins with the port's privilege (R50). -/
theorem portErr_privilege {sp : OpSpec} {c : Cmd} {s : State} (h : (s.privOf c.port).code < (sp.priv c).code) :
    sp.portErr c s = some (err Status.ePrivilege 0xFF) := by
  simp [OpSpec.portErr, h, failIf, firstErr]

/-- Settles O44: the first check of step 8 is the privilege, and nothing after it is reached. -/
theorem privilegeIsRequired : Obligations.PrivilegeIsRequired := by
  intro s p sp o c pl hspec hwaited hflags hquiet hextra hfits hid htakes hwild hcmds hobj hpriv
  have hform : (!p.flagsOk sp pl || (p.quiet && !sp.bcast)) = false := by simpa [hflags] using hquiet
  have hfirst : s.checkFirst p pl = (s, .error (err Status.ePrivilege 0xFF)) := by
    simp [State.checkFirst, hspec, hform, Nat.not_lt.mpr hextra, hfits, hid, htakes, hwild, hcmds, hwaited, hobj, portErr_privilege hpriv, failIf, firstErr]
  simp [State.check, State.checkTo12, hfirst, err]

/-! ### Replies (R38, R43, R49) -/

@[simp] theorem leBytes_length (n v : Nat) : (leBytes n v).length = n := by
  induction n generalizing v with
  | zero => rfl
  | succ n ih => simp [leBytes, ih]

/-- What has left the block stays in its record: `t` has sent what `s` has, and perhaps more. -/
structure SendsOn (s t : State) : Prop where
  kept : ∀ o ∈ s.sent, o ∈ t.sent

theorem SendsOn.refl (s : State) : SendsOn s s := ⟨fun _ h => h⟩
theorem SendsOn.trans {s t v : State} (h : SendsOn s t) (k : SendsOn t v) : SendsOn s v := ⟨fun o ho => k.kept o (h.kept o ho)⟩

theorem onDev_sendsOn (s : State) (f : Dev → Dev) : SendsOn s (s.onDev f) := ⟨fun _ h => h⟩
theorem onLink_sendsOn (s : State) (f : Link → Link) : SendsOn s (s.onLink f) := ⟨fun _ h => h⟩
theorem onRing_sendsOn (s : State) (n : Nat) (f : Ring → Ring) : SendsOn s (s.onRing n f) := onDev_sendsOn s _
theorem emit_sendsOn (s : State) (o : Out) : SendsOn s (s.emit o) := ⟨fun _ h => List.mem_cons_of_mem o h⟩

theorem raise_sendsOn (s : State) (v : Nat) : SendsOn s (s.raise v) := by
  unfold State.raise
  split
  · split
    · exact .refl s
    · exact onDev_sendsOn s _
  · exact emit_sendsOn s _

theorem complete_sendsOn (s : State) (n : Nat) (b : List Byte) : SendsOn s (s.complete n b) := by
  unfold State.complete
  dsimp only
  split
  · exact ((emit_sendsOn s _).trans (onRing_sendsOn _ _ _)).trans (raise_sendsOn _ _)
  · exact (emit_sendsOn s _).trans (onRing_sendsOn _ _ _)

theorem completeOr_sendsOn (s : State) (n : Nat) (b : List Byte) : SendsOn s (s.completeOr n b) := by
  unfold State.completeOr
  dsimp only
  split
  · exact onRing_sendsOn s _ _
  · exact complete_sendsOn s n b

theorem mailboxShow_sendsOn (s : State) : SendsOn s s.mailboxShow := by
  unfold State.mailboxShow
  split
  · exact (onDev_sendsOn s _).trans (raise_sendsOn _ _)
  · exact .refl s

theorem noting_sendsOn {s : State} {f : State → State} (h : SendsOn s (f s)) : SendsOn s (s.noting f) := by
  unfold State.noting
  dsimp only
  split
  · exact h
  · exact h.trans (raise_sendsOn _ _)

theorem sendFrame_sendsOn (s : State) (p cls dest src hops : Nat) (b : List Byte) : SendsOn s (s.sendFrame p cls dest src hops b).1 := by
  unfold State.sendFrame
  split
  · exact .refl s
  · exact (((onLink_sendsOn s _).trans (onLink_sendsOn _ _)).trans (onLink_sendsOn _ _)).trans (emit_sendsOn _ _)

/-- A reply that is delivered enters the record of what has left the block, by whichever transport. -/
theorem deliver_sends (s : State) (src : Src) (d : Bool) (b : List Byte) : Out.reply src b ∈ (s.deliver src d b).sent := by
  have hemit : Out.reply src b ∈ (s.emit (.reply src b)).sent := List.mem_cons_self
  suffices hafter : SendsOn (s.emit (.reply src b)) (s.deliver src d b) from hafter.kept _ hemit
  unfold State.deliver
  cases src with
  | ring n =>
    dsimp only
    split
    · exact completeOr_sendsOn _ _ _
    · exact .refl _
  | mailbox => exact (onDev_sendsOn _ _).trans (mailboxShow_sendsOn _)
  | array p => exact sendFrame_sendsOn _ _ _ _ _ _ _
  | mgmt => exact noting_sendsOn (onDev_sendsOn _ _)

/-- OK and ACCEPTED are sent only where ACK_REQ asks for them. -/
theorem reply_silent {s : State} {p : Pkt} {st : Nat} (d : Bool) (b : List Byte) (hq : p.quiet = false) (hack : p.req.flags.getLsbD 0 = false)
    (hst : st ≤ 1) : s.reply p st d b = s.unreserve p.req.src d := by
  simp only [State.reply, hq, hack, hst, Bool.false_eq_true, if_false, decide_true, Bool.not_false, Bool.and_self, if_true]

theorem reply_sends {s : State} {p : Pkt} {st : Nat} (d : Bool) (b : List Byte) (hq : p.quiet = false)
    (hsend : 2 ≤ st ∨ p.req.flags.getLsbD 0 = true) : Out.reply p.req.src (replyBytes p st d (pad4 b)) ∈ (s.reply p st d b).sent := by
  have hspeaks : ¬ (decide (st ≤ 1) && !p.req.flags.getLsbD 0) = true := by
    rcases hsend with hfail | hack
    · simp [show ¬ st ≤ 1 by omega]
    · simp [hack]
  rw [State.reply, hq, if_neg Bool.false_ne_true, if_neg hspeaks]
  exact deliver_sends _ _ _ _

/-- Settles O11: a silent reply gives up its place, every other one is delivered. -/
theorem repliesFollowAckReq : Obligations.RepliesFollowAckReq := by
  intro s p st d b hq
  refine ⟨fun hack hst => ?_, reply_sends d b hq⟩
  rw [reply_silent d b hq hack hst, unreserve_sent]

/-- The result of a failure is its status word and what the status adds. -/
theorem Err.result_take (e : Err) : e.result.take 4 = leBytes 4 e.word := List.take_left' (leBytes_length 4 e.word)
theorem Err.result_drop (e : Err) : e.result.drop 4 = e.more := List.drop_left' (leBytes_length 4 e.word)

/-- A reply carries its result from byte 16 on. -/
theorem replyBytes_result (p : Pkt) (st : Nat) (d : Bool) (b : List Byte) : ((replyBytes p st d (pad4 b)).drop 16).take b.length = b := by
  simp [replyBytes, pad4, leBytes]

/-- Settles O10. -/
theorem failureRepliesCarryTheirStatusWord : Obligations.FailureRepliesCarryTheirStatusWord := by
  refine ⟨fun e => ⟨?_, e.result_take⟩, fun e o => ⟨?_, rfl⟩, fun _ _ => rfl, fun st => ?_, fun p e d => replyBytes_result p e.status d e.result⟩
  · rw [Err.result, List.length_append, leBytes_length]
    omega
  · rw [Err.result_drop]
    exact List.take_left' (leBytes_length 4 o.id)
  · simp [Err.result, err, leBytes]

end Sys2Proof.Machine
end

section
/-! ## The host interface (R56 to R66)

Rings, mailbox, window, DMA and register writes: one law per row and case, then what their writes to regions leave alone. -/
namespace Sys2Proof.Machine

section
variable {s : State}

/-! ### Rings (R58, R59, R61) -/

theorem execSqTail_rings {n : Fin 8} {v : BitVec 32} (hr : s.reaches (.ring n) = true) (hen : (s.ring n).en = true)
    (hv : v.toNat < (s.ring n).depth) (es : List (Option (List Byte))) :
    execSqTail n v es s = .next ((s.onRing n fun r => { r with hostTail := v.toNat }).fetchMore n es) := by
  simp [execSqTail, hr, hen, Nat.not_le.mpr hv]

theorem execCqHead_rings {n : Fin 8} {v : BitVec 32} (hr : s.reaches (.ring n) = true) (hen : (s.ring n).en = true)
    (hv : v.toNat < (s.ring n).depth) (es : List (Option (List Byte))) :
    let s1 := s.onRing n fun r => { r with hostHead := v.toNat }
    execCqHead n v es s = .next ((s1.completeLate n (s1.ring n).late).fetchMore n es) := by
  simp [execCqHead, hr, hen, Nat.not_le.mpr hv]

/-- A change of a ring is the change of the ring in place. -/
theorem onRing_congr {n : Nat} {f g : Ring → Ring} (h : f (s.ring n) = g (s.ring n)) : s.onRing n f = s.onRing n g :=
  congrArg (fun r => s.onDev fun d => { d with rings := lput d.rings n r }) h

/-- A rising EN with a depth of 16 to 4,096 entries starts the ring pair empty. -/
theorem execRingCfg_starts {n : Fin 8} {v : BitVec 32} (hr : s.reaches (.ring n) = true) (hen : (s.ring n).en = false)
    (hrise : v.getLsbD 0 = true) (hlow : 4 ≤ bits v.toNat 4 4) (hhigh : bits v.toNat 4 4 ≤ 12) :
    execRingCfg n v s = .next (s.onRing n fun r => (r.cfgd v.toNat).started) := by
  have hbit : bitOf v.toNat 0 = true := by
    simpa [bitOf, BitVec.getLsbD, Nat.testBit_zero] using hrise
  rw [execRingCfg, if_pos hr]
  exact congrArg _ (onRing_congr (by simp [Ring.config, hen, hbit, hlow, hhigh]))

/-! ### The mailbox (R63) -/

theorem execPost_free (hr : s.reaches .mailbox = true) (hbusy : s.dev.mbox.busy = false) (hready : s.dev.mbox.ready = false) :
    execPost s = .next (s.intakeBuffer .mailbox (tgets 0 s.dev.mbox.request 0 4096)).syncMail := by
  simp [execPost, hr, hbusy, hready]

theorem execReadyClear_ready (hr : s.reaches .mailbox = true) (hready : s.dev.mbox.ready = true) :
    execReadyClear s = .next (s.onDev fun d =>
      { d with mbox := { d.mbox with ready := false, showsDeferred := false, places := d.mbox.places - ofBool d.mbox.showsDeferred } }).mailboxShow := by
  simp [execReadyClear, hr, hready]

/-! ### The window (R64) -/

theorem execWinCtl_base (hr : s.reaches .mailbox = true) (v : BitVec 64) :
    execWinCtl (.base v) s = .next (s.onDev fun d => { d with winBase := v.toNat / 65536 * 65536 }) := by
  simp [execWinCtl, hr]

theorem execWinCtl_ctl {v : BitVec 32} {r : Region} (hr : s.reaches .mailbox = true) (hregion : s.region (bits v.toNat 0 11) = some r) :
    execWinCtl (.ctl v) s = .next (s.onDev fun d =>
      { d with winRegion := bits v.toNat 0 11, winEn := bitOf v.toNat 31 && (r.owner == 0 || r.shared), winErr := d.winErr && !bitOf v.toNat 30 }) := by
  simp [execWinCtl, hr, hregion]

/-- The window is enabled, outside ENDPAPER, on the region `r`, and `n` bytes at `off` lie inside the window and the region. -/
structure State.Mapped (s : State) (r : Region) (off n : Nat) : Prop where
  reaches : s.reaches .mailbox = true
  enabled : s.dev.winEn = true
  running : s.dev.st ≠ .endpaper
  region : s.region s.dev.winRegion = some r
  bar : off + n ≤ 2 ^ 30
  size : s.dev.winBase + off + n ≤ r.size

theorem execBar2Access_write {r : Region} {off : Nat} {b : List Byte} (h : s.Mapped r off b.length) :
    execBar2Access off (.write b) s = .next (s.memWrite s.dev.winRegion (s.dev.winBase + off) b) := by
  obtain ⟨hr, hen, hst, hregion, hbar, hsize⟩ := h
  simp [execBar2Access, hr, hen, hst, hregion, Nat.not_lt.mpr hsize]
  omega

theorem execBar2Access_read {r : Region} {off n : Nat} (h : s.Mapped r off n) :
    execBar2Access off (.read n) s = .next (s.emit (.bar2 (s.memRead s.dev.winRegion (s.dev.winBase + off) n))) := by
  obtain ⟨hr, hen, hst, hregion, hbar, hsize⟩ := h
  have hwhole : min n (r.size - (s.dev.winBase + off)) = n := by omega
  simp [execBar2Access, hr, hen, hst, hregion, Nat.not_lt.mpr hsize, hwhole, zeros]
  omega

theorem execBar2Access_hole {off n : Nat} (h : 2 ^ 30 < off + n) : execBar2Access off (.read n) s = .fault .bar2Hole := if_pos h

/-! ### DMA (R65, R66) -/

theorem execDmaGo_reaches (hr : s.reaches .mailbox = true) (n : Fin 16) (v : BitVec 32) :
    execDmaGo n v s = .next (s.dmaCtl n (v.toNat ||| 1) []) := if_pos hr

theorem execDmaStop_reaches (hr : s.reaches .mailbox = true) (n : Fin 16) (v : BitVec 32) (data : List Byte) :
    execDmaStop n v data s = .next (s.dmaCtl n (v.toNat ||| 32) data) := if_pos hr

/-- The data of a pass of channel `n` move: to host memory, or to the region. -/
def State.dmaMoved (s : State) (n : Nat) (data : List Byte) : State :=
  if (s.dmaCh n).dir then s.emit (.hostWrite (s.dmaCh n).hostAddr (s.memRead (s.dmaCh n).region (s.dmaCh n).regOffset (s.dmaCh n).length))
  else s.memWrite (s.dmaCh n).region (s.dmaCh n).regOffset (fit (s.dmaCh n).length data)

/-- A pass of an ordinary channel at work moves its data and counts; without CIRC it is the last. -/
theorem execDmaPassComplete_passes {n : Fin 16} (hbusy : (s.dmaCh n).busy = true) (hstream : (s.dmaCh n).stream = none) (data : List Byte) :
    execDmaPassComplete n data true s = .next (if (s.dmaCh n).circ then (s.dmaMoved n data).dmaPass n
      else ((s.dmaMoved n data).dmaPass n).onDma n fun d => { d with busy := false }) := by
  simp [execDmaPassComplete, hbusy, hstream, State.dmaMoved]

/-! ### Other registers (R56) -/

theorem execRegWrite_inside {off : Nat} {data : List Byte} (hr : s.reaches .mailbox = true) (h : off + data.length ≤ 65536) :
    execRegWrite off data s = .next (s.regWrite off data) := by
  simp [execRegWrite, hr, Nat.not_lt.mpr h]

theorem execRegWrite_hole {off : Nat} {data : List Byte} (h : 65536 < off + data.length) : execRegWrite off data s = .fault .bar0Hole := if_pos h

end

/-- Settles O24: each clause is the law of its row above. -/
theorem hostInterfaceRowsComplete : Obligations.HostInterfaceRowsComplete := by
  refine ⟨fun _ _ es _ hr hen hv => ⟨execSqTail_rings hr hen hv es, execCqHead_rings hr hen hv es⟩,
    fun _ _ _ => execRingCfg_starts, fun _ => execPost_free, fun _ => execReadyClear_ready,
    fun v _ hr => execWinCtl_base hr v, fun _ _ _ => execWinCtl_ctl,
    fun off b r s hr hen hst hregion hbar hsize => ?window, fun n v _ hr => ⟨execDmaGo_reaches hr n v, execDmaStop_reaches hr n v⟩,
    fun n data s hbusy hstream hcirc => ?pass, fun _ _ _ => execRegWrite_inside, fun _ _ _ => execRegWrite_hole, fun _ _ _ => execBar2Access_hole⟩
  case window =>
    have hmapped : s.Mapped r off b.length := ⟨hr, hen, hst, hregion, hbar, hsize⟩
    exact ⟨execBar2Access_write hmapped, execBar2Access_read hmapped⟩
  case pass => exact (execDmaPassComplete_passes hbusy hstream data).trans (congrArg _ (if_neg (by simp [hcirc])))

/-! ### What a write to a region stores and leaves alone -/

/-- Every byte of every region outside the bytes written reads as before. -/
theorem memByte_memWrite_ne {s : State} {h off k o : Nat} (bs : List Byte) (hend : off + bs.length ≤ 2 ^ 40) (ho : o < 2 ^ 40)
    (hout : ¬(k = h ∧ off ≤ o ∧ o < off + bs.length)) : (s.memWrite h off bs).memByte k o = s.memByte k o := by
  induction bs generalizing s off with
  | nil => rfl
  | cons b bs ih =>
    rw [List.length_cons] at hend hout
    have hrest : ¬(k = h ∧ off + 1 ≤ o ∧ o < off + 1 + bs.length) := by omega
    have hhere : ¬(k = h ∧ o = off) := by omega
    rw [State.memWrite, ih (by omega) hrest, memByte_memPut_ne b (by omega) ho hhere]

/-- Bytes written to pages of a region that are not retired read back. -/
theorem memRead_memWrite {s : State} {h off : Nat} {r : Region} (bs : List Byte) (hw : Memory.wf s.svc.dram = true) (hr : s.region h = some r)
    (hsize : off + bs.length ≤ r.size) (hmax : r.size ≤ 2 ^ 40) (hpages : ∀ j, j < bs.length → pageRetired r (off + j) = false) :
    (s.memWrite h off bs).memRead h off bs.length = bs := by
  induction bs generalizing s off with
  | nil => rfl
  | cons b bs ih =>
    rw [List.length_cons] at hsize hpages
    have hput : (s.memPut h off b).memByte h off = b := memByte_memPut_self b hw hr (by omega) (hpages 0 (by omega))
    have hhead : ((s.memPut h off b).memWrite h (off + 1) bs).memByte h off = b := by
      rw [memByte_memWrite_ne bs (by omega) (by omega) (by omega), hput]
    have htail := ih (s := s.memPut h off b) (off := off + 1) (memPut_wf h off b hw) ((memPut_region s h off b h).trans hr) (by omega)
      fun j hj => by rw [Nat.add_right_comm]; exact hpages (j + 1) (by omega)
    rw [State.memWrite, List.length_cons, State.memRead, hhead, htail]

/-- A write to memory leaves the window as it was. -/
theorem memWrite_mapped {s : State} {r : Region} {off n : Nat} (h : s.Mapped r off n) (k o : Nat) (bs : List Byte) :
    (s.memWrite k o bs).Mapped r off n := by
  have hregion : (s.memWrite k o bs).region s.dev.winRegion = some r := (memWrite_region s k o bs _).trans h.region
  obtain ⟨m, hm⟩ := memWrite_frame s k o bs
  rw [hm] at hregion ⊢
  exact ⟨h.reaches, h.enabled, h.running, hregion, h.bar, h.size⟩

/-- Settles O57. -/
theorem windowWritesReadBack : Obligations.WindowWritesReadBack := by
  intro off b r s hr hen hst hregion hbar hsize hmax hpages hw
  have hmapped : s.Mapped r off b.length := ⟨hr, hen, hst, hregion, hbar, hsize⟩
  have hdev : (s.memWrite s.dev.winRegion (s.dev.winBase + off) b).dev = s.dev := by
    obtain ⟨m, hm⟩ := memWrite_frame s s.dev.winRegion (s.dev.winBase + off) b
    rw [hm]
    rfl
  have hread := execBar2Access_read (memWrite_mapped hmapped s.dev.winRegion (s.dev.winBase + off) b)
  rw [hdev, memRead_memWrite b hw hregion hsize hmax hpages] at hread
  exact ⟨_, execBar2Access_write hmapped, hread⟩

theorem fit_length (n : Nat) (bs : List Byte) : (fit n bs).length = n := by
  simp only [fit, List.length_append, List.length_take, List.length_replicate]
  omega

/-- What changes the ports and the links alone changes no byte of a region. -/
theorem Beside.memByte {s t : State} (h : Beside s t) (k o : Nat) : t.memByte k o = s.memByte k o := by
  unfold State.memByte State.region
  rw [h.svc]

theorem onDma_beside (s : State) (n : Nat) (f : Dma → Dma) : Beside s (s.onDma n f) := onDev_beside s _

theorem dmaPass_beside (s : State) (n : Nat) : Beside s (s.dmaPass n) := by
  unfold State.dmaPass
  dsimp only
  split
  · exact (onDma_beside s n _).trans (raise_beside _ _)
  · exact onDma_beside s n _

theorem dmaFail_beside (s : State) (n code : Nat) : Beside s (s.dmaFail n code) := by
  unfold State.dmaFail
  dsimp only
  split
  · exact (onDma_beside s n _).trans (raise_beside _ _)
  · exact onDma_beside s n _

/-- Settles O58: a write stores at its own keys, and the end of a pass changes the ports alone. -/
theorem windowAndDmaWritesStoreWhereTheySay : Obligations.WindowAndDmaWritesStoreWhereTheySay := by
  refine ⟨fun off b r s hr hen hst hregion hbar hsize hmax => ?window, fun n data s hbusy hstream hdir hend => ?pass⟩
  case window =>
    have hmapped : s.Mapped r off b.length := ⟨hr, hen, hst, hregion, hbar, hsize⟩
    exact ⟨_, execBar2Access_write hmapped, memWrite_frame _ _ _ _, fun _ _ ho hout => memByte_memWrite_ne b (by omega) ho hout⟩
  case pass =>
    have hmoved : s.dmaMoved n data = s.memWrite (s.dmaCh n).region (s.dmaCh n).regOffset (fit (s.dmaCh n).length data) := if_neg (by simp [hdir])
    refine ⟨_, execDmaPassComplete_passes hbusy hstream data, fun h o ho hout => ?_⟩
    have hpass : ∀ t : State, Beside t (if (s.dmaCh n).circ then t.dmaPass n else (t.dmaPass n).onDma n fun d => { d with busy := false }) := by
      intro t
      split
      · exact dmaPass_beside t n
      · exact (dmaPass_beside t n).trans (onDma_beside _ n _)
    rw [(hpass _).memByte, hmoved, memByte_memWrite_ne _ (by rwa [fit_length]) ho (by rwa [fit_length])]

/-! ### Canonical memory (O59) -/

/-- The step from `s` to `t` keeps the regions' contents in canonical form. -/
def KeepsMemory (s t : State) : Prop := Memory.wf s.svc.dram = true → Memory.wf t.svc.dram = true

theorem KeepsMemory.refl (s : State) : KeepsMemory s s := fun h => h
theorem KeepsMemory.trans {s t v : State} (h : KeepsMemory s t) (k : KeepsMemory t v) : KeepsMemory s v := fun hw => k (h hw)
theorem Beside.keepsMemory {s t : State} (h : Beside s t) : KeepsMemory s t := fun hw => h.svc ▸ hw
theorem memWrite_keepsMemory (s : State) (h off : Nat) (bs : List Byte) : KeepsMemory s (s.memWrite h off bs) := memWrite_wf h off bs

theorem dmaMoved_keepsMemory (s : State) (n : Nat) (data : List Byte) : KeepsMemory s (s.dmaMoved n data) := by
  unfold State.dmaMoved
  split
  · exact (emit_beside s _).keepsMemory
  · exact memWrite_keepsMemory s _ _ _

theorem dmaCtl_keepsMemory (s : State) (n v : Nat) (data : List Byte) : KeepsMemory s (s.dmaCtl n v data) := by
  have hset (a : State) (f : Dma → Dma) : KeepsMemory a (a.onDma n f) := (onDma_beside a n f).keepsMemory
  have hfail (a : State) (c : Nat) : KeepsMemory a (a.dmaFail n c) := (dmaFail_beside a n c).keepsMemory
  unfold State.dmaCtl
  extract_lets x s1 k stop s2
  have hstop : KeepsMemory s1 (stop s1) := by
    refine (KeepsMemory.trans ?_ (hset _ _)).trans (hfail _ 7)
    split
    · exact .refl s1
    · split
      · exact (emit_beside s1 _).keepsMemory
      · exact memWrite_keepsMemory s1 _ _ _
  have hs2 : KeepsMemory s s2 := by
    refine (hset s _ : KeepsMemory s s1).trans ?_
    dsimp only [s2]
    split
    · exact hstop
    · exact .refl s1
  split
  · cases s2.dmaGoErr (s2.dmaCh n) with
    | some c => exact hs2.trans (hfail s2 c)
    | none =>
      dsimp only
      split
      · exact hs2.trans (hfail s2 6)
      · exact hs2.trans (hset s2 _)
  · exact hs2

theorem execBar2Access_keepsMemory {off : Nat} {a : MemAccess} {s t : State} (h : execBar2Access off a s = .next t) : KeepsMemory s t := by
  unfold execBar2Access at h
  extract_lets n d mapped size s1 at h
  have hmark : KeepsMemory s s1 := by
    dsimp only [s1]
    split
    · exact (onDev_beside s _).keepsMemory
    · exact .refl s
  clear_value s1
  split at h
  · cases h
  · split at h
    · cases h
      exact .refl s
    · cases h
      refine hmark.trans ?_
      cases a with
      | read k => exact (emit_beside s1 _).keepsMemory
      | write b =>
        dsimp only
        split
        · exact memWrite_keepsMemory s1 _ _ _
        · exact .refl s1

theorem execWinCtl_keepsMemory {w : WinWrite} {s t : State} (h : execWinCtl w s = .next t) : KeepsMemory s t := by
  unfold execWinCtl at h
  split at h
  · cases h
    exact .refl s
  · cases h
    cases w <;> exact (onDev_beside s _).keepsMemory

theorem execDmaGo_keepsMemory {n : Fin 16} {v : BitVec 32} {s t : State} (h : execDmaGo n v s = .next t) : KeepsMemory s t := by
  unfold execDmaGo at h
  split at h <;> cases h
  · exact dmaCtl_keepsMemory s n _ _
  · exact .refl s

theorem execDmaStop_keepsMemory {n : Fin 16} {v : BitVec 32} {data : List Byte} {s t : State} (h : execDmaStop n v data s = .next t) :
    KeepsMemory s t := by
  unfold execDmaStop at h
  split at h <;> cases h
  · exact dmaCtl_keepsMemory s n _ _
  · exact .refl s

theorem execDmaPassComplete_keepsMemory {n : Fin 16} {data : List Byte} {ok : Bool} {s t : State} (h : execDmaPassComplete n data ok s = .next t) :
    KeepsMemory s t := by
  have hmoved := (dmaMoved_keepsMemory s n data).trans (dmaPass_beside _ n).keepsMemory
  unfold execDmaPassComplete at h
  dsimp only at h
  split at h
  · cases h
    exact .refl s
  · split at h
    · cases h
      exact (dmaFail_beside s n 4).keepsMemory
    · cases h
      split
      · exact hmoved
      · exact hmoved.trans (onDma_beside _ n _).keepsMemory

theorem execRegionZeroed_keepsMemory {k : Fin 2048} {s t : State} (h : execRegionZeroed k s = .next t) : KeepsMemory s t := by
  unfold execRegionZeroed at h
  split at h
  · split at h <;> cases h
    · exact .refl s
    · exact fun hw => (resolve_beside (s.onSvc _) _ _).keepsMemory hw
  · cases h
    exact .refl s

theorem execFabricStall_keepsMemory {p : Fin 26} {s t : State} (h : execFabricStall p s = .next t) : KeepsMemory s t := by
  cases h
  exact (onDev_beside s _).keepsMemory

/-- Settles O59: each row writes to a region byte by byte, or changes the ports alone. -/
theorem hostAccessesKeepMemoryCanonical : Obligations.HostAccessesKeepMemoryCanonical := by
  intro i s t hi hw h
  suffices hkeeps : KeepsMemory s t from hkeeps hw
  rcases hi with ⟨off, a, rfl⟩ | ⟨w, rfl⟩ | ⟨n, v, rfl⟩ | ⟨n, v, d, rfl⟩ | ⟨n, d, b, rfl⟩ | ⟨k, rfl⟩ | ⟨p, rfl⟩
  · exact execBar2Access_keepsMemory h
  · exact execWinCtl_keepsMemory h
  · exact execDmaGo_keepsMemory h
  · exact execDmaStop_keepsMemory h
  · exact execDmaPassComplete_keepsMemory h
  · exact execRegionZeroed_keepsMemory h
  · exact execFabricStall_keepsMemory h

end Sys2Proof.Machine
end

section
/-! ## The SMBus transport, deadlines and the times of TIMED commands (R44, R47, R54, R55, R67, R68) -/
namespace Sys2Proof.Machine

section
variable {s : State}

/-! ### SMBus (R67, R68) -/

theorem execBlockWrite_bad (hon : s.dev.st ≠ .off) {b : List Byte} {pec : Bool} (hbad : pec = false ∨ b = []) :
    execBlockWrite b pec s = .next s.asmError := by
  have hbad' : (!pec || b.isEmpty) = true := by simpa using hbad
  rw [execBlockWrite, if_neg (by simp [hon]), if_pos hbad']

/-- The control byte of a block is its first byte. -/
theorem u_head (c : Byte) (b : List Byte) : u (c :: b) 0 1 = c.toNat := by simp [u, slice, leNat]

/-- The state in which a fragment with the control byte `c` is judged: a FIRST one ends the assembly that is open. -/
def State.beforeFragment (s : State) (c : Byte) : State := if bitOf c.toNat 7 && s.dev.smbus.assembling then s.asmError else s

/-- A fragment comes in order: FIRST with the index 0, or the one that the open assembly waits for. -/
def Smbus.inOrder (x : Smbus) (c : Byte) : Bool :=
  if bitOf c.toNat 7 then decide (c.toNat % 64 = 0) else x.assembling && decide (c.toNat % 64 = x.next)

/-- What a fragment makes of the assembled bytes. -/
def Smbus.joined (x : Smbus) (c : Byte) (b : List Byte) : List Byte := (if bitOf c.toNat 7 then [] else x.partialReq) ++ b

/-- A block with its control byte: what the store, the order and LAST make of it. -/
theorem execBlockWrite_fragment (hon : s.dev.st ≠ .off) (c : Byte) (b : List Byte) :
    execBlockWrite (c :: b) true s = .next (
      if bitOf c.toNat 7 && decide (4 ≤ s.dev.smbus.replies.length) then s.emit .smbusNack
      else if s.dev.smbus.inOrder c then
        if bitOf c.toNat 6 then
          ((s.beforeFragment c).onSmbus fun x => { x with assembling := false, partialReq := [], next := 0 }).intakeBytes .mgmt false (s.dev.smbus.joined c b)
        else (s.beforeFragment c).onSmbus fun x =>
          { x with assembling := true, partialReq := s.dev.smbus.joined c b, next := c.toNat % 64 + 1, since := (s.beforeFragment c).now }
      else (s.beforeFragment c).asmError) := by
  have hstart : execBlockWrite (c :: b) true s = if bitOf c.toNat 7 && decide (4 ≤ s.dev.smbus.replies.length) then .next (s.emit .smbusNack)
      else if (if bitOf c.toNat 7 then c.toNat % 64 ≠ 0 else !(s.beforeFragment c).dev.smbus.assembling ∨ c.toNat % 64 ≠ (s.beforeFragment c).dev.smbus.next)
        then .next (s.beforeFragment c).asmError
      else if bitOf c.toNat 6 then .next (((s.beforeFragment c).onSmbus fun x => { x with assembling := false, partialReq := [], next := 0 }).intakeBytes
        .mgmt false ((s.beforeFragment c).dev.smbus.joined c b))
      else .next ((s.beforeFragment c).onSmbus fun x =>
        { x with assembling := true, partialReq := (s.beforeFragment c).dev.smbus.joined c b, next := c.toNat % 64 + 1, since := (s.beforeFragment c).now }) := by
    rw [execBlockWrite, if_neg (by simp [hon]), if_neg (by simp), u_head]
    rfl
  have hjoined : (s.beforeFragment c).dev.smbus.joined c b = s.dev.smbus.joined c b := by
    cases hfirst : bitOf c.toNat 7 <;> simp [Smbus.joined, State.beforeFragment, hfirst]
  have horder : (if bitOf c.toNat 7 then c.toNat % 64 ≠ 0 else !(s.beforeFragment c).dev.smbus.assembling ∨ c.toNat % 64 ≠ (s.beforeFragment c).dev.smbus.next) ↔
      ¬ s.dev.smbus.inOrder c = true := by
    cases hfirst : bitOf c.toNat 7 <;> simp [Smbus.inOrder, State.beforeFragment, hfirst, Decidable.imp_iff_not_or]
  rw [hstart, hjoined, ite_congr (propext horder) (fun _ => rfl) (fun _ => rfl), ite_not]
  simp only [apply_ite Host.Outcome.next]

theorem execBlockRead_empty (hon : s.dev.st ≠ .off) (hnone : s.dev.smbus.replies = []) : execBlockRead s = .next (s.emit (.smbus [0])) := by
  simp [execBlockRead, hon, hnone]

/-- The fragment that completes the oldest reply; the reply is no longer stored, and one that waits takes a place. -/
theorem execBlockRead_last (hon : s.dev.st ≠ .off) {r : List Byte} {rest : List (List Byte)} (hstored : s.dev.smbus.replies = r :: rest)
    (hlast : r.length ≤ s.dev.smbus.sentTo + 254) :
    execBlockRead s = .next ((s.emit (.smbus (leBytes 1 (128 * ofBool (s.dev.smbus.frag == 0) + 64 + s.dev.smbus.frag % 64) ++
      r.drop s.dev.smbus.sentTo))).onSmbus fun x => { x with replies := rest ++ x.late.take 1, late := x.late.drop 1, sentTo := 0, frag := 0 }) := by
  have hpart : (r.drop s.dev.smbus.sentTo).take 254 = r.drop s.dev.smbus.sentTo := List.take_of_length_le (by rw [List.length_drop]; omega)
  have hwhole : r.length ≤ s.dev.smbus.sentTo + (r.length - s.dev.smbus.sentTo) := by omega
  simp [execBlockRead, hon, hstored, hpart, hwhole, ofBool]

theorem execBlockRead_part (hon : s.dev.st ≠ .off) {r : List Byte} {rest : List (List Byte)} (hstored : s.dev.smbus.replies = r :: rest)
    (hmore : s.dev.smbus.sentTo + 254 < r.length) :
    execBlockRead s = .next ((s.emit (.smbus (leBytes 1 (128 * ofBool (s.dev.smbus.frag == 0) + s.dev.smbus.frag % 64) ++
      (r.drop s.dev.smbus.sentTo).take 254))).onSmbus fun x => { x with sentTo := x.sentTo + 254, frag := x.frag + 1 }) := by
  have hpart : ((r.drop s.dev.smbus.sentTo).take 254).length = 254 := by rw [List.length_take, List.length_drop]; omega
  simp only [execBlockRead, hstored, hpart, beq_iff_eq, hon, if_false, Nat.not_le.mpr hmore, decide_false, Bool.false_eq_true]
  rfl

theorem execReadByte_on (hon : s.dev.st ≠ .off) :
    execReadByte s = .next ((s.emit (.smbus [BitVec.ofNat 8
      (ofBool (!s.dev.smbus.replies.isEmpty) + 2 * ofBool (decide (4 ≤ s.dev.smbus.replies.length)) + 4 * ofBool s.dev.smbus.asmErr)])).onSmbus fun x =>
        { x with asmErr := false }) := if_neg (by simp [hon])

theorem execAlertResponse_on (hon : s.dev.st ≠ .off) :
    execAlertResponse s = .next (s.emit (if s.alert then .smbus (leBytes 1 (2 * s.dev.smbus.addr)) else .smbusNack)) := if_neg (by simp [hon])

theorem execAssemblyTimeout_open (h : s.dev.smbus.assembling = true) :
    execAssemblyTimeout s = .next (s.advanceTo (s.dev.smbus.since + 100 * uMs)).asmError := if_pos h

theorem execAssemblyTimeout_none (h : s.dev.smbus.assembling = false) : execAssemblyTimeout s = .next s := if_neg (by simp [h])

/-- Without VAUX the SMBus does not answer. -/
theorem smbus_off (hoff : s.dev.st = .off) (b : List Byte) (pec : Bool) :
    execBlockWrite b pec s = .next s ∧ execBlockRead s = .next s ∧ execReadByte s = .next s ∧ execAlertResponse s = .next s := by
  have h : (s.dev.st == .off) = true := by simp [hoff]
  exact ⟨if_pos h, if_pos h, if_pos h, if_pos h⟩

end

/-- Settles O25: each clause is the law of its row above. -/
theorem smbusRowsComplete : Obligations.SmbusRowsComplete := by
  refine ⟨fun _ _ _ hon => execBlockWrite_bad hon, fun c b s hon => ?fragment, fun _ hon => execBlockRead_empty hon,
    fun _ _ _ hon hstored => ⟨execBlockRead_last hon hstored, execBlockRead_part hon hstored⟩, fun _ hon => execReadByte_on hon,
    fun s hon => ⟨fun h => (execAlertResponse_on hon).trans (by rw [if_pos h]), fun h => (execAlertResponse_on hon).trans (by rw [if_neg (by simp [h])])⟩,
    fun _ => ⟨execAssemblyTimeout_open, execAssemblyTimeout_none⟩, fun b pec _ hoff => smbus_off hoff b pec⟩
  have hrow := execBlockWrite_fragment hon c b
  have hroom (h : bitOf c.toNat 7 = true → s.dev.smbus.replies.length < 4) : ¬ (bitOf c.toNat 7 && decide (4 ≤ s.dev.smbus.replies.length)) = true := by
    simpa using h
  refine ⟨fun hfirst hfull => hrow.trans (congrArg _ (if_pos (by simp [hfirst, hfull]))), fun h horder => ?_, fun h horder hlast => ?_, fun h horder hlast => ?_⟩
  · exact hrow.trans (congrArg _ ((if_neg (hroom h)).trans (if_neg (Bool.eq_false_iff.mp horder))))
  · exact hrow.trans (congrArg _ ((if_neg (hroom h)).trans ((if_pos horder).trans (if_pos hlast))))
  · exact hrow.trans (congrArg _ ((if_neg (hroom h)).trans ((if_pos horder).trans (if_neg (Bool.eq_false_iff.mp hlast)))))

/-! ### Deadlines and TIMED commands (R44, R47, R54, R55) -/

theorem execDeadlineExpiry_held {src : Src} {tag : BitVec 16} {seq : BitVec 32} {h : Held} {s : State} (hh : s.heldBy src tag seq false = some h) :
    execDeadlineExpiry src tag seq s = .next (s.expire h (s.deadlines (h.pkt.code / 256)).1).raisePoints := by
  simp only [execDeadlineExpiry, hh]

theorem execDeferralDeadlineExpiry_held {src : Src} {tag : BitVec 16} {seq : BitVec 32} {h : Held} {s : State}
    (hh : s.heldBy src tag seq true = some h) :
    execDeferralDeadlineExpiry src tag seq s = .next (s.expire h (s.deadlines (h.pkt.code / 256)).2).raisePoints := by
  simp only [execDeferralDeadlineExpiry, hh]

theorem execChainTimeout_open {src : Src} {s : State} (h : (s.stream src).chain ≠ []) :
    execChainTimeout src s = .next ((s.stream src).chain.foldl (fun (a : State) p => a.replyErr p false (a.naming p (err Status.eTimeout 1)))
      ((s.advanceTo ((s.stream src).chainAt + uMs)).onStream src fun t => { t with chain := [] })) :=
  if_neg (by simp [h])

/-- The earliest TIMED entry at its time: it has left the list, and time has come to it. -/
def State.timedDue (s : State) (x : Timed) (rest : List Timed) : State := (s.onDev fun d => { d with timed := rest }).advanceTo x.due

theorem execTimedExecute_starts {x : Timed} {rest : List Timed} {s t : State} {ks : List (Pkt × Checked)} (h : s.dev.timed = x :: rest)
    (hks : (s.timedDue x rest).checkChain true x.pkts = (t, .ok ks)) :
    execTimedExecute s = .next (ks.foldl (fun (a : State) k => a.start k.1 k.2) t).raisePoints := by
  rw [State.timedDue] at hks
  simp only [execTimedExecute, h, hks]

theorem execTimedExecute_fails {x : Timed} {rest : List Timed} {s t : State} {i : Nat} {e : Err} (h : s.dev.timed = x :: rest)
    (he : (s.timedDue x rest).checkChain true x.pkts = (t, .error (i, e))) : execTimedExecute s = .next (t.failAll i e 0 x.pkts) := by
  rw [State.timedDue] at he
  simp only [execTimedExecute, h, he]

/-- Settles O26: each clause is the law of its row above. -/
theorem deadlineRowsComplete : Obligations.DeadlineRowsComplete :=
  ⟨fun _ _ _ _ _ => execDeadlineExpiry_held, fun _ _ _ _ _ => execDeferralDeadlineExpiry_held, fun _ _ _ => rfl, fun _ _ => execChainTimeout_open,
    fun _ _ _ _ h => ⟨fun _ => execTimedExecute_starts h, fun _ _ => execTimedExecute_fails h⟩⟩

end Sys2Proof.Machine
end

section
/-! ## Every command ends in a next state (O60)

Every row of `exec` is a choice between next states; REG_WRITE and BAR2_ACCESS alone have a branch that stops, for addresses that do not exist. -/
namespace Sys2Proof.Machine

/-- An outcome is a next state. -/
def Answers (o : Host.Outcome State Fault Refusal) : Prop := ∃ t, o = .next t

section
variable {a b : Host.Outcome State Fault Refusal} {c : Prop} [Decidable c]

theorem Answers.next (t : State) : Answers (.next t) := ⟨t, rfl⟩
theorem Answers.ite (ha : Answers a) (hb : Answers b) : Answers (if c then a else b) := iteInduction (fun _ => ha) fun _ => hb
theorem Answers.ite_neg (hc : ¬c) (hb : Answers b) : Answers (if c then a else b) := by rwa [if_neg hc]

end

section
variable {s : State}

/-! ### The rows that look at a part of the state by its form -/

/-! #### Ports (02) -/

theorem execDeadlineExpiry_answers {src : Src} {tag : BitVec 16} {seq : BitVec 32} : Answers (execDeadlineExpiry src tag seq s) := by
  unfold execDeadlineExpiry
  split <;> exact .next _

theorem execDeferralDeadlineExpiry_answers {src : Src} {tag : BitVec 16} {seq : BitVec 32} : Answers (execDeferralDeadlineExpiry src tag seq s) := by
  unfold execDeferralDeadlineExpiry
  split <;> exact .next _

theorem execTimedExecute_answers : Answers (execTimedExecute s) := by
  unfold execTimedExecute
  split <;> exact .next _

theorem execBlockRead_answers : Answers (execBlockRead s) := by
  unfold execBlockRead
  refine .ite (.next _) ?_
  split <;> exact .next _

/-! #### Sequencers (03) -/

theorem execWaitUntilEnd_answers {q : Fin 16} {f : Fin 32} : Answers (execWaitUntilEnd q f s) := by
  unfold execWaitUntilEnd
  split <;> exact .next _

theorem execWaitEventTimeout_answers {q : Fin 16} {f : Fin 32} : Answers (execWaitEventTimeout q f s) := by
  unfold execWaitEventTimeout
  split <;> exact .next _

theorem execTrigTimeout_answers {q : Fin 16} {f : Fin 32} : Answers (execTrigTimeout q f s) := by
  unfold execTrigTimeout
  split <;> exact .next _

theorem execFolioLate_answers {q : Fin 16} {f : Fin 32} : Answers (execFolioLate q f s) := by
  unfold execFolioLate
  refine .ite (.next _) ?_
  refine .ite (.next _) ?_
  split
  · exact .next _
  · exact .ite (.next _) (.ite (.next _) (.next _))

theorem execRingWrap_answers {q : Fin 16} {f : Fin 32} : Answers (execRingWrap q f s) := by
  unfold execRingWrap
  refine .ite (.next _) ?_
  split <;> exact .next _

/-! #### Read-out (04) -/

theorem execCovarDone_answers {q : Fin 16} {x : List AdcIn} : Answers (execCovarDone q x s) := by
  unfold execCovarDone
  split <;> exact .next _

theorem execWindowOpen_answers {q : Fin 16} {f : Fin 32} : Answers (execWindowOpen q f s) := by
  unfold execWindowOpen
  dsimp only
  split
  · exact .next _
  · split
    · exact .next _
    · exact .ite (.next _) (.next _)

theorem execWindowEnd_answers {q : Fin 16} {f : Fin 32} {x : List AdcIn} : Answers (execWindowEnd q f x s) := by
  unfold execWindowEnd
  split <;> exact .next _

/-! #### Feedback cores (05) -/

theorem execCoreWaitRelease_answers {q : Fin 16} {k : Fin 4} : Answers (execCoreWaitRelease q k s) := by
  unfold execCoreWaitRelease
  dsimp only
  split
  · exact .next _
  · refine .ite (.next _) ?_
    split
    · exact .next _
    · exact .ite (.next _) (.next _)

theorem execCoreWaitTimeout_answers {q : Fin 16} {k : Fin 4} : Answers (execCoreWaitTimeout q k s) := by
  unfold execCoreWaitTimeout
  dsimp only
  split
  · exact .next _
  · exact .ite (.next _) (.next _)

theorem execSendQueueLaunch_answers {q : Fin 16} : Answers (execSendQueueLaunch q s) := by
  unfold execSendQueueLaunch
  dsimp only
  split
  · exact .next _
  · exact .ite (.next _) (.next _)

theorem execFeedbackFrameReceive_answers {q : Fin 16} : Answers (execFeedbackFrameReceive q s) := by
  unfold execFeedbackFrameReceive
  split
  · exact .next _
  · exact .ite (.next _) (.next _)

/-! #### Intake and plans (06, 07) -/

theorem execIntakeFrame_answers {lane : Fin 72} {whole : Bool} {bytes : List Byte} : Answers (execIntakeFrame lane whole bytes s) := by
  unfold execIntakeFrame
  refine .ite (.next _) ?_
  split <;> exact .next _

theorem execChannelise_answers {q : Fin 16} {x : List AdcIn} : Answers (execChannelise q x s) := by
  unfold execChannelise
  split
  · refine .ite (.next _) ?_
    refine .ite (.next _) ?_
    exact .next _
  · exact .next _

theorem execBlockRelease_answers : Answers (execBlockRelease s) := by
  unfold execBlockRelease
  split
  · exact .next _
  · exact .ite (.next _) (.next _)

theorem execCtWrap_answers : Answers (execCtWrap s) := by
  unfold execCtWrap
  split
  · exact .ite (.ite (.next _) (.next _)) (.next _)
  · exact .next _

theorem execChannelAdd_answers : Answers (execChannelAdd s) := by
  unfold execChannelAdd
  dsimp only
  split
  · refine .ite (.next _) ?_
    split
    · exact .ite (.next _) (.next _)
    · exact .ite (.next _) (.next _)
  · exact .next _

theorem execIntegrationFinished_answers : Answers (execIntegrationFinished s) := by
  unfold execIntegrationFinished
  dsimp only
  split
  · exact .next _
  · exact .ite (.next _) (.next _)

theorem execExportComplete_answers : Answers (execExportComplete s) := by
  unfold execExportComplete
  dsimp only
  split
  · split
    · exact .next _
    · exact .ite (.next _) (.next _)
  · exact .next _

theorem execOverrun_answers {sentRecords : Nat} : Answers (execOverrun sentRecords s) := by
  unfold execOverrun
  dsimp only
  split
  · exact .ite (.next _) (.next _)
  · exact .next _

theorem execBeamBlockOutput_answers : Answers (execBeamBlockOutput s) := by
  unfold execBeamBlockOutput
  dsimp only
  split
  · exact .ite (.next _) (.next _)
  · exact .next _

/-! #### Converter lines, lanes and links (08, 09) -/

theorem execMuteTakeEffect_answers {n : Fin 40} : Answers (execMuteTakeEffect n s) := by
  unfold execMuteTakeEffect
  dsimp only
  split <;> exact .next _

theorem execUnmuteResume_answers {n : Fin 40} : Answers (execUnmuteResume n s) := by
  unfold execUnmuteResume
  split
  · exact .ite (.next _) (.next _)
  · exact .next _

theorem execLineSettle_answers {n : Fin 40} : Answers (execLineSettle n s) := by
  unfold execLineSettle
  split <;> exact .next _

theorem execDacBackgroundCal_answers {n : Fin 40} {m1 m2 : List Int} : Answers (execDacBackgroundCal n m1 m2 s) := by
  unfold execDacBackgroundCal
  refine .ite (.next _) ?_
  split
  · exact .next _
  · exact .ite (.next _) (.next _)

theorem execReferenceCalibration_answers {n : Fin 16} {m1 m2 : List Int} : Answers (execReferenceCalibration n m1 m2 s) := by
  unfold execReferenceCalibration
  refine .ite (.next _) ?_
  split
  · exact .next _
  · exact .ite (.next _) (.next _)

theorem execFeedbackFrameLink_answers {p : Fin 4} {whole : Bool} {bytes : List Byte} : Answers (execFeedbackFrameLink p whole bytes s) := by
  unfold execFeedbackFrameLink
  refine .ite (.next _) ?_
  split
  · exact .next _
  · exact .ite (.next _) (.ite (.next _) (.ite (.next _) (.next _)))

theorem execReorderHoldExpiry_answers {p : Fin 4} : Answers (execReorderHoldExpiry p s) := by
  unfold execReorderHoldExpiry
  split <;> exact .next _

theorem execPeerDeadline_answers {p : Fin 4} {index : BitVec 32} : Answers (execPeerDeadline p index s) := by
  unfold execPeerDeadline
  split <;> exact .next _

/-! #### Time (10) -/

theorem execWithdrawIgnoreEnd_answers {p : Fin 4} : Answers (execWithdrawIgnoreEnd p s) := by
  unfold execWithdrawIgnoreEnd
  split <;> exact .next _

theorem execExchLost_answers {p : Fin 4} : Answers (execExchLost p s) := by
  unfold execExchLost
  split <;> exact .next _

theorem execStepApply_answers : Answers (execStepApply s) := by
  unfold execStepApply
  split <;> exact .next _

/-! #### Clocks, supplies and the start-up (11) -/

theorem execFreqMeasureDone_answers {count : Option Nat} : Answers (execFreqMeasureDone count s) := by
  unfold execFreqMeasureDone
  split <;> exact .next _

theorem execLiveSwitch_answers : Answers (execLiveSwitch s) := by
  unfold execLiveSwitch
  split
  · exact .ite (.next _) (.next _)
  · exact .next _

theorem execDvfsTransitionDone_answers {p : Fin 17} : Answers (execDvfsTransitionDone p s) := by
  unfold execDvfsTransitionDone
  split <;> exact .next _

theorem execRailGood_answers {r : Rail} : Answers (execRailGood r s) := by
  unfold execRailGood
  split
  · exact .next _
  · exact .ite (.next _) (.next _)

theorem execRailLoss_answers {e : Excursion} : Answers (execRailLoss e s) := by
  unfold execRailLoss
  refine .ite (.next _) ?_
  split
  · exact .next _
  · exact .ite (.next _) (.next _)

theorem execFirmwareVerified_answers : Answers (execFirmwareVerified s) := by
  unfold execFirmwareVerified
  dsimp only
  refine .ite (.next _) ?_
  split <;> exact .next _

/-! #### Interval meter, bias outputs and events (12 to 14) -/

theorem execTinCalDone_answers {n : Fin 8} {hits1 hits2 : List Nat} {milliC : Int} : Answers (execTinCalDone n hits1 hits2 milliC s) := by
  unfold execTinCalDone
  split
  · exact .next _
  · exact .ite (.next _) (.ite (.next _) (.next _))

theorem execTinEdge_answers {src : Fin 15} {rising : Bool} {tclk taps held : Nat} {milliC : Int} : Answers (execTinEdge src rising tclk taps held milliC s) := by
  unfold execTinEdge
  refine .ite (.next _) ?_
  refine .ite ?_ (.ite (.next _) (.ite (.next _) (.next _)))
  refine .ite (.next _) ?_
  exact .ite (.next _) (.next _)

theorem execNoStop_answers {n : Fin 8} : Answers (execNoStop n s) := by
  unfold execNoStop
  dsimp only
  split
  · exact .ite (.next _) (.next _)
  · exact .next _

theorem execRangeRelease_answers {n : Fin 64} : Answers (execRangeRelease n s) := by
  unfold execRangeRelease
  split <;> exact .next _

theorem execPowerUpRamp_answers {n : Fin 64} : Answers (execPowerUpRamp n s) := by
  unfold execPowerUpRamp
  refine .ite (.next _) ?_
  split
  · exact .next _
  · exact .ite (.next _) (.next _)

theorem execEventActivation_answers {k more : Nat} : Answers (execEventActivation k more s) := by
  unfold execEventActivation
  split
  · exact .next _
  · exact .ite (.next _) (.next _)

/-! #### Faults, live service and trust (16, 17) -/

theorem execPrecopyDone_answers {dirty : Nat} : Answers (execPrecopyDone dirty s) := by
  unfold execPrecopyDone
  split
  · exact .next _
  · exact .ite (.next _) (.next _)

theorem execMigrationSwitch_answers : Answers (execMigrationSwitch s) := by
  unfold execMigrationSwitch
  split <;> exact .next _

theorem execHandoverPause_answers : Answers (execHandoverPause s) := by
  unfold execHandoverPause
  split <;> exact .next _

theorem execHandoverReadyTimeout_answers {host : List (List (Option (List Byte)))} : Answers (execHandoverReadyTimeout host s) := by
  unfold execHandoverReadyTimeout
  split <;> exact .next _

theorem execTrialTimeout_answers : Answers (execTrialTimeout s) := by
  unfold execTrialTimeout
  split <;> exact .next _

theorem execSelftestDone_answers {i : Nat} {pass : Bool} : Answers (execSelftestDone i pass s) := by
  unfold execSelftestDone
  split <;> exact .next _

theorem execSpareMove_answers {i : Nat} : Answers (execSpareMove i s) := by
  unfold execSpareMove
  dsimp only
  split
  · exact .next _
  · split
    · exact .next _
    · exact .ite (.next _) (.ite (.next _) (.next _))

theorem execNonceExpiry_answers {src : Src} : Answers (execNonceExpiry src s) := by
  unfold execNonceExpiry
  split <;> exact .next _

theorem execFlashOperationDone_answers {w : FlashWork} {ok : Bool} : Answers (execFlashOperationDone w ok s) := by
  unfold execFlashOperationDone
  split
  · exact .ite (.next _) (.next _)
  · exact .ite (.next _) (.ite (.next _) (.ite (.next _) (.next _)))

theorem execRegionZeroed_answers {h : Fin 2048} : Answers (execRegionZeroed h s) := by
  unfold execRegionZeroed
  split
  · exact .ite (.next _) (.next _)
  · exact .next _

theorem execLaneTestEnd_answers {n : Fin 92} {errors : Nat} : Answers (execLaneTestEnd n errors s) := by
  unfold execLaneTestEnd
  split <;> exact .next _

theorem execFirmwareStaged_answers {ok : Bool} : Answers (execFirmwareStaged ok s) := by
  unfold execFirmwareStaged
  split <;> exact .next _

theorem execNewFirmwareReady_answers {host : List (List (Option (List Byte)))} : Answers (execNewFirmwareReady host s) := by
  unfold execNewFirmwareReady
  split
  · exact .ite (.next _) (.next _)
  · exact .next _

theorem execRegWrite_answers {off : Nat} {data : List Byte} (h : off + data.length ≤ 65536) : Answers (execRegWrite off data s) :=
  .ite_neg (Nat.not_lt.mpr h) (.ite (.next _) (.next _))

theorem execBar2Access_answers {off : Nat} {acc : MemAccess} (hread : ∀ n, acc = .read n → off + n ≤ 2 ^ 30)
    (hwrite : ∀ b, acc = .write b → off + b.length ≤ 2 ^ 30) : Answers (execBar2Access off acc s) := by
  cases acc with
  | read n => exact .ite_neg (Nat.not_lt.mpr (hread n rfl)) (.ite (.next _) (.next _))
  | write b => exact .ite_neg (Nat.not_lt.mpr (hwrite b rfl)) (.ite (.next _) (.next _))

end

/-- Settles O60: the rows by their branches; every row that is not named is a next state whatever it finds, the packet rows among them. -/
theorem everyCommandCompletes : Obligations.EveryCommandCompletes := by
  intro i s hreg hread hwrite
  change Answers (exec i s)
  cases i
  case regWrite off data => exact execRegWrite_answers (hreg off data rfl)
  case bar2Access off acc =>
    exact execBar2Access_answers (fun n h => hread off n (congrArg _ h)) fun b h => hwrite off b (congrArg _ h)
  case chainTimeout | ringCfg | post | readyClear | winCtl | dmaGo | dmaStop | readByte | alertResponse | assemblyTimeout | refillFetch |
      sequenceBoundary | blockBoundary | switchOpen | laneUp | trainingTimeout | laneRetry | skipSend | identSend | identStale |
      announceInterval | masterTimeout | trigPulse | trigInputEdge | slotLaunch | qualificationWindowEnd | holdoverMaxExpiry | forcedRelease |
      slip | pinEnter | vauxGood | bootSupplyTimeout | sysRstN | bootSelftestComplete | temperatureShutdown | hardwareThermalTrip | biasUpdate |
      systemSlot | hostSlot | bandgapCompare | correctionInterval | evFireWrite | adcCalDue | biasChipletFault | intPllLock => exact .ite (.next _) (.next _)
  case sqTail | cqHead | dmaPassComplete | rfMuteN | therm | identReceive | syncInterval => exact .ite (.next _) (.ite (.next _) (.next _))
  case blockWrite => exact .ite (.next _) (.ite (.next _) (.ite (.next _) (.ite (.next _) (.ite (.next _) (.next _)))))
  case laneError | laneSelftestDone | holdoffEnd | errorDetected => exact .ite (.ite (.next _) (.next _)) (.next _)
  case missingEdge => exact .ite (.next _) (.ite (.ite (.next _) (.next _)) (.ite (.ite (.next _) (.next _)) (.ite (.next _) (.next _))))
  case deadlineExpiry => exact execDeadlineExpiry_answers
  case deferralDeadlineExpiry => exact execDeferralDeadlineExpiry_answers
  case timedExecute => exact execTimedExecute_answers
  case blockRead => exact execBlockRead_answers
  case waitUntilEnd => exact execWaitUntilEnd_answers
  case waitEventTimeout => exact execWaitEventTimeout_answers
  case trigTimeout => exact execTrigTimeout_answers
  case folioLate => exact execFolioLate_answers
  case ringWrap => exact execRingWrap_answers
  case covarDone => exact execCovarDone_answers
  case windowOpen => exact execWindowOpen_answers
  case windowEnd => exact execWindowEnd_answers
  case coreWaitRelease => exact execCoreWaitRelease_answers
  case coreWaitTimeout => exact execCoreWaitTimeout_answers
  case sendQueueLaunch => exact execSendQueueLaunch_answers
  case feedbackFrameReceive => exact execFeedbackFrameReceive_answers
  case intakeFrame => exact execIntakeFrame_answers
  case channelise => exact execChannelise_answers
  case blockRelease => exact execBlockRelease_answers
  case ctWrap => exact execCtWrap_answers
  case channelAdd => exact execChannelAdd_answers
  case integrationFinished => exact execIntegrationFinished_answers
  case exportComplete => exact execExportComplete_answers
  case overrun => exact execOverrun_answers
  case beamBlockOutput => exact execBeamBlockOutput_answers
  case muteTakeEffect => exact execMuteTakeEffect_answers
  case unmuteResume => exact execUnmuteResume_answers
  case lineSettle => exact execLineSettle_answers
  case dacBackgroundCal => exact execDacBackgroundCal_answers
  case referenceCalibration => exact execReferenceCalibration_answers
  case feedbackFrameLink => exact execFeedbackFrameLink_answers
  case reorderHoldExpiry => exact execReorderHoldExpiry_answers
  case peerDeadline => exact execPeerDeadline_answers
  case withdrawIgnoreEnd => exact execWithdrawIgnoreEnd_answers
  case exchLost => exact execExchLost_answers
  case stepApply => exact execStepApply_answers
  case freqMeasureDone => exact execFreqMeasureDone_answers
  case liveSwitch => exact execLiveSwitch_answers
  case dvfsTransitionDone => exact execDvfsTransitionDone_answers
  case railGood => exact execRailGood_answers
  case railLoss => exact execRailLoss_answers
  case firmwareVerified => exact execFirmwareVerified_answers
  case tinCalDone => exact execTinCalDone_answers
  case tinEdge => exact execTinEdge_answers
  case noStop => exact execNoStop_answers
  case rangeRelease => exact execRangeRelease_answers
  case powerUpRamp => exact execPowerUpRamp_answers
  case eventActivation => exact execEventActivation_answers
  case precopyDone => exact execPrecopyDone_answers
  case migrationSwitch => exact execMigrationSwitch_answers
  case handoverPause => exact execHandoverPause_answers
  case handoverReadyTimeout => exact execHandoverReadyTimeout_answers
  case trialTimeout => exact execTrialTimeout_answers
  case selftestDone => exact execSelftestDone_answers
  case spareMove => exact execSpareMove_answers
  case nonceExpiry => exact execNonceExpiry_answers
  case flashOperationDone => exact execFlashOperationDone_answers
  case regionZeroed => exact execRegionZeroed_answers
  case laneTestEnd => exact execLaneTestEnd_answers
  case firmwareStaged => exact execFirmwareStaged_answers
  case newFirmwareReady => exact execNewFirmwareReady_answers
  all_goals exact .next _

end Sys2Proof.Machine
end

section
/-! ## The opcodes that only read (R72) -/
namespace Sys2Proof.Machine

/-- The code is that of an opcode that changes nothing and answers OK with its data, whatever the state. -/
structure Reads (code : Nat) (sp : OpSpec) : Prop where
  spec : specOf code = some sp
  noSession : code ≠ 0x0003
  changes : sp.changes = false
  first : sp.first = false
  run : ∀ c s, ∃ data, sp.run c s = (s, .ok data)

/-- An opcode that only reads answers OK with the data of all its objects, and leaves the state as it is. -/
theorem Reads.runAll {code : Nat} {sp : OpSpec} (h : Reads code sp) (s : State) (cs : List Cmd) :
    ∃ data, sp.runAll s cs = (s, .ok data) := by
  induction cs with
  | nil => exact ⟨[], rfl⟩
  | cons c cs ih =>
    obtain ⟨here, hrun⟩ := h.run c s
    obtain ⟨rest, hall⟩ := ih
    cases cs with
    | nil => exact ⟨here, by simp only [OpSpec.runAll, hrun, Cmd.answer]⟩
    | cons d ds => exact ⟨here ++ rest, by simp only [OpSpec.runAll, hrun, Cmd.answer, hall, Res.merge]⟩

/-- An opcode that only reads claims nothing (R52). -/
theorem Reads.claim {code : Nat} {sp : OpSpec} (h : Reads code sp) (s : State) (cs : List Cmd) (src : Src) :
    s.claim { sp := sp, cmds := cs } src = s := by
  simp only [State.claim, Checked.keys, h.changes, Bool.false_eq_true, if_false, List.isEmpty_nil, Bool.or_true, if_true]

/-- The governor of the core islands writes the clock unit alone (R398). -/
theorem govern_eq_onClk (s : State) (lower : Nat → Bool) : ∃ clk, s.govern lower = s.onClk fun _ => clk := by
  unfold State.govern
  refine List.foldlRecOn (motive := fun t => ∃ clk, t = s.onClk fun _ => clk) _ _ ⟨s.clk, rfl⟩ fun a ha p _ => ?_
  obtain ⟨clk, rfl⟩ := ha
  have hite (b : Bool) (g : CoreIsl → CoreIsl) :
      ∃ clk', (if b then (s.onClk fun _ => clk).onCoreIsl p g else s.onClk fun _ => clk) = s.onClk fun _ => clk' := by
    cases b
    · exact ⟨clk, rfl⟩
    · exact ⟨_, rfl⟩
  exact hite _ _

/-- A packet of an opcode that only reads, once it has passed, changes what its reply changes and the core islands' operating points. -/
theorem Reads.performed {code : Nat} {sp : OpSpec} (h : Reads code sp) (r : Req) (cs : List Cmd) (t : State) :
    ∃ u clk, Beside t u ∧ performed code sp r cs t = u.onClk fun _ => clk := by
  obtain ⟨data, hall⟩ := h.runAll t cs
  obtain ⟨clk, hclk⟩ := govern_eq_onClk (t.reply (packetOf code r) Status.ok false data) fun _ => false
  refine ⟨_, clk, reply_beside t (packetOf code r) Status.ok false data, hclk ▸ ?_⟩
  simp only [Machine.performed, h.claim, h.first, hall, State.respond, Bool.false_eq_true, if_false, State.raisePoints]

/-- A passed packet's state is the one that has taken it, but for what its token has used up (R46). -/
theorem Passes.spendsOnly {code : Nat} {sp : OpSpec} {r : Req} {o : Obj} {cs : List Cmd} {s t : State} (h : Passes code sp r o cs s t) : SpendsOnly s t := by
  cases cs with
  | nil => exact absurd rfl h.cmds.2
  | cons c _ =>
    have htoken := tokenErr_spendsOnly sp c s
    rwa [h.token c rfl] at htoken

/-- `v` and `s` agree on device time and on every part of the state but the device, the links, the clock unit and the nonces. -/
structure ReadFrom (s v : State) : Prop where
  now : v.now = s.now
  svc : v.svc = s.svc
  keys : v.trust.keys = s.trust.keys
  counters : v.trust.counters = s.trust.counters
  ev : v.ev = s.ev
  syn : v.syn = s.syn
  ro : v.ro = s.ro
  fb : v.fb = s.fb
  plans : v.plans = s.plans
  rf : v.rf = s.rf
  cap : v.cap = s.cap
  bsc : v.bsc = s.bsc
  delayed : v.delayed = s.delayed

/-- What a packet that only reads does reaches the ports, the links, the nonces and the islands' operating points alone. -/
theorem Reads.receive {code : Nat} {sp : OpSpec} (h : Reads code sp) {r : Req} {o : Obj} {cs : List Cmd} {s t : State} (ha : Arrives code sp r s)
    (hp : Passes code sp r o cs (s.taken (packetOf code r)) t) : ∃ v, receive code r s = .next v ∧ ReadFrom s v := by
  obtain ⟨rings, streams, htaken⟩ := taken_eq s (p := packetOf code r) h.noSession
  obtain ⟨nonces, qbind, ht⟩ := hp.spendsOnly
  obtain ⟨u, clk, hu, hv⟩ := h.performed r cs t
  refine ⟨_, receive_passes h.spec ha hp, hv ▸ ?_⟩
  rw [htaken] at ht
  subst ht
  exact { now := hu.now, svc := hu.svc, keys := (congrArg Trust.keys hu.trust).trans rfl, counters := (congrArg Trust.counters hu.trust).trans rfl, ev := hu.ev, syn := hu.syn,
          ro := hu.ro, fb := hu.fb, plans := hu.plans, rf := hu.rf, cap := hu.cap, bsc := hu.bsc, delayed := hu.delayed }

/-- Settles O23: each opcode of the list only reads (`Reads`), so its effect is its reply, and the rest is what taking the packet and judging its token
change. -/
theorem readingOpcodesChangeNothing : Obligations.ReadingOpcodesChangeNothing := by
  unfold Obligations.ReadingOpcodesChangeNothing
  intro e he i r o cs s t hi ha hp
  suffices hreads : Reads e.1 e.2 by
    obtain ⟨v, hv, hf⟩ := hreads.receive ha hp
    exact ⟨v, (exec_packet hi s).trans hv, hf.now, hf.svc, hf.keys, hf.counters, hf.ev, hf.syn, hf.ro, hf.fb, hf.plans, hf.rf, hf.cap, hf.bsc, hf.delayed⟩
  clear hi ha hp
  revert e he
  iterate 64 refine List.forall_mem_cons.2 ⟨⟨rfl, by decide, rfl, rfl, fun _ _ => ⟨_, rfl⟩⟩, ?_⟩
  exact List.forall_mem_nil _

end Sys2Proof.Machine
end

section
/-! ## Every packet row is the reception of its packet (O4)

A stop for want of a reference that is due clears `stopAt` and may enter ENDPAPER. What is to show is that nothing of the entry into ENDPAPER sets it again:
one equation for each operation that the entry makes use of. -/
namespace Sys2Proof.Machine

/-! ### Conditions, folds and the operations of single units -/

@[simp] theorem stopAt_ite (c : Prop) [Decidable c] (a b : State) : (if c then a else b).clk.stopAt = if c then a.clk.stopAt else b.clk.stopAt :=
  apply_ite (fun s : State => s.clk.stopAt) c a b

/-- `t` has the stop of `s`. A fold over a large operation is stated with this name, at which the kernel stops to compare the operations and does not
evaluate them. -/
def KeepsStop (s t : State) : Prop := t.clk.stopAt = s.clk.stopAt

theorem KeepsStop.foldl {α : Type} {f : State → α → State} (h : ∀ a x, KeepsStop a (f a x)) (l : List α) (s : State) : KeepsStop s (l.foldl f s) :=
  List.foldlRecOn (motive := KeepsStop s) l f rfl fun a ha x _ => (h a x).trans ha

@[simp] theorem stopAt_foldl {α : Type} {f : State → α → State} (h : ∀ a x, (f a x).clk.stopAt = a.clk.stopAt) (l : List α) (s : State) :
    (l.foldl f s).clk.stopAt = s.clk.stopAt := KeepsStop.foldl h l s

theorem Beside.stopAt {s t : State} (h : Beside s t) : t.clk.stopAt = s.clk.stopAt := congrArg Clk.stopAt h.clk

variable (s : State)

@[simp] theorem State.raise_stopAt (v : Nat) : (s.raise v).clk.stopAt = s.clk.stopAt := (raise_beside s v).stopAt
@[simp] theorem State.sendFrame_stopAt (p cls dest src hops : Nat) (b : List Byte) : (s.sendFrame p cls dest src hops b).1.clk.stopAt = s.clk.stopAt :=
  (sendFrame_beside s p cls dest src hops b).stopAt
@[simp] theorem State.countPort_stopAt (p : Nat) (c : PCount) : (s.countPort p c).clk.stopAt = s.clk.stopAt := (countPort_beside s p c).stopAt
@[simp] theorem State.replyErr_stopAt (p : Pkt) (d : Bool) (e : Err) : (s.replyErr p d e).clk.stopAt = s.clk.stopAt := (replyErr_beside s p d e).stopAt
@[simp] theorem State.finish_stopAt (h : Held) (st : Nat) (b : List Byte) : (s.finish h st b).clk.stopAt = s.clk.stopAt := (finish_beside s h st b).stopAt
@[simp] theorem State.resolve_stopAt (w : Wait) (b : List Byte) : (s.resolve w b).clk.stopAt = s.clk.stopAt := (resolve_beside s w b).stopAt

theorem State.noting_stopAt {f : State → State} (h : (f s).clk.stopAt = s.clk.stopAt) : (s.noting f).clk.stopAt = s.clk.stopAt := by
  simp [State.noting, stopAt_ite, h]

@[simp] theorem State.setDevSt_stopAt (st : DevState) : (s.setDevSt st).clk.stopAt = s.clk.stopAt := s.noting_stopAt rfl

@[simp] theorem State.setCauses_stopAt (lines : List Nat) (bit : Nat) (host : Bool) : (s.setCauses lines bit host).clk.stopAt = s.clk.stopAt :=
  stopAt_foldl (fun _ _ => by rfl) lines s

@[simp] theorem State.clearCauses_stopAt (lines : List Nat) (bit : Nat) : (s.clearCauses lines bit).clk.stopAt = s.clk.stopAt :=
  stopAt_foldl (fun _ _ => by rfl) lines s

@[simp] theorem State.noncoh_stopAt : s.noncoh.clk.stopAt = s.clk.stopAt := by
  simp [State.noncoh]

@[simp] theorem State.fire_stopAt (ch prod hops : Nat) : (s.fire ch prod hops).clk.stopAt = s.clk.stopAt := by
  simp [State.fire]

@[simp] theorem State.fireHops_stopAt (ch obj hops : Nat) : (s.fireHops ch obj hops).clk.stopAt = s.clk.stopAt := by
  simp [State.fireHops]

@[simp] theorem State.fireObj_stopAt (ch obj : Nat) : (s.fireObj ch obj).clk.stopAt = s.clk.stopAt := s.fireHops_stopAt ch obj 0

@[simp] theorem State.memPut_stopAt (h off : Nat) (b : Byte) : (s.memPut h off b).clk.stopAt = s.clk.stopAt := by
  unfold State.memPut
  split
  · rfl
  · simp

@[simp] theorem State.memWrite_stopAt (h off : Nat) (bs : List Byte) : (s.memWrite h off bs).clk.stopAt = s.clk.stopAt := by
  induction bs generalizing s off with
  | nil => rfl
  | cons b bs ih => rw [State.memWrite, ih, State.memPut_stopAt]

/-! ### DMA channels and the read-out's records -/

@[simp] theorem State.dmaPass_stopAt (n : Nat) : (s.dmaPass n).clk.stopAt = s.clk.stopAt := (dmaPass_beside s n).stopAt
@[simp] theorem State.dmaFail_stopAt (n code : Nat) : (s.dmaFail n code).clk.stopAt = s.clk.stopAt := (dmaFail_beside s n code).stopAt

@[simp] theorem State.dmaPush_stopAt (n k : Nat) (bs : List Byte) : (s.dmaPush n k bs).clk.stopAt = s.clk.stopAt := by
  induction k generalizing s bs with
  | zero => rfl
  | succ k ih =>
    cases bs with
    | nil => rfl
    | cons b bs => simp [State.dmaPush, stopAt_ite, ih]

@[simp] theorem State.roPush_stopAt (q k : Nat) : (s.roPush q k).clk.stopAt = s.clk.stopAt := by
  unfold State.roPush
  split
  · rfl
  · simp

@[simp] theorem State.dmaOff_stopAt : s.dmaOff.clk.stopAt = s.clk.stopAt := by
  simp [State.dmaOff]

/-! ### Capture units -/

@[simp] theorem State.freshSamples_stopAt (n : Nat) : (s.freshSamples n).2.clk.stopAt = s.clk.stopAt := rfl
@[simp] theorem State.fresh_stopAt : s.fresh.2.clk.stopAt = s.clk.stopAt := rfl
@[simp] theorem State.evFieldsApply_stopAt (port obj : Nat) (fs : List EvField) : (s.evFieldsApply port obj fs).clk.stopAt = s.clk.stopAt := rfl

@[simp] theorem State.capRearm_stopAt (n : Nat) : (s.capRearm n).clk.stopAt = s.clk.stopAt := by
  unfold State.capRearm
  split <;> rfl

@[simp] theorem State.capStop_stopAt (n cause : Nat) : (s.capStop n cause).clk.stopAt = s.clk.stopAt := by
  simp [State.capStop]

@[simp] theorem State.capEnd_stopAt (n flags : Nat) (stop : Option Nat) : (s.capEnd n flags stop).clk.stopAt = s.clk.stopAt := by
  unfold State.capEnd
  extract_lets u
  split
  · extract_lets xs vs vio count src t nc fl hdr data s1 wrap s2 s3
    have h1 : s1.clk.stopAt = s.clk.stopAt := by simp [s1]
    have h2 : s2.clk.stopAt = s1.clk.stopAt := by simp [s2]
    have h3 : s3.clk.stopAt = s2.clk.stopAt := by simp [s3]
    have h4 (b : Bool) : (if b then (0, s3) else s3.fresh).2.clk.stopAt = s.clk.stopAt := by
      cases b <;> exact h3.trans (h2.trans h1)
    split
    next v s4 h =>
    have h4 := h4 vio.isEmpty
    rw [h] at h4
    split
    · exact (s4.capStop_stopAt n _).trans h4
    · simpa [stopAt_ite] using h4
  · rfl

@[simp] theorem State.capSample_stopAt (n : Nat) (win : Bool) (x : RoSample) : (s.capSample n win x).clk.stopAt = s.clk.stopAt := by
  unfold State.capSample
  extract_lets u0
  split
  · rfl
  · split
    · rfl
    · next c _ =>
      extract_lets x time s0 u1 tr d forced evt ev fires u2 u' u3 s1
      have h0 : s0.clk.stopAt = s.clk.stopAt := by simp [s0]
      have h1 : s1.clk.stopAt = s.clk.stopAt := h0
      split
      · simpa [stopAt_ite] using h1
      · exact h1

@[simp] theorem State.capWindow_stopAt (n : Nat) (first : Bool) (xs : List RoSample) : (State.capWindow n first xs s).clk.stopAt = s.clk.stopAt := by
  induction xs generalizing s first with
  | nil => rfl
  | cons x xs ih => rw [State.capWindow, ih, State.capSample_stopAt]

@[simp] theorem State.capWin_stopAt (n start flags : Nat) (stop : Option Nat) (xs : List RoSample) :
    (s.capWin n start flags stop xs).clk.stopAt = s.clk.stopAt := by
  simp [State.capWin]

@[simp] theorem State.capPass_stopAt (n : Nat) : (s.capPass n).clk.stopAt = s.clk.stopAt := by
  unfold State.capPass
  dsimp only
  split
  · rfl
  · simp

@[simp] theorem State.capCutOne_stopAt (n flags : Nat) (stop : Option Nat) : (s.capCutOne n flags stop).clk.stopAt = s.clk.stopAt := by
  unfold State.capCutOne
  dsimp only
  split
  · rfl
  · split
    · split
      · simp
      · rfl
    · split
      · split <;> simp
      · rfl

@[simp] theorem State.capStopAll_stopAt (units : List Nat) (cause : Nat) : (s.capStopAll units cause).clk.stopAt = s.clk.stopAt := by
  simp [State.capStopAll]

@[simp] theorem State.captureWindow_stopAt (q f rset start flags : Nat) (xs : List RoSample) :
    (s.captureWindow q f rset start flags xs).clk.stopAt = s.clk.stopAt := by
  simp [State.captureWindow]

/-! ### A Quire leaves CONTROL, and every Quire goes OFF -/

@[simp] theorem State.coreResult_stopAt (q k f cycle : Nat) (w : BitVec 64) : (s.coreResult q k f cycle w).clk.stopAt = s.clk.stopAt := by
  unfold State.coreResult
  extract_lets c
  split
  · rfl
  · split
    · exact State.fireObj_stopAt _ _ _
    · rfl

@[simp] theorem State.roRecord_stopAt (q cycle word wstart : Nat) (ai aq : Int) : (s.roRecord q cycle word wstart ai aq).clk.stopAt = s.clk.stopAt := by
  unfold State.roRecord
  extract_lets r
  split <;> rfl

@[simp] theorem State.deliverResult_stopAt (q f t : Nat) (w : Win) (word : Nat) (ai aq : Int) :
    (s.deliverResult q f t w word ai aq).clk.stopAt = s.clk.stopAt := by
  unfold State.deliverResult
  extract_lets bw s1 s2 s3 s4 s5 st
  have h2 : s2.clk.stopAt = s.clk.stopAt := by simp [s2, s1]
  have h5 : s5.clk.stopAt = s.clk.stopAt := by simp [s5, s4, s3, h2]
  simp [h5]

@[simp] theorem State.cancelWin_stopAt (q f flags : Nat) (w : Win) : (s.cancelWin q f flags w).clk.stopAt = s.clk.stopAt :=
  (State.captureWindow_stopAt _ _ _ _ _ _ _).trans (State.deliverResult_stopAt _ _ _ _ _ _ _ _)

theorem State.cancelWin_keepsStop (q f flags : Nat) (w : Win) : KeepsStop s (s.cancelWin q f flags w) := s.cancelWin_stopAt q f flags w

@[simp] theorem State.cancelWindows_stopAt (q flags : Nat) : (s.cancelWindows q flags).clk.stopAt = s.clk.stopAt := by
  unfold State.cancelWindows
  refine stopAt_foldl (fun a f => ?_) _ s
  extract_lets d n gone a1
  have h1 : a1.clk.stopAt = a.clk.stopAt := congrArg Clk.stopAt (State.onDemod_clk ..)
  exact (KeepsStop.foldl (fun b w => b.cancelWin_keepsStop q f flags w) gone a1).trans h1

@[simp] theorem State.haltNow_stopAt (q f cause : Nat) : (s.haltNow q f cause).clk.stopAt = s.clk.stopAt := by
  simp [State.haltNow]

@[simp] theorem State.leaveControl_stopAt (q cause : Nat) : (s.leaveControl q cause).clk.stopAt = s.clk.stopAt := by
  simp [State.leaveControl, State.haltCores]

@[simp] theorem State.quiresOff_stopAt : s.quiresOff.clk.stopAt = s.clk.stopAt := by
  unfold State.quiresOff
  extract_lets s1 s2
  have h1 : s1.clk.stopAt = s.foliosOff.clk.stopAt := by simp [s1]
  have h2 : s2.clk.stopAt = s1.clk.stopAt := by
    unfold s2
    exact stopAt_foldl (fun _ _ => by rfl) _ _
  have h0 : s.foliosOff.clk.stopAt = s.clk.stopAt := rfl
  simp [h2, h1, h0]

/-! ### The reference, Thread and the lanes -/

@[simp] theorem State.refEvent_stopAt : s.refEvent.clk.stopAt = s.clk.stopAt := by
  simp [State.refEvent]

@[simp] theorem Clk.setCoherent_stopAt (c : Clk) (coh : Bool) (t : Nat) : (c.setCoherent coh t).stopAt = c.stopAt := by
  unfold Clk.setCoherent
  split <;> rfl

@[simp] theorem State.recohere_stopAt : s.recohere.clk.stopAt = s.clk.stopAt := by
  unfold State.recohere
  extract_lets coh
  split
  · rfl
  · rw [State.refEvent_stopAt, State.noncoh_stopAt]
    exact s.noting_stopAt (Clk.setCoherent_stopAt _ _ _)

@[simp] theorem State.reselect_stopAt : s.reselect.clk.stopAt = s.clk.stopAt := by
  simp [State.reselect]

@[simp] theorem State.setRole_stopAt (r : TRole) : (s.setRole r).clk.stopAt = s.clk.stopAt := by
  simp [State.setRole]

@[simp] theorem State.clearSet_stopAt (p : Nat) : (s.clearSet p).clk.stopAt = s.clk.stopAt := rfl
@[simp] theorem State.emitLine_stopAt (n k : Nat) (cs : List Chr) : (s.emitLine n k cs).clk.stopAt = s.clk.stopAt := rfl
@[simp] theorem State.onTx_stopAt (n : Nat) (g : LaneSt → LaneSt) : (s.onTx n g).clk.stopAt = s.clk.stopAt := rfl

theorem State.sendPre_stopAt {p cls dest src hops : Nat} {b : List Byte} {x : State × Nat × Nat} (h : s.sendPre p cls dest src hops b = some x) :
    x.1.clk.stopAt = s.clk.stopAt := by
  unfold State.sendPre at h
  dsimp only at h
  split at h
  · cases h
  · split at h
    · cases h
    · cases h
      simp

@[simp] theorem State.sendTime_stopAt (p : Nat) (b : List Byte) : (s.sendTime p b).1.clk.stopAt = s.clk.stopAt := by
  unfold State.sendTime
  split
  · rfl
  · next h =>
    split <;> exact s.sendPre_stopAt h

@[simp] theorem State.announce_stopAt (p : Nat) : (s.announce p).clk.stopAt = s.clk.stopAt := by
  unfold State.announce
  split
  · rfl
  · split
    · rfl
    · simp

@[simp] theorem State.announceAll_stopAt : s.announceAll.clk.stopAt = s.clk.stopAt := by
  simp [State.announceAll]

@[simp] theorem State.timeSelect_stopAt : s.timeSelect.clk.stopAt = s.clk.stopAt := by
  unfold State.timeSelect
  extract_lets t gone s1 a s2
  split
  · rfl
  · split
    · simp
    · have h1 : s1.clk.stopAt = s.clk.stopAt := by simp [s1]
      have h2 : s2.clk.stopAt = s1.clk.stopAt := by
        unfold s2
        split <;> simp [a]
      simp [h2, h1]

@[simp] theorem State.timingMoved_stopAt (old : State) (p : Nat) : (s.timingMoved old p).clk.stopAt = s.clk.stopAt := by
  unfold State.timingMoved
  split
  · simp
  · rfl

@[simp] theorem State.openSession_stopAt (p : Nat) : (s.openSession p).clk.stopAt = s.clk.stopAt := by
  simp [State.openSession]

@[simp] theorem State.corrPathLost_stopAt (i : Nat) : (s.corrPathLost i).clk.stopAt = s.clk.stopAt := by
  unfold State.corrPathLost
  split
  · simp
  · rfl

@[simp] theorem State.beamsFit_stopAt : s.beamsFit.clk.stopAt = s.clk.stopAt := by
  unfold State.beamsFit
  split
  · rfl
  · refine stopAt_foldl (fun z y => stopAt_foldl (fun a i => ?_) _ z) _ s
    split <;> simp

@[simp] theorem State.laneLeaves_stopAt (p n : Nat) : (s.laneLeaves p n).clk.stopAt = s.clk.stopAt := by
  unfold State.laneLeaves
  dsimp only
  split <;> rfl

@[simp] theorem State.laneJoins_stopAt (p n : Nat) : (s.laneJoins p n).clk.stopAt = s.clk.stopAt := by
  unfold State.laneJoins
  exact (stopAt_foldl (fun _ _ => by rfl) _ _).trans rfl

@[simp] theorem State.relane_stopAt (p : Nat) : (s.relane p).clk.stopAt = s.clk.stopAt := by
  unfold State.relane
  extract_lets ls s1 s2 s3 s4 s5 s6
  have h3 : s3.clk.stopAt = s.clk.stopAt := by simp [s3, s2, s1]
  have h6 : s6.clk.stopAt = s3.clk.stopAt := by simp [s6, s5, s4]
  simp [h6, h3]

@[simp] theorem State.laneDone_stopAt (n : Nat) : (s.laneDone n).clk.stopAt = s.clk.stopAt := by
  simp [State.laneDone]

@[simp] theorem State.laneTo_stopAt (n : Nat) (st : LState) : (s.laneTo n st).clk.stopAt = s.clk.stopAt := rfl
@[simp] theorem State.train_stopAt (n : Nat) : (s.train n).clk.stopAt = s.clk.stopAt := rfl

@[simp] theorem State.laneDisable_stopAt (n : Nat) : (s.laneDisable n).clk.stopAt = s.clk.stopAt := by
  simp [State.laneDisable]

@[simp] theorem State.timeStop_stopAt : s.timeStop.clk.stopAt = s.clk.stopAt := by
  unfold State.timeStop
  extract_lets had s1 s2
  have h1 : s1.clk.stopAt = s.clk.stopAt := by simp [s1]
  simp [s2, h1]

/-! ### The commands in flight end -/

@[simp] theorem State.rollback_stopAt (w : Wait) : (s.rollback w).clk.stopAt = s.clk.stopAt := by
  cases hk : w.kind
  case migrate | retire =>
    simp only [State.rollback, hk]
    split <;> simp
  all_goals simp [State.rollback, hk]

@[simp] theorem State.withdraw_stopAt (h : Held) (e : Err) : (s.withdraw h e).clk.stopAt = s.clk.stopAt := by
  simp [State.withdraw]

@[simp] theorem State.endTimed_stopAt (t : Timed) (hit : Pkt → Bool) (e : Err) : (s.endTimed t hit e).clk.stopAt = s.clk.stopAt := by
  simp [State.endTimed]

@[simp] theorem State.endNonEp_stopAt : s.endNonEp.clk.stopAt = s.clk.stopAt := by
  simp [State.endNonEp]

/-! ### ENDPAPER -/

@[simp] theorem State.onCoreIsl_stopAt (p : Nat) (g : CoreIsl → CoreIsl) : (s.onCoreIsl p g).clk.stopAt = s.clk.stopAt := rfl

@[simp] theorem State.raisePoints_stopAt : s.raisePoints.clk.stopAt = s.clk.stopAt := by
  simp [State.raisePoints, State.govern]

@[simp] theorem State.plansOff_stopAt : s.plansOff.clk.stopAt = s.clk.stopAt := rfl

@[simp] theorem State.toEndpaper_stopAt (kind detail reason : Nat) : (s.toEndpaper kind detail reason).clk.stopAt = s.clk.stopAt := by
  unfold State.toEndpaper
  extract_lets c noted s1 s2 s3 s4 s5 s6 s7
  split
  · rfl
  · split
    · split <;> rfl
    · have h2 : s2.clk.stopAt = s.clk.stopAt := by simp [s2, s1, noted]
      have h5 : s5.clk.stopAt = s2.clk.stopAt := by simp [s5, s4, s3]
      have h7 : s7.clk.stopAt = s5.clk.stopAt := by simp [s7, s6]
      simp [h7, h5, h2]

@[simp] theorem State.refStop_stopAt : s.refStop.clk.stopAt = s.clk.stopAt := by
  simp [State.refStop]

/-! ### The reception -/

/-- Once a stop that was due has come about, none is due. -/
theorem stopDue_cleared : ((s.onClk fun c => { c with stopAt := none }).refStop).stopDue = (s.onClk fun c => { c with stopAt := none }).refStop :=
  stopDue_none fun t ht => by simp at ht

/-- A stop that is due comes before the packet is taken up (R408). -/
theorem takeUp_stopDue {t : Nat} (p : Pkt) (hs : s.clk.stopAt = some t) (ht : t ≤ s.now) :
    s.takeUp p = ((s.onClk fun c => { c with stopAt := none }).refStop).takeUp p := by
  have hdue : s.stopDue = (s.onClk fun c => { c with stopAt := none }).refStop := by simp only [State.stopDue, hs, if_pos ht]
  simp only [State.takeUp, stopDue_cleared, hdue]

/-- The reception of a packet is a next state: the packet taken up, or the state as it was where its transport does not reach the device. -/
theorem receive_next (code : Nat) (r : Req) :
    receive code r s = .next (if s.reaches r.src then (s.reserve r.src false).takeUp (packetOf code r) else s) := by
  simp only [receive, State.receive]
  split <;> rfl

end Sys2Proof.Machine
end

section
namespace Sys2Proof.Machine

/-- Settles O4: a row is the reception of its packet, and nothing of the entry into ENDPAPER sets the stop again that has come about. -/
theorem packetRowsAreReceived : Obligations.PacketRowsAreReceived :=
  ⟨fun _ code r s hi => (exec_packet hi s).trans (receive_next s code r), fun s p _ hs ht => takeUp_stopDue s p hs ht⟩

end Sys2Proof.Machine
end

section
/-! ## Step words: encoding and decoding (R90 to R94)

The fields of a step word are disjoint bit fields: each is read back from the sum that spells them. -/
namespace Sys2Proof.Machine

theorem ofBool_lt (b : Bool) : ofBool b < 2 := by cases b <;> decide

/-- A bit is the truth value that the field of width 1 at its place spells. -/
theorem bitOf_of_digit {n i : Nat} {b : Bool} (h : n / 2 ^ i % 2 = ofBool b) : bitOf n i = b := by
  cases b <;> simp_all [bitOf, ofBool]

theorem GenWord.ok_iff {g : GenWord} : g.ok = true ↔ g.ctx < 8 ∧ g.rate < 8 ∧ g.env < 524288 ∧ g.amp < 262144 := by
  simp [GenWord.ok, and_assoc]

theorem durOk_iff {d : Nat} : durOk d = true ↔ 1 ≤ d ∧ d < 2 ^ 24 := by simp [durOk]

theorem genA_eq_iff {n : Nat} {g : GenWord} :
    genA n = g ↔ bits n 34 3 = g.ctx ∧ bits n 37 3 = g.rate ∧ bits n 40 19 = g.env ∧ bits n 59 18 = g.amp := by
  cases g; simp [genA]

theorem genB_eq_iff {n : Nat} {g : GenWord} :
    genB n = g ↔ bits n 77 3 = g.ctx ∧ bits n 80 3 = g.rate ∧ bits n 83 19 = g.env ∧ bits n 102 18 = g.amp := by
  cases g; simp [genB]

/-! ### Conditions (R93) -/

/-- A condition is read from bits 4 and 5 and from the bits from 20 on. -/
theorem condOf_congr {n m : Nat} (hsrc : bits n 4 2 = bits m 4 2) (hhigh : n / 2 ^ 20 = m / 2 ^ 20) : condOf n = condOf m := by
  have hfield (lo k : Nat) : bits n (20 + lo) k = bits m (20 + lo) k := by
    simp only [bits, Nat.pow_add 2 20 lo, ← Nat.div_div_eq_div_mul, hhigh]
  simp only [condOf, hsrc, hfield 0, hfield 3, hfield 5, hfield 7, hfield 12]

/-- A condition in range is read back from its bits, and leaves bits 0 to 3 and 6 to 19 to the other fields of a BRANCH. -/
theorem condOf_enc {c : Cond} (h : c.ok = true) : condOf c.enc = c ∧ c.enc % 2 ^ 4 = 0 ∧ c.enc / 2 ^ 6 % 2 ^ 14 = 0 ∧ c.enc < 2 ^ 64 := by
  cases c with
  | event ch =>
    simp only [Cond.ok, decide_eq_true_eq] at h
    have hsrc : bits (Cond.event ch).enc 4 2 = 0 := by simp only [bits, Cond.enc]; omega
    simp only [condOf, hsrc, Cond.event.injEq]
    simp only [bits, Cond.enc]
    omega
  | result f fl v =>
    simp only [Cond.ok, Bool.and_eq_true, decide_eq_true_eq] at h
    have hsrc : bits (Cond.result f fl v).enc 4 2 = 1 := by simp only [bits, Cond.enc]; omega
    simp only [condOf, hsrc, Cond.result.injEq]
    simp only [bits, Cond.enc]
    omega
  | flag k =>
    simp only [Cond.ok, decide_eq_true_eq] at h
    have hsrc : bits (Cond.flag k).enc 4 2 = 2 := by simp only [bits, Cond.enc]; omega
    simp only [condOf, hsrc, Cond.flag.injEq]
    simp only [bits, Cond.enc]
    omega
  | reg r cmp i =>
    simp only [Cond.ok, Bool.and_eq_true, decide_eq_true_eq] at h
    have hsrc : bits (Cond.reg r cmp i).enc 4 2 = 3 := by simp only [bits, Cond.enc]; omega
    simp only [condOf, hsrc, Cond.reg.injEq]
    simp only [bits, Cond.enc]
    omega

/-! ### The words -/

/-- The fields of a word in range are read back from its 128 bits. -/
theorem stepFields_enc {w : StepWord} {n : Nat} (hn : w.enc = n) (hw : w.ok = true) : n < 2 ^ 128 ∧ stepFields n = some w := by
  cases w <;>
    simp only [StepWord.ok, Bool.and_eq_true, decide_eq_true_eq, GenWord.ok_iff, durOk_iff] at hw <;>
    simp only [StepWord.enc, GenWord.encA, GenWord.encB] at hn
  case halt => subst hn; decide
  case repeatEnd => subst hn; decide
  case play d fi a b m =>
    have hm := ofBool_lt m
    have hop : n % 16 = 1 := by omega
    simp only [stepFields, hop, Option.some.injEq, StepWord.play.injEq, genA_eq_iff, genB_eq_iff, bits]
    exact ⟨by omega, by omega, by omega, by omega, by omega, bitOf_of_digit (by omega)⟩
  case hold d ha hb m =>
    have hA := ofBool_lt ha
    have hB := ofBool_lt hb
    have hm := ofBool_lt m
    have hop : n % 16 = 2 := by omega
    simp only [stepFields, hop, Option.some.injEq, StepWord.hold.injEq, bits]
    exact ⟨by omega, by omega, bitOf_of_digit (by omega), bitOf_of_digit (by omega), bitOf_of_digit (by omega)⟩
  case acquire d fi a rs wo hb m =>
    have hB := ofBool_lt hb
    have hm := ofBool_lt m
    have hop : n % 16 = 3 := by omega
    simp only [stepFields, hop, Option.some.injEq, StepWord.acquire.injEq, genA_eq_iff, bits]
    exact ⟨by omega, by omega, by omega, by omega, by omega, by omega, bitOf_of_digit (by omega), bitOf_of_digit (by omega)⟩
  case waitUntil k b p =>
    have hb := ofBool_lt b
    have hop : n % 16 = 4 := by omega
    simp only [stepFields, hop, Option.some.injEq, StepWord.waitUntil.injEq, bits]
    exact ⟨by omega, by omega, bitOf_of_digit (by omega), by omega⟩
  case waitEvent d c h =>
    have hh := ofBool_lt h
    have hop : n % 16 = 5 := by omega
    simp only [stepFields, hop, Option.some.injEq, StepWord.waitEvent.injEq, bits]
    exact ⟨by omega, by omega, by omega, bitOf_of_digit (by omega)⟩
  case branch c neg r t =>
    obtain ⟨⟨hc, ht⟩, -⟩ := hw
    obtain ⟨hread, hlow, hmid, hlt⟩ := condOf_enc hc
    have hneg := ofBool_lt neg
    have hr := ofBool_lt r
    have hop : n % 16 = 6 := by omega
    have hcond : condOf n = c := (condOf_congr (by simp only [bits]; omega) (by omega)).trans hread
    simp only [stepFields, hop, Option.some.injEq, StepWord.branch.injEq, bits]
    exact ⟨by omega, hcond, bitOf_of_digit (by omega), bitOf_of_digit (by omega), by omega⟩
  case jump r t =>
    have hr := ofBool_lt r
    have hop : n % 16 = 7 := by omega
    simp only [stepFields, hop, Option.some.injEq, StepWord.jump.injEq, bits]
    exact ⟨by omega, bitOf_of_digit (by omega), by omega⟩
  case repeatBegin c b r =>
    have hb := ofBool_lt b
    have hop : n % 16 = 8 := by omega
    simp only [stepFields, hop, Option.some.injEq, StepWord.repeatBegin.injEq, bits]
    exact ⟨by omega, by omega, bitOf_of_digit (by omega), by omega⟩
  case setFrame c e p =>
    have he := ofBool_lt e
    have hop : n % 16 = 10 := by omega
    simp only [stepFields, hop, Option.some.injEq, StepWord.setFrame.injEq, bits]
    exact ⟨by omega, by omega, bitOf_of_digit (by omega), by omega⟩
  case shiftPhase c b r d =>
    have hb := ofBool_lt b
    have hop : n % 16 = 11 := by omega
    simp only [stepFields, hop, Option.some.injEq, StepWord.shiftPhase.injEq, bits]
    exact ⟨by omega, by omega, bitOf_of_digit (by omega), by omega, by omega⟩
  case emitEvent c =>
    have hop : n % 16 = 12 := by omega
    simp only [stepFields, hop, Option.some.injEq, StepWord.emitEvent.injEq, bits]
    exact ⟨by omega, by omega⟩

/-- What is read of a word is in range and spells the word (R91). -/
theorem decodeStep_eq_some {n : Nat} {w : StepWord} : decodeStep n = some w ↔ stepFields n = some w ∧ w.ok = true ∧ w.enc = n := by
  unfold decodeStep
  split
  · next h => simp [h]
  · next x h =>
    simp only [h, Option.ite_none_right_eq_some, Bool.and_eq_true, beq_iff_eq, Option.some.injEq]
    constructor
    · rintro ⟨hw, rfl⟩
      exact ⟨rfl, hw⟩
    · rintro ⟨rfl, hw⟩
      exact ⟨hw, rfl⟩

theorem decodeStep_enc {w : StepWord} (hw : w.ok = true) : decodeStep w.enc = some w :=
  decodeStep_eq_some.mpr ⟨(stepFields_enc rfl hw).2, hw, rfl⟩

/-- Settles O48: a word is read only as the step word whose encoding it is, and each encoding is read. -/
theorem stepWordsDecodeTheirEncoding : Obligations.StepWordsDecodeTheirEncoding := by
  refine ⟨fun w hw => ⟨(stepFields_enc rfl hw).1, decodeStep_enc hw⟩, fun n w => ⟨fun h => (decodeStep_eq_some.mp h).2, ?_⟩⟩
  rintro ⟨hw, rfl⟩
  exact decodeStep_enc hw

end Sys2Proof.Machine
end

section
/-! ## Repeat levels (R103) -/
namespace Sys2Proof.Machine

@[simp] theorem Folio.toHalt_pendHalt {x : Folio} (c : Nat) (h : x.pendHalt = none) : (x.toHalt c).pendHalt = some c := by
  simp [Folio.toHalt, h]

@[simp] theorem Folio.advance_reps (x : Folio) : x.advance.reps = x.reps := by
  unfold Folio.advance
  dsimp only
  split
  · rfl
  · split <;> rfl

/-- In the library, below the ring region, the sequencer goes on at the next word. -/
theorem Folio.advance_library {x : Folio} (hlib : x.inRing = false) (hpc : x.pc + 1 < x.ring.base) : x.advance = { x with pc := x.pc + 1 } := by
  simp [Folio.advance, hlib, Nat.not_le.mpr hpc]

theorem Folio.repBegin_full {x : Folio} (n r t : Nat) (b : Bool) (h : 3 ≤ x.reps.length) : x.repBegin n b r t = x.toHalt 8 := if_pos h

theorem Folio.repEnd_none {x : Folio} (h : x.reps = []) : x.repEnd = x.toHalt 8 := by simp only [Folio.repEnd, h]

/-- The Folio inside a library level of `n + 1` iterations whose body begins at the next word, in its iteration `j`. -/
def Folio.inLevel (x : Folio) (n j : Nat) : Folio :=
  { x with pc := x.pc + 1, reps := { body := x.pc + 1, inRing := false, pos := x.rr.next, iters := n + 1, index := j } :: x.reps }

/-- In the library, below the ring region, a REPEAT_BEGIN begins the first iteration of a new level. -/
theorem Folio.repBegin_library {x : Folio} (n t : Nat) (hlib : x.inRing = false) (hpc : x.pc + 1 < x.ring.base) (hroom : x.reps.length < 3) :
    x.repBegin n false 0 t = x.inLevel n 0 := by
  simp [Folio.repBegin, Folio.inLevel, Nat.not_le.mpr hroom, Folio.advance_library hlib hpc, hlib]

/-- With an iteration left, a REPEAT_END of the library goes back to the body with the next index. -/
theorem Folio.repEnd_inLevel {x : Folio} {n j : Nat} (hlib : x.inRing = false) (hmore : j < n) : (x.inLevel n j).repEnd = x.inLevel n (j + 1) := by
  simp [Folio.repEnd, Folio.inLevel, hlib, hmore]

/-- The REPEAT_END of the last iteration closes the level. -/
theorem Folio.repEnd_inLevel_last (x : Folio) (n : Nat) : (x.inLevel n n).repEnd.reps = x.reps := by
  simp [Folio.repEnd, Folio.inLevel]

/-- `j` REPEAT_ENDs after its REPEAT_BEGIN the level is in its iteration `j`. -/
theorem Folio.repEnds_inLevel {x : Folio} {n t : Nat} (hlib : x.inRing = false) (hpc : x.pc + 1 < x.ring.base) (hroom : x.reps.length < 3) (j : Nat)
    (hj : j ≤ n) : (Nat.rec (x.repBegin n false 0 t) (fun _ y => y.repEnd) j : Folio) = x.inLevel n j := by
  induction j with
  | zero => exact Folio.repBegin_library n t hlib hpc hroom
  | succ j ih => exact (congrArg Folio.repEnd (ih (Nat.le_of_succ_le hj))).trans (Folio.repEnd_inLevel hlib hj)

/-- Settles O55: the level runs its COUNT + 1 iterations, and closes. -/
theorem repeatLevelsRunCountPlusOneTimes : Obligations.RepeatLevelsRunCountPlusOneTimes := by
  refine ⟨fun x n t hlib hpc hroom => ⟨fun j hj => ?level, ?closes⟩, fun x n r t b hfull hgoes => ?fourth, fun x hnone hgoes => ?missing⟩
  case level =>
    rw [Folio.repEnds_inLevel hlib hpc hroom j hj]
    exact ⟨_, rfl, rfl, rfl, rfl, rfl⟩
  case closes =>
    have hlast := Folio.repEnds_inLevel (t := t) hlib hpc hroom n (Nat.le_refl n)
    exact (congrArg (fun y : Folio => y.repEnd.reps) hlast).trans (x.repEnd_inLevel_last n)
  case fourth => rw [Folio.repBegin_full n r t b hfull, Folio.toHalt_pendHalt 8 hgoes]
  case missing => rw [Folio.repEnd_none hnone, Folio.toHalt_pendHalt 8 hgoes]

end Sys2Proof.Machine
end

section
/-! ## CTX_PHASE_SHIFT (R114, R118) -/
namespace Sys2Proof.Machine

/-- An effect on a Folio that is not busy, or TIMED, comes about at once (R114). -/
theorem State.atTick_now {s : State} {c : Cmd} {q f : Nat} (e : Effect) (h : (s.folio q f).busy = false ∨ c.timed = true) :
    s.atTick c q f e = s.apply e := by
  rcases h with h | h <;> simp [State.atTick, h]

/-- An effect on a busy Folio waits for the next coarse tick (R114). -/
theorem State.atTick_busy {s : State} {c : Cmd} {q f : Nat} (e : Effect) (hbusy : (s.folio q f).busy = true) (htimed : c.timed = false) :
    s.atTick c q f e = s.delay (tickAfter s.now) e := by
  simp [State.atTick, hbusy, htimed]

/-- Settles O56: the command is its effect, at the instant that R114 gives. -/
theorem phaseShiftsAddModulo : Obligations.PhaseShiftsAddModulo := by
  refine ⟨rfl, rfl, rfl, fun _ _ => ⟨rfl, rfl⟩, fun c s => ⟨fun hnow => ?now, fun hbusy htimed => ?busy⟩, fun _ _ _ _ _ => rfl⟩
  case now => exact congrArg (·, Res.ok []) (State.atTick_now _ hnow)
  case busy => exact congrArg (·, Res.ok []) (State.atTick_busy _ hbusy htimed)

end Sys2Proof.Machine
end

section
/-! ## The rows of the step words (R90 to R111) -/
namespace Sys2Proof.Machine

section
variable {s : State} {q f : Nat}

/-- A row whose word is the next one of a running Folio leads to what its word makes of the state. -/
theorem seqRow_run {x : StepWord} {k : StepWord → Option WordAct} {a : WordAct} {t : State} (h : Runs s q f x) (hk : k x = some a)
    (ht : a.run s = t) : s.seqRow q f k = s.wordDone q f x t :=
  ht ▸ seqRow_runs h hk

/-- A row whose word is the next one of a LATE Folio that is behind leads to what passing it over makes of the state. -/
theorem seqRow_late {x : StepWord} {k : StepWord → Option WordAct} {a : WordAct} {t : State} (h : Behind s q f x) (hk : k x = some a)
    (ht : a.late s (s.lateReach (s.folio q f)) = t) : s.seqRow q f k = s.wordDone q f x t :=
  ht ▸ seqRow_behind h hk

/-- A WAIT_UNTIL on its time whose start has not passed begins its wait (R99). -/
theorem beginUntil_onTime {w p n : Nat} {b : Bool} (ht : OnTime s q f)
    (hend : waitEnd w (tget 0 (s.folio q f).params p) (s.folio q f).go (s.folio q f).boundary = some n) (hn : (s.folio q f).boundary ≤ n) :
    s.beginUntil q f w b p = s.still (s.reach q f) q f fun t => (t.silence q f).onFolio q f fun x =>
      { x with st := .waiting, wait := some (.until n b), free := (s.folio q f).taken + 2 }.drainTrig := by
  obtain ⟨-, hlate, htime⟩ := ht
  simp [State.beginUntil, hlate, Nat.not_lt.mpr htime, hend, Nat.not_lt.mpr hn]

/-- A WAIT_EVENT on its time whose event has not come begins its wait (R100). -/
theorem beginEvent_onTime {d c : Nat} {h : Bool} (ht : OnTime s q f)
    (hnone : (s.folio q f).arrival c (s.folio q f).boundary ((s.folio q f).boundary + d) = none) :
    s.beginEvent q f d c h = s.still (s.reach q f) q f fun t => (t.silence q f).onFolio q f fun x =>
      { x with timeout := false, free := (s.folio q f).taken + 2, st := .waiting,
               wait := some (.event c (s.folio q f).boundary ((s.folio q f).boundary + d) h) }.drainTrig := by
  obtain ⟨-, hlate, htime⟩ := ht
  simp [State.beginEvent, hlate, Nat.not_lt.mpr htime, hnone]

/-- A wait row of a running Folio that does not wait yet begins the wait. -/
theorem waitGuard_running {t u : State} (hr : (s.folio q f).st = .running) (ht : OnTime s q f) :
    (if (s.folio q f).wait.isSome || (s.folio q f).st == .halted then t else u) = u :=
  if_neg (by simp [hr, ht.noWait])

end

/-- Settles O27: each row runs its own word, and where the word's act has a branch, the clause's conditions pick it. -/
theorem stepWordRowsComplete : Obligations.StepWordRowsComplete := by
  refine ⟨?play, ?hold, ?acquire, ?waitUntil, ?waitEvent, ?halt, ?branch, ?jump, ?repeatBegin, ?repeatEnd, ?setFrame, ?shiftPhase, ?emitEvent, ?behind⟩
  case play =>
    exact fun q f s d fi a b m h ht hw => congrArg Host.Outcome.next (seqRow_run h rfl (timedWord_onTime h.running ht hw _ _ _ _ _ _))
  case hold =>
    exact fun q f s d ha hb m h ht hw => congrArg Host.Outcome.next (seqRow_run h rfl (timedWord_onTime h.running ht hw _ _ _ _ _ _))
  case acquire =>
    exact fun q f s d fi a rs wo hb m h ht hw => congrArg Host.Outcome.next (seqRow_run h rfl (timedWord_onTime h.running ht hw _ _ _ _ _ _))
  case waitUntil =>
    exact fun q f s w p n b h ht hend hn => congrArg Host.Outcome.next
      (seqRow_run h rfl ((waitGuard_running h.running ht).trans (beginUntil_onTime ht hend hn)))
  case waitEvent =>
    exact fun q f s d c b h ht hnone => congrArg Host.Outcome.next
      (seqRow_run h rfl ((waitGuard_running h.running ht).trans (beginEvent_onTime ht hnone)))
  case halt =>
    intro q f s h hlate
    refine congrArg Host.Outcome.next (seqRow_run h rfl ?_)
    simp [h.running, hlate, State.passWord]
  case branch => exact fun q f s c n r t h => congrArg Host.Outcome.next (seqRow_run h rfl rfl)
  case jump => exact fun q f s r t h => congrArg Host.Outcome.next (seqRow_run h rfl rfl)
  case repeatBegin => exact fun q f s c r b h => congrArg Host.Outcome.next (seqRow_run h rfl rfl)
  case repeatEnd => exact fun q f s h => congrArg Host.Outcome.next (seqRow_run h rfl rfl)
  case setFrame => exact fun q f s c p e h => congrArg Host.Outcome.next (seqRow_run h rfl rfl)
  case shiftPhase => exact fun q f s c r d b h => congrArg Host.Outcome.next (seqRow_run h rfl rfl)
  case emitEvent =>
    intro q f s c h hprod
    refine congrArg Host.Outcome.next (seqRow_run h rfl ?_)
    simp only [State.takeWord, hprod, if_true]
  case behind => exact fun q f s d fi a b m h => congrArg Host.Outcome.next (seqRow_late h rfl rfl)

end Sys2Proof.Machine
end

section
/-! ## Core instructions: encoding and decoding (R169 to R174, R189)

The fields of an instruction are disjoint bit fields below its OPC: each is read back from the sum that spells them. -/
namespace Sys2Proof.Machine

theorem Moves.enc_lt {m : Moves} (hx : m.xd < 8) (hxi : m.xi < 4) (hy : m.yd < 8) (hyi : m.yi < 4) : m.enc < 2 ^ 19 := by
  have hxen := ofBool_lt m.xen
  have hyen := ofBool_lt m.yen
  have hxupd := ofBool_lt m.xupd
  have hyupd := ofBool_lt m.yupd
  simp only [Moves.enc]
  omega

/-- The parallel moves are read back from any word whose low 19 bits spell them. -/
theorem movesOf_enc {m : Moves} {n : Nat} (hx : m.xd < 8) (hxi : m.xi < 4) (hy : m.yd < 8) (hyi : m.yi < 4) (hn : n % 2 ^ 19 = m.enc) :
    movesOf n = m := by
  obtain ⟨xd, xi, xen, yd, yi, yen, xupd, yupd⟩ := m
  have hxen := ofBool_lt xen
  have hyen := ofBool_lt yen
  have hxupd := ofBool_lt xupd
  have hyupd := ofBool_lt yupd
  simp only [Moves.enc] at hn
  simp only at hx hxi hy hyi
  simp only [movesOf, Moves.mk.injEq, bits]
  exact ⟨by omega, by omega, bitOf_of_digit (by omega), by omega, by omega, bitOf_of_digit (by omega), bitOf_of_digit (by omega),
    bitOf_of_digit (by omega)⟩

/-! ### The formats whose OPC stands for several operations -/

theorem coreFields_mac {n o : Nat} (ho : bits n 26 6 = o) (h1 : 1 ≤ o) (h4 : o ≤ 4) :
    coreFields n = some (.mac o (bitOf n 25) (bits n 22 3) (bits n 19 3) (movesOf n)) := by
  simp only [coreFields, ho]
  rw [if_neg (by omega), if_pos h4]

theorem coreFields_alu {n o : Nat} (ho : bits n 26 6 = o) (hlo : 8 ≤ o) (hhi : o ≤ 0x13) :
    coreFields n = some (.alu o (bits n 23 3) (bits n 20 3) (bits n 17 3)) := by
  simp only [coreFields, ho]
  rw [if_neg (by omega), if_neg (by omega), if_pos ⟨hlo, hhi⟩]

theorem coreFields_imm {n o : Nat} (ho : bits n 26 6 = o) (hlo : 0x14 ≤ o) (hhi : o ≤ 0x1C) :
    coreFields n = some (.imm o (bits n 23 3) (bits n 20 3) (bits n 0 16)) := by
  simp only [coreFields, ho]
  rw [if_neg (by omega), if_neg (by omega), if_neg (by omega), if_pos ⟨hlo, hhi⟩]

/-! ### The words -/

/-- The argument of a FLAG lies below its MODE, and is read back as that MODE says (R181). -/
theorem flagArg_enc {m a : Nat} (ha : (if m = 2 then decide (a < 15) else if m = 3 then decide (a < 128) else a == 0) = true) :
    ∃ x < 2 ^ 18, (if m = 2 then a * 2 ^ 14 else if m = 3 then a * 2 ^ 11 else 0) = x ∧
      (if m = 2 then bits x 14 4 else if m = 3 then bits x 11 7 else 0) = a := by
  by_cases h2 : m = 2
  · rw [if_pos h2, decide_eq_true_eq] at ha
    exact ⟨a * 2 ^ 14, by omega, if_pos h2, by rw [if_pos h2, bits]; omega⟩
  · rw [if_neg h2] at ha
    by_cases h3 : m = 3
    · rw [if_pos h3, decide_eq_true_eq] at ha
      exact ⟨a * 2 ^ 11, by omega, by rw [if_neg h2, if_pos h3], by rw [if_neg h2, if_pos h3, bits]; omega⟩
    · rw [if_neg h3, beq_iff_eq] at ha
      exact ⟨0, by omega, by rw [if_neg h2, if_neg h3], by rw [if_neg h2, if_neg h3, ha]⟩

/-- The fields of an instruction in range are read back from its 32 bits. -/
theorem coreFields_enc {w : CoreWord} {n : Nat} (hn : w.enc = n) (hw : w.ok = true) : n < 2 ^ 32 ∧ coreFields n = some w := by
  cases w <;>
    simp only [CoreWord.ok, specOk, Bool.and_eq_true, Bool.or_eq_true, decide_eq_true_eq, beq_iff_eq, bne_iff_ne] at hw <;>
    simp only [CoreWord.enc, CoreWord.opc, CoreWord.low] at hn
  case plain o =>
    have hop : bits n 26 6 = o := by simp only [bits]; omega
    refine ⟨by omega, ?_⟩
    simp only [coreFields, hop]
    rw [if_pos (by omega)]
  case mac o a p q m =>
    obtain ⟨⟨⟨⟨⟨⟨⟨⟨h1, h4⟩, hp⟩, hq⟩, -⟩, hxd⟩, hxi⟩, hyd⟩, hyi⟩ := hw
    have ha := ofBool_lt a
    have hm := Moves.enc_lt hxd hxi hyd hyi
    have hop : bits n 26 6 = o := by simp only [bits]; omega
    refine ⟨by omega, (coreFields_mac hop h1 h4).trans ?_⟩
    simp only [movesOf_enc hxd hxi hyd hyi (by omega : n % 2 ^ 19 = m.enc), Option.some.injEq, CoreWord.mac.injEq, true_and, and_true, bits]
    exact ⟨bitOf_of_digit (by omega), by omega, by omega⟩
  case alu o d a b =>
    have hop : bits n 26 6 = o := by simp only [bits]; omega
    refine ⟨by omega, (coreFields_alu hop (by omega) (by omega)).trans ?_⟩
    simp only [Option.some.injEq, CoreWord.alu.injEq, true_and, bits]
    exact ⟨by omega, by omega, by omega⟩
  case imm o d a i =>
    have hop : bits n 26 6 = o := by simp only [bits]; omega
    refine ⟨by omega, (coreFields_imm hop (by omega) (by omega)).trans ?_⟩
    simp only [Option.some.injEq, CoreWord.imm.injEq, true_and, bits]
    exact ⟨by omega, by omega, by omega⟩
  case acc a d sh sub =>
    have ha := ofBool_lt a
    have hop : bits n 26 6 = 0x20 := by simp only [bits]; omega
    have hread : coreFields n = some (.acc (bitOf n 25) (bits n 22 3) (bits n 16 6) (bits n 12 4)) := by simp [coreFields, hop]
    refine ⟨by omega, hread.trans ?_⟩
    simp only [Option.some.injEq, CoreWord.acc.injEq, bits]
    exact ⟨bitOf_of_digit (by omega), by omega, by omega, by omega⟩
  case mem st d y ar u ab ad =>
    have hy := ofBool_lt y
    have hu := ofBool_lt u
    have hab := ofBool_lt ab
    obtain ⟨o, ho, hlt⟩ : ∃ o, (if st then 0x22 else 0x21) = o ∧ o < 64 := ⟨_, rfl, by split <;> omega⟩
    rw [ho] at hn
    have hop : bits n 26 6 = o := by simp only [bits]; omega
    have hread : coreFields n = some (.mem st (bits n 23 3) (bitOf n 22) (bits n 20 2) (bitOf n 19) (bitOf n 18) (bits n 0 13)) := by
      subst ho
      cases st <;> simp [coreFields, hop]
    refine ⟨by omega, hread.trans ?_⟩
    simp only [Option.some.injEq, CoreWord.mem.injEq, true_and, bits]
    exact ⟨by omega, bitOf_of_digit (by omega), by omega, bitOf_of_digit (by omega), bitOf_of_digit (by omega), by omega⟩
  case movs sp d t =>
    have ht := ofBool_lt t
    have hop : bits n 26 6 = 0x24 := by simp only [bits]; omega
    have hread : coreFields n = some (.movs (bits n 20 6) (bits n 17 3) (bitOf n 16)) := by simp [coreFields, hop]
    refine ⟨by omega, hread.trans ?_⟩
    simp only [Option.some.injEq, CoreWord.movs.injEq, bits]
    exact ⟨by omega, by omega, bitOf_of_digit (by omega)⟩
  case lds sp i =>
    have hop : bits n 26 6 = 0x25 := by simp only [bits]; omega
    have hread : coreFields n = some (.lds (bits n 20 6) (bits n 0 16)) := by simp [coreFields, hop]
    refine ⟨by omega, hread.trans ?_⟩
    simp only [Option.some.injEq, CoreWord.lds.injEq, bits]
    exact ⟨by omega, by omega⟩
  case branch c t =>
    have hop : bits n 26 6 = 0x28 := by simp only [bits]; omega
    have hread : coreFields n = some (.branch (bits n 22 4) (bits n 0 12)) := by simp [coreFields, hop]
    refine ⟨by omega, hread.trans ?_⟩
    simp only [Option.some.injEq, CoreWord.branch.injEq, bits]
    exact ⟨by omega, by omega⟩
  case call t =>
    have hop : bits n 26 6 = 0x29 := by simp only [bits]; omega
    have hread : coreFields n = some (.call (bits n 0 12)) := by simp [coreFields, hop]
    refine ⟨by omega, hread.trans ?_⟩
    simp only [Option.some.injEq, CoreWord.call.injEq, bits]
    omega
  case ret => subst hn; decide
  case rep r d c e =>
    have hr := ofBool_lt r
    have hop : bits n 26 6 = 0x2C := by simp only [bits]; omega
    have hread : coreFields n = some (.rep (bitOf n 25) (bits n 22 3) (bits n 12 10) (bits n 0 12)) := by simp [coreFields, hop]
    refine ⟨by omega, hread.trans ?_⟩
    simp only [Option.some.injEq, CoreWord.rep.injEq, bits]
    exact ⟨bitOf_of_digit (by omega), by omega, by omega, by omega⟩
  case wait k e c =>
    have hop : bits n 26 6 = 0x2E := by simp only [bits]; omega
    have hread : coreFields n = some (.wait (bits n 24 2) (bits n 22 2) (bits n 0 16)) := by simp [coreFields, hop]
    refine ⟨by omega, hread.trans ?_⟩
    simp only [Option.some.injEq, CoreWord.wait.injEq, bits]
    exact ⟨by omega, by omega, by omega⟩
  case pop f =>
    have hf := ofBool_lt f
    have hop : bits n 26 6 = 0x2F := by simp only [bits]; omega
    have hread : coreFields n = some (.pop (bitOf n 25)) := by simp [coreFields, hop]
    refine ⟨by omega, hread.trans ?_⟩
    simp only [Option.some.injEq, CoreWord.pop.injEq]
    exact bitOf_of_digit (by omega)
  case flag f m a =>
    obtain ⟨⟨hf, hm⟩, harg⟩ := hw
    obtain ⟨x, hx, hlow, hreadArg⟩ := flagArg_enc harg
    rw [hlow] at hn
    have hop : bits n 26 6 = 0x30 := by simp only [bits]; omega
    have hmode : bits n 18 2 = m := by simp only [bits]; omega
    have hread : coreFields n = some (.flag (bits n 20 6) m (if m = 2 then bits n 14 4 else if m = 3 then bits n 11 7 else 0)) := by
      simp [coreFields, hop, hmode]
    have h14 : bits n 14 4 = bits x 14 4 := by simp only [bits]; omega
    have h11 : bits n 11 7 = bits x 11 7 := by simp only [bits]; omega
    rw [h14, h11, hreadArg] at hread
    refine ⟨by omega, hread.trans ?_⟩
    simp only [Option.some.injEq, CoreWord.flag.injEq, and_true, bits]
    omega
  case flagg g m v =>
    have hop : bits n 26 6 = 0x31 := by simp only [bits]; omega
    have hread : coreFields n = some (.flagg (bits n 24 2) (bits n 21 3) (bits n 18 3)) := by simp [coreFields, hop]
    refine ⟨by omega, hread.trans ?_⟩
    simp only [Option.some.injEq, CoreWord.flagg.injEq, bits]
    exact ⟨by omega, by omega, by omega⟩
  case sendf r fl m v dt dd =>
    have hfl := ofBool_lt fl
    have hdt := ofBool_lt dt
    have hop : bits n 26 6 = 0x32 := by simp only [bits]; omega
    have hread : coreFields n = some (.sendf (bits n 22 4) (bitOf n 21) (bits n 18 3) (bits n 15 3) (bitOf n 14) (bits n 11 3)) := by
      simp [coreFields, hop]
    refine ⟨by omega, hread.trans ?_⟩
    simp only [Option.some.injEq, CoreWord.sendf.injEq, bits]
    exact ⟨by omega, bitOf_of_digit (by omega), by omega, by omega, bitOf_of_digit (by omega), by omega⟩
  case evout e =>
    have hop : bits n 26 6 = 0x33 := by simp only [bits]; omega
    have hread : coreFields n = some (.evout (bits n 24 2)) := by simp [coreFields, hop]
    refine ⟨by omega, hread.trans ?_⟩
    simp only [Option.some.injEq, CoreWord.evout.injEq, bits]
    omega

/-- What is read of a word is in range and spells the word (R189). -/
theorem decodeCore_eq_some {n : Nat} {w : CoreWord} : decodeCore n = some w ↔ coreFields n = some w ∧ w.ok = true ∧ w.enc = n := by
  unfold decodeCore
  split
  · next h => simp [h]
  · next x h =>
    simp only [h, Option.ite_none_right_eq_some, Bool.and_eq_true, beq_iff_eq, Option.some.injEq]
    constructor
    · rintro ⟨hw, rfl⟩
      exact ⟨rfl, hw⟩
    · rintro ⟨rfl, hw⟩
      exact ⟨hw, rfl⟩

theorem decodeCore_enc {w : CoreWord} (hw : w.ok = true) : decodeCore w.enc = some w :=
  decodeCore_eq_some.mpr ⟨(coreFields_enc rfl hw).2, hw, rfl⟩

/-- Settles O49: a word is read only as the instruction whose encoding it is, and each encoding is read. -/
theorem coreWordsDecodeTheirEncoding : Obligations.CoreWordsDecodeTheirEncoding := by
  refine ⟨fun w hw => ⟨(coreFields_enc rfl hw).1, decodeCore_enc hw⟩, fun n w => ⟨fun h => (decodeCore_eq_some.mp h).2, ?_⟩⟩
  rintro ⟨hw, rfl⟩
  exact decodeCore_enc hw

end Sys2Proof.Machine
end

section
/-! ## The arithmetic rows of a feedback core (R164 to R167, R170 to R172) -/
namespace Sys2Proof.Machine

section
variable {s : State} {q k o d x y i : Nat} {r : FbCore → BitVec 16} {sr : FbCore → CSr}

/-! ### The ALU (R164, R170) -/

/-- A register operation with a result writes it and the flags. -/
theorem aluRow_writes (h : Issues s q k (.alu o d x y)) (hop : ∀ c : FbCore, aluOp o c.sr (c.dr x) (c.dr y) = (some (r c), sr c)) :
    s.coreDo q k o FbCore.aluDo = coreStep s q k o fun c => c.result d (r c) (sr c) :=
  coreDo_issues h rfl fun c => by simp only [FbCore.aluDo, hop, Option.map_some, FbCore.result]

/-- A register operation without a result writes the flags. -/
theorem aluRow_compares (h : Issues s q k (.alu o d x y)) (hop : ∀ c : FbCore, aluOp o c.sr (c.dr x) (c.dr y) = (none, sr c)) :
    s.coreDo q k o FbCore.aluDo = coreStep s q k o fun c => { c with sr := sr c }.after 1 :=
  coreDo_issues h rfl fun c => by simp only [FbCore.aluDo, hop, Option.map_some]

/-- An immediate operation with a result writes it and the flags. -/
theorem immRow_writes (h : Issues s q k (.imm o d x i)) (hop : ∀ c : FbCore, aluOp o c.sr (c.dr x) (BitVec.ofNat 16 i) = (some (r c), sr c)) :
    s.coreDo q k o FbCore.aluDo = coreStep s q k o fun c => c.result d (r c) (sr c) :=
  coreDo_issues h rfl fun c => by simp only [FbCore.aluDo, hop, Option.map_some, FbCore.result]

/-- An immediate operation without a result writes the flags. -/
theorem immRow_compares (h : Issues s q k (.imm o d x i)) (hop : ∀ c : FbCore, aluOp o c.sr (c.dr x) (BitVec.ofNat 16 i) = (none, sr c)) :
    s.coreDo q k o FbCore.aluDo = coreStep s q k o fun c => { c with sr := sr c }.after 1 :=
  coreDo_issues h rfl fun c => by simp only [FbCore.aluDo, hop, Option.map_some]

end

/-- Settles O30: each row is its operation of the table of R170, which writes a result or compares. -/
theorem aluRowsGiveTheirResults : Obligations.AluRowsGiveTheirResults := by
  refine ⟨?add, ?sub, ?and, ?or, ?xor, ?shl, ?asr, ?lsr, ?mov, ?min, ?max, ?ldi, ?addi, ?andi, ?ori, ?xori, ?shli, ?asri, ?cmp, ?cmpi, ?tsti⟩
  case cmp => exact fun _ _ _ _ _ _ h => congrArg Host.Outcome.next (aluRow_compares h fun _ => rfl)
  case cmpi | tsti => exact fun _ _ _ _ _ _ h => congrArg Host.Outcome.next (immRow_compares h fun _ => rfl)
  case ldi | addi | andi | ori | xori | shli | asri => exact fun _ _ _ _ _ _ h => congrArg Host.Outcome.next (immRow_writes h fun _ => rfl)
  all_goals exact fun _ _ _ _ _ _ h => congrArg Host.Outcome.next (aluRow_writes h fun _ => rfl)

/-! ### Multiplies, accumulators, memories, special registers and FIFOs (R166, R167, R171, R172, R178) -/

/-- A POP of results takes the oldest one, or sets E (R178). -/
theorem popOp_result (c : FbCore) : (c.popOp false).after 1 = match c.results with
    | [] => ({ c.setD 7 3 with rl := 3, sr := { c.sr with e := true } } : FbCore).after 1
    | x :: _ => ({ c.setD 7 (x.word.extractLsb' 0 16) with rl := x.word, rfifo := c.rfifo.drop 1, sr := { c.sr with e := false } } : FbCore).after 1 := by
  cases hres : c.results <;> simp only [FbCore.popOp, hres, Bool.false_eq_true, if_false]

/-- A POP of frames takes the oldest one, or sets E (R178). -/
theorem popOp_frame (c : FbCore) : (c.popOp true).after 1 = match c.frames with
    | [] => ({ c with ifd := [0, 0, 0], ifsrc := 0, sr := { c.sr with e := true } } : FbCore).after 1
    | x :: _ => ({ c with ifd := [x.d0, x.d1, x.d2], ifsrc := x.src, ififo := c.ififo.drop 1, sr := { c.sr with e := false } } : FbCore).after 1 := by
  cases hfr : c.frames <;> simp only [FbCore.popOp, hfr, if_true]

/-- Settles O31: each row is its operation and the cycle after it. -/
theorem coreDataRowsGiveTheirResults : Obligations.CoreDataRowsGiveTheirResults := by
  refine ⟨?par, ?mpy, ?mac, ?msu, ?clra, ?mvda, ?mvah, ?mval, ?sha, ?rnda, ?sata, ?adda, ?suba, ?tsta, ?mvdl, ?mem, ?spec, ?popResult, ?popFrame⟩
  case mem =>
    exact fun _ _ _ _ _ _ _ _ => ⟨fun h => congrArg Host.Outcome.next (coreDo_issues h rfl fun _ => rfl),
      fun h => congrArg Host.Outcome.next (coreDo_issues h rfl fun _ => rfl), fun h => congrArg Host.Outcome.next (coreDo_issues h rfl fun _ => rfl),
      fun h => congrArg Host.Outcome.next (coreDo_issues h rfl fun _ => rfl)⟩
  case spec =>
    exact fun _ _ _ _ _ _ => ⟨fun h => congrArg Host.Outcome.next (coreRow_issues h rfl rfl),
      fun h => congrArg Host.Outcome.next (coreRow_issues h rfl rfl), fun h => congrArg Host.Outcome.next (coreDo_issues h rfl fun _ => rfl)⟩
  case popResult => exact fun _ _ _ h => congrArg Host.Outcome.next (coreDo_issues h rfl fun c => congrArg some (popOp_result c))
  case popFrame => exact fun _ _ _ h => congrArg Host.Outcome.next (coreDo_issues h rfl fun c => congrArg some (popOp_frame c))
  case par | mpy | mac | msu => exact fun _ _ _ _ _ _ _ h => congrArg Host.Outcome.next (coreDo_issues h rfl fun _ => rfl)
  all_goals exact fun _ _ _ _ _ _ h => congrArg Host.Outcome.next (coreDo_issues h rfl fun _ => rfl)

/-! ### The guard bits (R167) -/

@[simp] theorem FbCore.setA_a (c : FbCore) (one : Bool) (v : BitVec 40) : (c.setA one v).a one = v := by cases one <;> rfl
@[simp] theorem FbCore.setA_sr (c : FbCore) (one : Bool) (v : BitVec 40) : (c.setA one v).sr = c.sr := by cases one <;> rfl

@[simp] theorem FbCore.accum_a (c : FbCore) (one : Bool) (v : Int) : (c.accum one v).a one = BitVec.ofInt 40 v := FbCore.setA_a _ _ _

theorem FbCore.accum_ov (c : FbCore) (one : Bool) (v : Int) :
    (c.accum one v).sr.ov = (c.sr.ov || decide ((BitVec.ofInt 40 v).toInt ≠ v)) := by
  unfold FbCore.accum
  rw [FbCore.setA_sr]
  split
  · next hfits => simp only [hfits, ne_eq, not_true, decide_false, Bool.or_false]
  · next hwraps => simp only [hwraps, ne_eq, not_false_iff, decide_true, Bool.or_true]

/-- A value that does not wrap leaves the status alone. -/
theorem FbCore.accum_sr {c : FbCore} {one : Bool} {v : Int} (h : (BitVec.ofInt 40 v).toInt = v) : (c.accum one v).sr = c.sr := by
  simp [FbCore.accum, h]

/-- A core without parallel moves keeps its registers. -/
theorem FbCore.moves_none (c : FbCore) {m : Moves} (hx : m.xen = false) (hy : m.yen = false) : c.moves m = c := by
  simp [FbCore.moves, hx, hy]

/-- Values within the 40 bits of an accumulator do not wrap. -/
theorem toInt_ofInt_40 {v : Int} (hlo : -2 ^ 39 ≤ v) (hhi : v < 2 ^ 39) : (BitVec.ofInt 40 v).toInt = v := by
  rw [BitVec.toInt_ofInt]
  exact Int.bmod_eq_of_le (by omega) (by omega)

theorem product_bounds (x y : BitVec 16) : -2 ^ 30 ≤ x.toInt * y.toInt ∧ x.toInt * y.toInt ≤ 2 ^ 30 :=
  ⟨BitVec.le_toInt_mul_toInt, BitVec.toInt_mul_toInt_le⟩

/-- Products add up exactly as long as their number keeps the sum within 2^38. -/
theorem accumulate_exact (a : Bool) (l : List (BitVec 16 × BitVec 16)) (c : FbCore) (n : Nat) (hl : n + l.length ≤ 256)
    (hlo : -((n : Int) * 2 ^ 30) ≤ (c.a a).toInt) (hhi : (c.a a).toInt ≤ n * 2 ^ 30) :
    let t := l.foldl (fun (x : FbCore) e => x.accum a ((x.a a).toInt + e.1.toInt * e.2.toInt)) c
    (t.a a).toInt = (c.a a).toInt + (l.map fun e => e.1.toInt * e.2.toInt).sum ∧ t.sr = c.sr := by
  induction l generalizing c n with
  | nil => simp
  | cons e l ih =>
    obtain ⟨hplo, hphi⟩ := product_bounds e.1 e.2
    rw [List.length_cons] at hl
    have hexact : (BitVec.ofInt 40 ((c.a a).toInt + e.1.toInt * e.2.toInt)).toInt = (c.a a).toInt + e.1.toInt * e.2.toInt :=
      toInt_ofInt_40 (by omega) (by omega)
    obtain ⟨hsum, hsr⟩ := ih (c.accum a ((c.a a).toInt + e.1.toInt * e.2.toInt)) (n + 1) (by omega)
      (by rw [FbCore.accum_a, hexact]; push_cast; omega) (by rw [FbCore.accum_a, hexact]; push_cast; omega)
    rw [FbCore.accum_a, hexact] at hsum
    exact ⟨by rw [List.foldl_cons, hsum, List.map_cons, List.sum_cons, Int.add_assoc], by rw [List.foldl_cons, hsr, FbCore.accum_sr hexact]⟩

/-- Settles O54: a multiply is its row of R170, and 256 products of 2^30 stay below 2^39. -/
theorem guardBitsHold256Products : Obligations.GuardBitsHold256Products := by
  refine ⟨fun q k s a p r m hx hy => ?rows, fun c a x y => ?product, fun c a v => ⟨FbCore.accum_a c a v, FbCore.accum_ov c a v⟩,
    fun c a l hl => ?sum⟩
  case rows =>
    obtain ⟨-, hmpy, hmac, hmsu, -⟩ := coreDataRowsGiveTheirResults
    have hmoves (c : FbCore) : c.moves m = c := c.moves_none hx hy
    exact ⟨fun h => by simp only [hmpy q k s a p r m h, hmoves], fun h => by simp only [hmac q k s a p r m h, hmoves],
      fun h => by simp only [hmsu q k s a p r m h, hmoves]⟩
  case product =>
    obtain ⟨hlo, hhi⟩ := product_bounds x y
    rw [FbCore.setA_a]
    exact toInt_ofInt_40 (by omega) (by omega)
  case sum => simpa using accumulate_exact a l (c.setA a 0) 0 (by omega) (by simp) (by simp)

end Sys2Proof.Machine
end

section
/-! ## Changes of one core, and what they leave alone (R162, R170, R176) -/
namespace Sys2Proof.Machine

/-! ### Reading the feedback part after a change -/

section
variable {s : State} {p q k j : Nat}

theorem State.onFb_fbq (f : FbQuire → FbQuire) (h : twf FbQuire.reset s.fb = true) : (s.onFb q f).fbq q = f (s.fbq q) := tget_tmod_self q f h

@[simp] theorem State.onFb_fbq_ne (f : FbQuire → FbQuire) (hp : p ≠ q) : (s.onFb q f).fbq p = s.fbq p := tget_tmod_ne f hp

theorem State.onCore_fbq (g : FbCore → FbCore) (h : twf FbQuire.reset s.fb = true) :
    (s.onCore q k g).fbq q = { s.fbq q with cores := tmod .reset (s.fbq q).cores k g } := State.onFb_fbq _ h

theorem State.onCore_core (g : FbCore → FbCore) (h : twf FbQuire.reset s.fb = true) (hc : twf FbCore.reset (s.fbq q).cores = true) :
    (s.onCore q k g).core q k = g (s.core q k) := by
  rw [State.core, State.onCore_fbq g h]
  exact tget_tmod_self k g hc

theorem State.onCore_core_ne (g : FbCore → FbCore) (h : twf FbQuire.reset s.fb = true) (hj : j ≠ k) : (s.onCore q k g).core q j = s.core q j := by
  rw [State.core, State.onCore_fbq g h]
  exact tget_tmod_ne g hj

/-- A core whose PC lies inside its program memory does not fault for it. -/
theorem State.corePast_inside (h : (s.core q k).pc < 4096) : s.corePast q k = s := if_neg fun hpast => absurd hpast.2 (Nat.not_le.mpr h)

end

/-- Settles O53: the instruction writes its core, and its PC is no fault. -/
theorem coreStepsLeaveEverythingElse : Obligations.CoreStepsLeaveEverythingElse := by
  intro s q k opc g hpc hfb hcores
  have hcore := State.onCore_core (k := k) (fun _ => g ((issueState s q k opc).core q k)) hfb hcores
  have hstep : coreStep s q k opc g = (issueState s q k opc).onCore q k fun _ => g ((issueState s q k opc).core q k) :=
    State.corePast_inside (by rw [hcore]; exact hpc)
  simp only [hstep]
  refine ⟨hcore, fun j hj => State.onCore_core_ne _ hfb hj, fun p hp => State.onFb_fbq_ne _ hp, ?_⟩
  rw [State.onCore_fbq _ hfb]
  exact ⟨rfl, rfl, rfl, rfl, rfl, rfl, rfl, rfl, rfl, rfl, rfl, rfl, rfl, rfl, rfl, rfl, rfl, rfl, rfl, rfl, fun _ _ => rfl⟩

/-- Settles O52: the tables are empty at reset, and read as a core at reset. -/
theorem coresAreWellFormedAtReset : Obligations.CoresAreWellFormedAtReset := by
  refine ⟨fun q k => ⟨rfl, rfl, ?_⟩, rfl, rfl, rfl⟩
  show CoreWf FbCore.reset
  exact ⟨rfl, ⟨rfl, rfl, rfl, rfl⟩, ⟨rfl, rfl⟩, ⟨Nat.zero_le 4, fun _ h => (nomatch h)⟩, ⟨Nat.zero_le 4, fun _ h => (nomatch h)⟩,
    fun _ h => (nomatch h), ⟨Nat.zero_le _, fun h => (nomatch h)⟩⟩

end Sys2Proof.Machine
end

section
/-! ## SAFE (R190, R199) -/
namespace Sys2Proof.Machine

/-- No level and no call is open. -/
def FbCore.atRest (c : FbCore) : Bool := c.reps.isEmpty && c.calls.isEmpty

/-- The swap that a SAFE performs: one that was armed in an earlier cycle, where no level and no call is open. -/
def FbCore.dueSwap (c : FbCore) : Option (Nat × Bool × Nat) := if c.atRest then c.swap.filter (fun x => decide (x.2.2 < c.next)) else none

/-- The core in its other bank, its registers kept or cleared. -/
def FbCore.swapped (c : FbCore) (entry : Nat) (keep : Bool) : FbCore :=
  let x := if keep then c else
    { c with d := FbCore.reset.d, a0 := 0, a1 := 0, x := FbCore.reset.x, y := FbCore.reset.y, wx := FbCore.reset.wx, wy := FbCore.reset.wy }
  { x with active := !c.active, swap := none, safeSt := 1 }.goto entry 3

section
variable {s : State} {q k : Nat}

theorem dueSwap_swap {c : FbCore} {x : Nat × Bool × Nat} (h : c.dueSwap = some x) : c.swap = some x := by
  unfold FbCore.dueSwap at h
  split at h
  · exact (Option.filter_eq_some_iff.mp h).1
  · cases h

theorem safe_stays (h : (s.core q k).dueSwap = none) : s.safe q k = s.onCore q k fun _ =>
    if (s.core q k).atRest && (s.core q k).stopSafe then
      ({ (s.core q k).after 1 with safeSt := ofBool (s.core q k).atRest } : FbCore).stop .halted 2
    else { (s.core q k).after 1 with safeSt := ofBool (s.core q k).atRest } := by
  unfold FbCore.dueSwap FbCore.atRest at h
  simp only [State.safe, h]
  rfl

theorem safe_swaps {entry cycle : Nat} {keep : Bool} (h : (s.core q k).dueSwap = some (entry, keep, cycle)) : s.safe q k =
    (s.onCore q k fun _ => if (s.core q k).stopSafe then ((s.core q k).swapped entry keep).stop .halted 2
      else (s.core q k).swapped entry keep).resolve (wait .fbSwap (coreId q k) 0) [] := by
  unfold FbCore.dueSwap FbCore.atRest at h
  simp only [State.safe, h]
  rfl

end

end Sys2Proof.Machine
end

section
/-! ## Every instruction row keeps its core well-formed (R164, R174, R176)

An instruction finds its core well-formed with the PC inside the program memory. It leaves the PC inside or just past it, and `corePast` then
stops a core that would run on past it. -/
namespace Sys2Proof.Machine

/-- A core with register files of their sizes and stacks no deeper than four, whose PC is at most `n`: what `CoreWf` says without regard to the
core's running. -/
structure CoreIn (n : Nat) (c : FbCore) : Prop where
  d : c.d.length = 8
  cursors : c.x.length = 4 ∧ c.y.length = 4 ∧ c.wx.length = 4 ∧ c.wy.length = 4
  inputs : c.eilat.length = 4 ∧ c.ifd.length = 3
  calls : c.calls.length ≤ 4 ∧ ∀ t ∈ c.calls, t ≤ 4096
  reps : c.reps.length ≤ 4 ∧ ∀ r ∈ c.reps, r.start ≤ 4096
  swap : ∀ e, c.swap = some e → e.1 < 4096
  pc : c.pc ≤ n

theorem coreWf_iff {c : FbCore} : CoreWf c ↔ CoreIn 4096 c ∧ (c.st = .running → c.pc < 4096) :=
  ⟨fun h => ⟨⟨h.d, h.cursors, h.inputs, h.calls, h.reps, h.swap, h.pc.1⟩, h.pc.2⟩,
    fun ⟨h, hrun⟩ => ⟨h.d, h.cursors, h.inputs, h.calls, h.reps, h.swap, h.pc, hrun⟩⟩

/-- What an instruction finds. -/
theorem CoreWf.inside {c : FbCore} (h : CoreWf c) (hrun : c.st = .running) : CoreIn 4095 c :=
  { (coreWf_iff.mp h).1 with pc := Nat.le_of_lt_succ (h.pc.2 hrun) }

/-! ### Changes of a core that leave its PC and its stacks alone -/

section
variable {n : Nat} {c : FbCore}

theorem CoreIn.mono {m : Nat} (h : CoreIn n c) (hm : n ≤ m) : CoreIn m c := { h with pc := Nat.le_trans h.pc hm }

theorem CoreIn.withSr (h : CoreIn n c) (sr : CSr) : CoreIn n { c with sr := sr } := { h with }

theorem CoreIn.setD (h : CoreIn n c) (i : Nat) (v : BitVec 16) : CoreIn n (c.setD i v) :=
  { h with d := (lput_length _ _ _).trans h.d }

theorem CoreIn.setA (h : CoreIn n c) (one : Bool) (v : BitVec 40) : CoreIn n (c.setA one v) := by
  cases one <;> exact { h with }

theorem CoreIn.accum (h : CoreIn n c) (one : Bool) (v : Int) : CoreIn n (c.accum one v) := by
  refine CoreIn.setA ?_ one _
  split
  · exact h
  · exact h.withSr _

theorem CoreIn.setMem (h : CoreIn n c) (y : Bool) (a : Nat) (v : BitVec 16) : CoreIn n (c.setMem y a v) := by
  cases y <;> exact { h with }

theorem CoreIn.setCursor (h : CoreIn n c) (y : Bool) (i : Nat) (v : BitVec 13) : CoreIn n (c.setCursor y i v) := by
  obtain ⟨hx, hy, hwx, hwy⟩ := h.cursors
  cases y
  · exact { h with cursors := ⟨(lput_length _ _ _).trans hx, hy, hwx, hwy⟩ }
  · exact { h with cursors := ⟨hx, (lput_length _ _ _).trans hy, hwx, hwy⟩ }

theorem CoreIn.setWalk (h : CoreIn n c) (y : Bool) (i : Nat) (w : Walk) : CoreIn n (c.setWalk y i w) := by
  obtain ⟨hx, hy, hwx, hwy⟩ := h.cursors
  cases y
  · exact { h with cursors := ⟨hx, hy, (lput_length _ _ _).trans hwx, hwy⟩ }
  · exact { h with cursors := ⟨hx, hy, hwx, (lput_length _ _ _).trans hwy⟩ }

theorem CoreIn.access (h : CoreIn n c) (y : Bool) (i : Nat) (upd : Bool) : CoreIn n (c.access y i upd).2 := by
  cases upd
  · exact h
  · exact h.setCursor _ _ _

theorem CoreIn.moves (h : CoreIn n c) (m : Moves) : CoreIn n (c.moves m) := by
  unfold FbCore.moves
  have hx : CoreIn n (if m.xen then ((c.access false m.xi m.xupd).2.setD m.xd (c.memAt false (c.access false m.xi m.xupd).1)) else c) := by
    split
    · exact (h.access _ _ _).setD _ _
    · exact h
  dsimp only
  split
  · exact (hx.access _ _ _).setD _ _
  · exact hx

theorem CoreIn.accOp (h : CoreIn n c) (one : Bool) (d sh sub : Nat) : CoreIn n (c.accOp one d sh sub) := by
  unfold FbCore.accOp
  dsimp only
  split
  · exact h.setA _ _
  · exact h.setA _ _
  · exact (h.setD _ _).withSr _
  · exact (h.setD _ _).withSr _
  · split
    · exact h.accum _ _
    · exact h.setA _ _
  · exact (h.accum _ _).setA _ _
  · refine CoreIn.setA ?_ _ _
    split
    · exact h
    · exact h.withSr _
  · exact h.accum _ _
  · exact h.accum _ _
  · exact h.withSr _
  · exact h.setA _ _

/-- A read of a special register latches TSH at most. -/
theorem CoreIn.spec (h : CoreIn n c) (b : FbQuire) (q k i : Nat) : CoreIn n (c.spec b q k i).2 := by
  unfold FbCore.spec
  dsimp only
  repeat' refine iteInduction (motive := fun x : Nat × FbCore => CoreIn n x.2) (fun _ => ?_) fun _ => ?_
  all_goals exact { h with }

theorem CoreIn.setSpec (h : CoreIn n c) (i v : Nat) : CoreIn n (c.setSpec i v) := by
  unfold FbCore.setSpec
  refine iteInduction (motive := CoreIn n) (fun _ => h.setCursor _ _ _) fun _ => ?_
  refine iteInduction (motive := CoreIn n) (fun _ => h.setCursor _ _ _) fun _ => ?_
  refine iteInduction (motive := CoreIn n) (fun _ => h.setWalk _ _ _) fun _ => ?_
  refine iteInduction (motive := CoreIn n) (fun _ => h.setWalk _ _ _) fun _ => ?_
  refine iteInduction (motive := CoreIn n) (fun _ => h.withSr _) fun _ => ?_
  refine iteInduction (motive := CoreIn n) (fun _ => { h with inputs := ⟨List.length_map _, h.inputs.2⟩ }) fun _ => ?_
  refine iteInduction (motive := CoreIn n) (fun _ => { h with }) fun _ => ?_
  exact iteInduction (motive := CoreIn n) (fun _ => { h with }) fun _ => h

theorem CoreIn.popOp (h : CoreIn n c) (frame : Bool) : CoreIn n (c.popOp frame) := by
  unfold FbCore.popOp
  split
  · split <;> exact { h with inputs := ⟨h.inputs.1, rfl⟩ }
  · split
    · exact { h.setD 7 3 with }
    · exact { h.setD 7 _ with }

theorem CoreIn.macOp {opc : Nat} {w : CoreWord} {x : FbCore} (h : CoreIn n c) (hx : FbCore.macOp opc w c = some x) : CoreIn n x := by
  unfold FbCore.macOp at hx
  split at hx
  · cases hx
    refine CoreIn.moves ?_ _
    split
    · exact h.setA _ _
    · exact h.accum _ _
    · exact h.accum _ _
    · exact h
  · cases hx

theorem CoreIn.aluDo {w : CoreWord} {x : FbCore} (h : CoreIn n c) (hx : FbCore.aluDo w c = some x) : CoreIn n x := by
  unfold FbCore.aluDo at hx
  split at hx
  · cases hx
    split
    · exact (h.setD _ _).withSr _
    · exact h.withSr _
  · cases hx
    split
    · exact (h.setD _ _).withSr _
    · exact h.withSr _
  · cases hx

theorem CoreIn.accDo {sub : Nat} {w : CoreWord} {x : FbCore} (h : CoreIn n c) (hx : FbCore.accDo sub w c = some x) : CoreIn n x := by
  unfold FbCore.accDo at hx
  split at hx
  · split at hx
    · cases hx
      exact h.accOp _ _ _ _
    · cases hx
  · cases hx

theorem CoreIn.memDo {w : CoreWord} {x : FbCore} (h : CoreIn n c) (hx : FbCore.memDo w c = some x) : CoreIn n x := by
  unfold FbCore.memDo at hx
  split at hx
  · next st d y ar u ab ad =>
    cases hx
    have hwalk : CoreIn n (if ab then (ad, c) else c.access y ar u).2 := by
      split
      · exact h
      · exact h.access _ _ _
    split
    · exact { hwalk.setMem _ _ _ with }
    · exact hwalk.setD _ _
  · cases hx

/-! ### Where a core goes on (R173, R174) -/

/-- The levels that end at an address lead to their first word or past their last one, and no level is opened. -/
theorem repAfter_bounds {a : Nat} (ha : a < 4096) {l : List CRep} (hl : ∀ r ∈ l, r.start ≤ 4096) :
    (repAfter a l).1 ≤ 4096 ∧ (repAfter a l).2.length ≤ l.length ∧ ∀ r ∈ (repAfter a l).2, r.start ≤ 4096 := by
  induction l with
  | nil => exact ⟨ha, Nat.le_refl _, hl⟩
  | cons r l ih =>
    obtain ⟨hr, htail⟩ := List.forall_mem_cons.mp hl
    obtain ⟨hpc, hlen, hstart⟩ := ih htail
    unfold repAfter
    split
    · split
      · exact ⟨hpc, Nat.le_trans hlen (Nat.le_succ _), hstart⟩
      · exact ⟨hr, Nat.le_refl _, List.forall_mem_cons.mpr ⟨hr, htail⟩⟩
    · exact ⟨ha, Nat.le_refl _, hl⟩

theorem CoreIn.repAfter (h : CoreIn n c) {a : Nat} (ha : a < 4096) (m : Nat) :
    CoreIn 4096 { c with pc := (repAfter a c.reps).1, reps := (repAfter a c.reps).2, next := m } := by
  obtain ⟨hpc, hlen, hstart⟩ := repAfter_bounds ha h.reps.2
  exact { h with reps := ⟨Nat.le_trans hlen h.reps.1, hstart⟩, pc := hpc }

theorem CoreIn.after (h : CoreIn 4095 c) (m : Nat) : CoreIn 4096 (c.after m) := h.repAfter (Nat.lt_succ_of_le h.pc) _

theorem CoreIn.stop (h : CoreIn n c) (st : CState) (cause : Nat) : CoreIn n (c.stop st cause) := { h with }

end

/-! ### Changes of the state -/

/-- The tables that lead to core `k` of Quire `q` are canonical, and the core has the property `P`. -/
structure CoreHas (P : FbCore → Prop) (s : State) (q k : Nat) : Prop where
  quires : twf FbQuire.reset s.fb = true
  cores : twf FbCore.reset (s.fbq q).cores = true
  core : P (s.core q k)

theorem coreReady_iff {s : State} {q k : Nat} : CoreReady s q k ↔ CoreHas CoreWf s q k :=
  ⟨fun h => ⟨h.quires, h.cores, h.core⟩, fun h => ⟨h.quires, h.cores, h.core⟩⟩

section
variable {P Q : FbCore → Prop} {s t : State} {q k : Nat}

theorem CoreHas.imp (h : CoreHas P s q k) (hPQ : ∀ c, P c → Q c) : CoreHas Q s q k := { h with core := hPQ _ h.core }

/-- What leaves the feedback part alone leaves the core alone. -/
theorem CoreHas.of_fb (h : CoreHas P s q k) (hfb : t.fb = s.fb) : CoreHas P t q k := by
  obtain ⟨hquires, hcores, hcore⟩ := h
  unfold State.core State.fbq at hcore
  unfold State.fbq at hcores
  rw [← hfb] at hquires hcores hcore
  exact ⟨hquires, hcores, hcore⟩

/-- What changes a Quire's feedback part but for its cores leaves the core alone. -/
theorem CoreHas.onFb (h : CoreHas P s q k) {f : FbQuire → FbQuire} (hf : (f (s.fbq q)).cores = (s.fbq q).cores) : CoreHas P (s.onFb q f) q k := by
  have hfbq := State.onFb_fbq (q := q) f h.quires
  refine ⟨twf_tmod _ _ h.quires, ?_, ?_⟩
  · rw [hfbq, hf]
    exact h.cores
  · rw [State.core, hfbq, hf]
    exact h.core

theorem State.onCore_fb (s : State) (q k : Nat) (g : FbCore → FbCore) :
    (s.onCore q k g).fb = tmod .reset s.fb q fun b => { b with cores := tmod .reset b.cores k g } := rfl

theorem State.onCore_quires (h : twf FbQuire.reset s.fb = true) (j : Nat) (g : FbCore → FbCore) : twf FbQuire.reset (s.onCore q j g).fb = true := by
  rw [State.onCore_fb]
  exact twf_tmod _ _ h

theorem State.onCore_cores (h : CoreHas P s q k) (j : Nat) (g : FbCore → FbCore) : twf FbCore.reset ((s.onCore q j g).fbq q).cores = true := by
  rw [State.onCore_fbq g h.quires]
  exact twf_tmod _ _ h.cores

/-- A change of the core gives it what the change brings. -/
theorem CoreHas.onCore (h : CoreHas P s q k) {g : FbCore → FbCore} (hg : Q (g (s.core q k))) : CoreHas Q (s.onCore q k g) q k :=
  ⟨State.onCore_quires h.quires k g, State.onCore_cores h k g, (State.onCore_core g h.quires h.cores).symm ▸ hg⟩

/-- A change of any core of the Quire keeps a property that it keeps of every core. -/
theorem CoreHas.onAnyCore (h : CoreHas P s q k) (j : Nat) {g : FbCore → FbCore} (hg : ∀ c, P c → P (g c)) : CoreHas P (s.onCore q j g) q k := by
  by_cases hj : k = j
  · subst hj
    exact h.onCore (hg _ h.core)
  · exact ⟨State.onCore_quires h.quires j g, State.onCore_cores h j g, (State.onCore_core_ne g h.quires hj).symm ▸ h.core⟩

@[simp] theorem State.fireHops_fb (s : State) (ch obj ehops : Nat) : (s.fireHops ch obj ehops).fb = s.fb := by
  unfold State.fireHops State.fire
  split
  · split
    · rfl
    · rfl
  · rfl

@[simp] theorem State.fireObj_fb (s : State) (ch obj : Nat) : (s.fireObj ch obj).fb = s.fb := State.fireHops_fb s ch obj 0

/-- A fault leaves a stopped core. -/
theorem CoreHas.coreFault (h : CoreHas (CoreIn 4096) s q k) (cause : Nat) :
    CoreHas (fun c => CoreIn 4096 c ∧ c.st = .fault) (s.coreFault q k cause) q k :=
  CoreHas.of_fb (h.onCore ⟨h.core.stop _ _, rfl⟩) (State.fireObj_fb _ _ _)

/-- A fault of an instruction leaves the core where it was. -/
theorem CoreHas.faults (h : CoreHas (CoreIn 4095) s q k) (cause : Nat) : CoreHas (CoreIn 4096) (s.coreFault q k cause) q k :=
  ((h.imp fun _ hc => hc.mono (by omega)).coreFault cause).imp fun _ hc => hc.1

/-- An instruction that has done its work elsewhere goes on in the next cycle. -/
theorem CoreHas.goesOn (h : CoreHas (CoreIn 4095) s q k) : CoreHas (CoreIn 4096) (s.onCore q k fun c => c.after 1) q k := h.onCore (h.core.after 1)

/-- A core that an instruction has left is well-formed when its PC has been judged. -/
theorem CoreHas.corePast (h : CoreHas (CoreIn 4096) s q k) : CoreReady (s.corePast q k) q k := by
  rw [coreReady_iff]
  unfold State.corePast
  split
  · exact (h.coreFault 5).imp fun c hc => coreWf_iff.mpr ⟨hc.1, fun hrun => by simp [hc.2] at hrun⟩
  · next hpast => exact { h with core := coreWf_iff.mpr ⟨h.core, fun hrun => Nat.not_le.mp fun hge => hpast ⟨hrun, hge⟩⟩ }

end

/-! ### The rows -/

/-- A running core of a CONTROL Quire issues `w`, and is well-formed before and when it issues. -/
structure IssuesReady (s : State) (q k : Nat) (w : CoreWord) : Prop where
  issues : Issues s q k w
  ready : CoreReady s q k
  issueReady : CoreReady (issueState s q k w.opc) q k
  running : ((issueState s q k w.opc).core q k).st = .running

section
variable {s : State} {q k opc : Nat} {w : CoreWord}

/-- The instruction stands in the range of its fields (R189). -/
theorem IssuesReady.ok (h : IssuesReady s q k w) : w.ok = true := (decodeCore_eq_some.mp h.issues.word).2.1

/-- What an instruction finds in its issue state. -/
theorem IssuesReady.inside (h : IssuesReady s q k w) : CoreHas (CoreIn 4095) (issueState s q k w.opc) q k :=
  { coreReady_iff.mp h.issueReady with core := h.issueReady.core.inside h.running }

/-- A row does nothing, or issues its instruction and judges the PC. -/
theorem coreRow_cases (h : Issues s q k w) (run : CoreWord → State → Option State) :
    s.coreRow q k opc run = s ∨
      w.opc = opc ∧ ∃ s2, run w (issueState s q k w.opc) = some s2 ∧ s.coreRow q k opc run = s2.corePast q k := by
  by_cases hopc : w.opc = opc
  · subst hopc
    cases hrun : run w (issueState s q k w.opc) with
    | some s2 => exact .inr ⟨rfl, s2, rfl, coreRow_issues h rfl hrun⟩
    | none =>
      unfold issueState at hrun
      refine .inl ?_
      simp only [State.coreRow, h.running, h.control, h.word, bne_self_eq_false, Bool.or_self, Bool.false_eq_true, if_false, ne_eq, not_true, hrun]
  · simp [State.coreRow, h.running, h.control, h.word, hopc]

/-- A row keeps its core well-formed if its instruction leaves the PC at most just past the program memory; a row of another instruction does nothing. -/
theorem IssuesReady.coreRow (h : IssuesReady s q k w) {run : CoreWord → State → Option State}
    (hrun : ∀ s1 s2, CoreHas (CoreIn 4095) s1 q k → run w s1 = some s2 → CoreHas (CoreIn 4096) s2 q k) : CoreReady (s.coreRow q k opc run) q k := by
  obtain hsame | ⟨-, s2, hs2, hnext⟩ := coreRow_cases (opc := opc) h.issues run
  · rw [hsame]
    exact h.ready
  · rw [hnext]
    exact (hrun _ _ h.inside hs2).corePast

/-- A row that changes its core alone keeps it well-formed if the change keeps its register files, its stacks and its PC. -/
theorem IssuesReady.coreDo (h : IssuesReady s q k w) {f : CoreWord → FbCore → Option FbCore}
    (hf : ∀ c x, CoreIn 4095 c → f w c = some x → CoreIn 4095 x) : CoreReady (s.coreDo q k opc f) q k := by
  refine h.coreRow fun s1 s2 hs hrun => ?_
  obtain ⟨x, hx, rfl⟩ := Option.map_eq_some_iff.mp hrun
  exact hs.onCore ((hf _ _ hs.core hx).after 1)

/-! #### Rows that do more than change their core -/

theorem CoreIn.waitOp {c : FbCore} (h : CoreIn 4095 c) (kind ei count : Nat) : CoreIn 4096 (c.waitOp kind ei count) := by
  refine iteInduction (motive := CoreIn 4096) (fun _ => ?ready) fun _ => iteInduction (motive := CoreIn 4096) (fun _ => ?delay) fun _ => ?waits
  case ready =>
    have hlatch : (if kind = 1 then lput c.eilat ei none else c.eilat).length = 4 := by
      split
      · exact (lput_length _ _ _).trans h.inputs.1
      · exact h.inputs.1
    have hmet : CoreIn 4095 { c with sr := { c.sr with t := false }, eilat := if kind = 1 then lput c.eilat ei none else c.eilat } :=
      { h with inputs := ⟨hlatch, h.inputs.2⟩ }
    exact hmet.after 1
  case delay => exact { (h.withSr { c.sr with t := false }).after (count + 1) with }
  case waits => exact { h.after 0 with }

theorem CoreIn.branch {c : FbCore} (h : CoreIn 4095 c) (cond : Nat) {t : Nat} (ht : t < 4096) : CoreIn 4096 (c.branch cond t) := by
  unfold FbCore.branch
  split
  · have hsub := List.dropWhile_suffix (l := c.reps) fun r => !(decide (r.start ≤ t) && decide (t ≤ r.fin))
    exact { h with reps := ⟨Nat.le_trans hsub.length_le h.reps.1, fun r hr => h.reps.2 r (hsub.mem hr)⟩, pc := Nat.le_of_lt ht }
  · exact h.after 1

end

/-- The row answers a next state in which core `k` of Quire `q` is well-formed. -/
def AnswersReady (i : Instr) (s : State) (q k : Nat) : Prop := ∃ t, exec i s = .next t ∧ CoreReady t q k

section
variable {s : State} {q : Fin 16} {k : Fin 4} {w : CoreWord}

theorem IssuesReady.coreMovs (h : IssuesReady s q k w) : AnswersReady (.coreMovs q k) s q k := by
  refine ⟨_, rfl, h.coreRow fun s1 s2 hs hx => ?_⟩
  split at hx
  · cases hx
    refine hs.onCore (CoreIn.after ?_ 1)
    split
    · exact (hs.core.spec _ _ _ _).setD _ _
    · exact hs.core.setSpec _ _
  · cases hx

theorem IssuesReady.coreLds (h : IssuesReady s q k w) : AnswersReady (.coreLds q k) s q k := by
  refine ⟨_, rfl, h.coreDo fun c x hc hx => ?_⟩
  split at hx
  · cases hx
    exact hc.setSpec _ _
  · cases hx

theorem IssuesReady.coreB (h : IssuesReady s q k w) : AnswersReady (.coreB q k) s q k := by
  refine ⟨_, rfl, h.coreRow fun s1 s2 hs hx => ?_⟩
  split at hx
  · next cond t =>
    cases hx
    have hok := h.ok
    simp only [CoreWord.ok, Bool.and_eq_true, decide_eq_true_eq] at hok
    exact hs.onCore (hs.core.branch _ hok.2)
  · cases hx

/-- A call whose return address and target lie where the stack has room for them. -/
theorem IssuesReady.coreCall (h : IssuesReady s q k w) : AnswersReady (.coreCall q k) s q k := by
  refine ⟨_, rfl, h.coreRow fun s1 s2 hs hx => ?_⟩
  split at hx
  · next t =>
    have ht : t < 4096 := by simpa [CoreWord.ok] using h.ok
    split at hx
    · cases hx
      exact hs.faults 7
    · next hroom =>
      cases hx
      have hc := hs.core
      refine hs.onCore (Q := CoreIn 4096) { hc with calls := ⟨?_, ?_⟩, pc := Nat.le_of_lt ht }
      · exact Nat.succ_le_of_lt (Nat.not_le.mp hroom)
      · exact List.forall_mem_cons.mpr ⟨Nat.succ_le_succ hc.pc, hc.calls.2⟩
  · cases hx

theorem IssuesReady.coreRet (h : IssuesReady s q k w) : AnswersReady (.coreRet q k) s q k := by
  refine ⟨_, rfl, h.coreRow fun s1 s2 hs hx => ?_⟩
  split at hx
  · split at hx
    · cases hx
      exact hs.faults 7
    · next t ts hcalls =>
      cases hx
      have hc := hs.core
      obtain ⟨hlen, hmem⟩ := hc.calls
      rw [hcalls] at hlen hmem
      obtain ⟨ht, hts⟩ := List.forall_mem_cons.mp hmem
      exact hs.onCore (Q := CoreIn 4096) { hc with calls := ⟨Nat.le_of_succ_le hlen, hts⟩, pc := ht }
  · cases hx

theorem IssuesReady.coreRep (h : IssuesReady s q k w) : AnswersReady (.coreRep q k) s q k := by
  refine ⟨_, rfl, h.coreRow fun s1 s2 hs hx => ?_⟩
  split at hx
  · next r d n e =>
    have hok := h.ok
    simp only [CoreWord.ok, Bool.and_eq_true, decide_eq_true_eq] at hok
    obtain ⟨⟨-, he⟩, -⟩ := hok
    dsimp only at hx
    generalize (if r = true then ((s1.core q k).dr d).toNat else n + 1) = count at hx
    split at hx
    · cases hx
      exact hs.faults 6
    split at hx
    · cases hx
      exact hs.onCore (hs.core.repAfter he _)
    split at hx
    · cases hx
      exact hs.faults 6
    next hroom =>
      cases hx
      have hc := hs.core
      have hpc : (s1.core q k).pc + 1 ≤ 4096 := Nat.succ_le_succ hc.pc
      refine hs.onCore (Q := CoreIn 4096) { hc with reps := ⟨?_, ?_⟩, pc := hpc }
      · exact Nat.succ_le_of_lt (Nat.not_le.mp hroom)
      · exact List.forall_mem_cons.mpr ⟨hpc, hc.reps.2⟩
  · cases hx

theorem IssuesReady.coreWait (h : IssuesReady s q k w) : AnswersReady (.coreWait q k) s q k := by
  refine ⟨_, rfl, h.coreRow fun s1 s2 hs hx => ?_⟩
  split at hx
  · cases hx
    exact hs.onCore (hs.core.waitOp _ _ _)
  · cases hx

theorem IssuesReady.corePop (h : IssuesReady s q k w) : AnswersReady (.corePop q k) s q k := by
  refine ⟨_, rfl, h.coreDo fun c x hc hx => ?_⟩
  split at hx
  · cases hx
    exact hc.popOp _
  · cases hx

/-- A core's flag writes count in the core at most. -/
theorem CoreHas.coreFlags {n : Nat} {s : State} {q k : Nat} (h : CoreHas (CoreIn n) s q k) (mask value : BitVec 64) :
    CoreHas (CoreIn n) (s.coreFlags q k mask value) q k := by
  have hdenied (p : Prop) [Decidable p] :
      CoreHas (CoreIn n) (if p then s.onCore q k fun c => { c with flagDenied := inc32 c.flagDenied } else s) q k :=
    iteInduction (motive := fun t => CoreHas (CoreIn n) t q k) (fun _ => h.onAnyCore k fun _ hc => { hc with }) fun _ => h
  exact iteInduction (motive := fun t => CoreHas (CoreIn n) t q k) (fun _ => hdenied _) fun _ => (hdenied _).of_fb (State.delay_fb _ _ _)

theorem CoreHas.sendDropped {n : Nat} {s : State} {q k : Nat} (h : CoreHas (CoreIn n) s q k) (j : Nat) : CoreHas (CoreIn n) (s.sendDropped q j) q k :=
  CoreHas.of_fb (h.onAnyCore j (g := fun c => { c with sendDrop := inc32 c.sendDrop }) fun _ hc => { hc with }) (State.fireObj_fb _ _ _)

/-- A frame joins the Quire's queue, or counts in a route or a core. -/
theorem CoreHas.sendf {n : Nat} {s : State} {q k : Nat} (h : CoreHas (CoreIn n) s q k) (r : Nat) (fl : Bool) (dm dv : Nat) (dt : Bool) (dd : Nat) :
    CoreHas (CoreIn n) (s.sendf q k r fl dm dv dt dd) q k := by
  refine iteInduction (motive := fun t => CoreHas (CoreIn n) t q k) (fun _ => h.onFb rfl) fun _ =>
    iteInduction (motive := fun t => CoreHas (CoreIn n) t q k) (fun _ => h.sendDropped k) fun _ => CoreHas.onFb ?_ rfl
  split
  · exact h.sendDropped _
  · exact h

theorem IssuesReady.coreFlag (h : IssuesReady s q k w) : AnswersReady (.coreFlag q k) s q k := by
  refine ⟨_, rfl, h.coreRow fun s1 s2 hs hx => ?_⟩
  split at hx
  · cases hx
    exact (hs.coreFlags _ _).goesOn
  · cases hx

theorem IssuesReady.coreFlagg (h : IssuesReady s q k w) : AnswersReady (.coreFlagg q k) s q k := by
  refine ⟨_, rfl, h.coreRow fun s1 s2 hs hx => ?_⟩
  split at hx
  · cases hx
    exact (hs.coreFlags _ _).goesOn
  · cases hx

theorem IssuesReady.coreSendf (h : IssuesReady s q k w) : AnswersReady (.coreSendf q k) s q k := by
  refine ⟨_, rfl, h.coreRow fun s1 s2 hs hx => ?_⟩
  split at hx
  · cases hx
    exact (hs.sendf _ _ _ _ _ _).goesOn
  · cases hx

theorem IssuesReady.coreEvout (h : IssuesReady s q k w) : AnswersReady (.coreEvout q k) s q k := by
  refine ⟨_, rfl, h.coreRow fun s1 s2 hs hx => ?_⟩
  split at hx
  · cases hx
    split
    · exact (hs.of_fb (State.delay_fb _ _ _)).goesOn
    · exact hs.goesOn
  · cases hx

/-- A swap leads to an entry inside the program memory. -/
theorem CoreIn.swapped {n : Nat} {c : FbCore} (h : CoreIn n c) {t : Nat} (ht : t < 4096) (keep : Bool) : CoreIn 4096 (c.swapped t keep) := by
  cases keep
  · exact { h with d := rfl, cursors := ⟨rfl, rfl, rfl, rfl⟩, pc := Nat.le_of_lt ht, swap := fun _ hs => (nomatch hs) }
  · exact { h with pc := Nat.le_of_lt ht, swap := fun _ hs => (nomatch hs) }

theorem CoreIn.stopIf {n : Nat} {c : FbCore} (h : CoreIn n c) (p : Prop) [Decidable p] (st : CState) (cause : Nat) :
    CoreIn n (if p then c.stop st cause else c) :=
  iteInduction (fun _ => h.stop _ _) fun _ => h

theorem CoreHas.safe {s : State} {q k : Nat} (h : CoreHas (CoreIn 4095) s q k) : CoreHas (CoreIn 4096) (s.safe q k) q k := by
  cases hdue : (s.core q k).dueSwap with
  | none =>
    rw [safe_stays hdue]
    have hnext : CoreIn 4096 { (s.core q k).after 1 with safeSt := ofBool (s.core q k).atRest } := { h.core.after 1 with }
    exact h.onCore (hnext.stopIf _ _ _)
  | some e =>
    obtain ⟨entry, keep, cycle⟩ := e
    rw [safe_swaps hdue]
    have hentry : entry < 4096 := h.core.swap _ (dueSwap_swap hdue)
    exact CoreHas.of_fb (h.onCore (Q := CoreIn 4096) ((h.core.swapped hentry keep).stopIf _ _ _)) (resolve_beside _ _ _).fb

theorem IssuesReady.coreSafe (h : IssuesReady s q k w) : AnswersReady (.coreSafe q k) s q k := by
  refine ⟨_, rfl, h.coreRow fun s1 s2 hs hx => ?_⟩
  cases hx
  exact hs.safe

theorem IssuesReady.coreHalt (h : IssuesReady s q k w) : AnswersReady (.coreHalt q k) s q k :=
  ⟨_, rfl, h.coreRow fun _ _ hs hx => Option.some.inj hx ▸ hs.onCore ((hs.core.after 1).stop _ _)⟩

/-! #### All rows -/

/-- Every instruction row answers a next state in which its core is well-formed. -/
theorem IssuesReady.coreRows (h : IssuesReady s q k w) : ∀ i ∈ coreRows q k, AnswersReady i s q k := by
  have nop : CoreReady (s.coreDo q k 0x00 fun _ c => some c) q k := h.coreDo fun _ _ hc hx => Option.some.inj hx ▸ hc
  have mac (o : Nat) : CoreReady (s.coreDo q k o (FbCore.macOp o)) q k := h.coreDo fun _ _ hc hx => hc.macOp hx
  have alu (o : Nat) : CoreReady (s.coreDo q k o FbCore.aluDo) q k := h.coreDo fun _ _ hc hx => hc.aluDo hx
  have acc (sub : Nat) : CoreReady (s.coreDo q k 0x20 (FbCore.accDo sub)) q k := h.coreDo fun _ _ hc hx => hc.accDo hx
  have mem (o : Nat) : CoreReady (s.coreDo q k o FbCore.memDo) q k := h.coreDo fun _ _ hc hx => hc.memDo hx
  simp only [Machine.coreRows, List.forall_mem_append, List.forall_mem_cons]
  exact
    ⟨⟨⟨_, rfl, nop⟩, ⟨_, rfl, mac _⟩, ⟨_, rfl, mac _⟩, ⟨_, rfl, mac _⟩, ⟨_, rfl, mac _⟩,
      ⟨_, rfl, alu _⟩, ⟨_, rfl, alu _⟩, ⟨_, rfl, alu _⟩, ⟨_, rfl, alu _⟩, ⟨_, rfl, alu _⟩, ⟨_, rfl, alu _⟩,
      ⟨_, rfl, alu _⟩, ⟨_, rfl, alu _⟩, ⟨_, rfl, alu _⟩, ⟨_, rfl, alu _⟩, ⟨_, rfl, alu _⟩, ⟨_, rfl, alu _⟩,
      ⟨_, rfl, alu _⟩, ⟨_, rfl, alu _⟩, ⟨_, rfl, alu _⟩, ⟨_, rfl, alu _⟩, ⟨_, rfl, alu _⟩, ⟨_, rfl, alu _⟩,
      ⟨_, rfl, alu _⟩, ⟨_, rfl, alu _⟩, ⟨_, rfl, alu _⟩, fun _ hi => (nomatch hi)⟩,
      ⟨_, rfl, acc _⟩, ⟨_, rfl, acc _⟩, ⟨_, rfl, acc _⟩, ⟨_, rfl, acc _⟩, ⟨_, rfl, acc _⟩, ⟨_, rfl, acc _⟩,
      ⟨_, rfl, acc _⟩, ⟨_, rfl, acc _⟩, ⟨_, rfl, acc _⟩, ⟨_, rfl, acc _⟩, ⟨_, rfl, acc _⟩,
      ⟨_, rfl, mem _⟩, ⟨_, rfl, mem _⟩, h.coreMovs, h.coreLds, h.coreB, h.coreCall, h.coreRet, h.coreRep, h.coreWait, h.corePop,
      h.coreFlag, h.coreFlagg, h.coreSendf, h.coreEvout, h.coreSafe, h.coreHalt, fun _ hi => (nomatch hi)⟩

end

/-- Settles O51: whatever row it is, its instruction keeps the core's files and stacks, and its PC is judged after it. -/
theorem coreRowsKeepTheirCoreWellFormed : Obligations.CoreRowsKeepTheirCoreWellFormed := by
  intro q k i w s t hi hw hready hissue hrun ht
  obtain ⟨t', ht', hready'⟩ := (IssuesReady.mk hw hready hissue hrun).coreRows i hi
  rw [ht] at ht'
  cases ht'
  exact hready'

end Sys2Proof.Machine
end

section
/-! ## The control rows of a feedback core (R173 to R176, R190) -/
namespace Sys2Proof.Machine

section
variable {s : State} {q : Fin 16} {k : Fin 4}

/-! ### CALL, RET and REP (R173, R174) -/

theorem execCoreCall_room {t : Nat} (h : Issues s q k (.call t)) (hroom : ((issueState s q k 0x29).core q k).calls.length < 4) :
    execCoreCall q k s = .next (coreStep s q k 0x29 fun c => { c with calls := (c.pc + 1) :: c.calls, pc := t, next := c.next + 2 }) :=
  congrArg Host.Outcome.next (coreRow_step h rfl (if_neg (Nat.not_le.mpr hroom)))

theorem execCoreCall_full {t : Nat} (h : Issues s q k (.call t)) (hfull : 4 ≤ ((issueState s q k 0x29).core q k).calls.length) :
    execCoreCall q k s = .next (((issueState s q k 0x29).coreFault q k 7).corePast q k) :=
  congrArg Host.Outcome.next (coreRow_issues h rfl (if_pos hfull))

theorem execCoreRet_open {t : Nat} {ts : List Nat} (h : Issues s q k .ret) (hcalls : ((issueState s q k 0x2A).core q k).calls = t :: ts) :
    execCoreRet q k s = .next (coreStep s q k 0x2A fun c => { c with calls := ts, pc := t, next := c.next + 2 }) :=
  congrArg Host.Outcome.next (coreRow_step h rfl (by simp only [hcalls, FbCore.goto]))

theorem execCoreRet_empty (h : Issues s q k .ret) (hcalls : ((issueState s q k 0x2A).core q k).calls = []) :
    execCoreRet q k s = .next (((issueState s q k 0x2A).coreFault q k 7).corePast q k) :=
  congrArg Host.Outcome.next (coreRow_issues h rfl (by simp only [hcalls]))

/-- The iterations of a REP: a register's value, or one more than its field. -/
def FbCore.repCount (c : FbCore) (r : Bool) (d n : Nat) : Nat := if r then (c.dr d).toNat else n + 1

/-- An open level ends at the PC: a REP there faults (R174). -/
def FbCore.endsHere (c : FbCore) : Bool := c.reps.any fun y => y.fin == c.pc

variable {r : Bool} {d n e : Nat}

theorem execCoreRep_opens (h : Issues s q k (.rep r d n e)) (hend : ((issueState s q k 0x2C).core q k).endsHere = false)
    (hcount : ((issueState s q k 0x2C).core q k).repCount r d n ≠ 0) (hroom : ((issueState s q k 0x2C).core q k).reps.length < 4) :
    execCoreRep q k s = .next (coreStep s q k 0x2C fun c =>
      { c with reps := { start := c.pc + 1, fin := e, left := ((issueState s q k 0x2C).core q k).repCount r d n - 1 } :: c.reps, pc := c.pc + 1,
               next := c.next + 1 }) :=
  congrArg Host.Outcome.next (coreRow_step h rfl
    ((if_neg (Bool.eq_false_iff.mp hend)).trans ((if_neg hcount).trans (if_neg (Nat.not_le.mpr hroom)))))

theorem execCoreRep_passes (h : Issues s q k (.rep r d n e)) (hend : ((issueState s q k 0x2C).core q k).endsHere = false)
    (hcount : ((issueState s q k 0x2C).core q k).repCount r d n = 0) :
    execCoreRep q k s = .next (coreStep s q k 0x2C fun c =>
      { c with reps := (repAfter e c.reps).2, pc := (repAfter e c.reps).1, next := c.next + 2 }) :=
  congrArg Host.Outcome.next (coreRow_issues h rfl ((if_neg (Bool.eq_false_iff.mp hend)).trans (if_pos hcount)))

theorem execCoreRep_atEnd (h : Issues s q k (.rep r d n e)) (hend : ((issueState s q k 0x2C).core q k).endsHere = true) :
    execCoreRep q k s = .next (((issueState s q k 0x2C).coreFault q k 6).corePast q k) :=
  congrArg Host.Outcome.next (coreRow_issues h rfl (if_pos hend))

theorem execCoreRep_full (h : Issues s q k (.rep r d n e)) (hend : ((issueState s q k 0x2C).core q k).endsHere = false)
    (hcount : ((issueState s q k 0x2C).core q k).repCount r d n ≠ 0) (hfull : 4 ≤ ((issueState s q k 0x2C).core q k).reps.length) :
    execCoreRep q k s = .next (((issueState s q k 0x2C).coreFault q k 6).corePast q k) :=
  congrArg Host.Outcome.next (coreRow_issues h rfl ((if_neg (Bool.eq_false_iff.mp hend)).trans ((if_neg hcount).trans (if_pos hfull))))

/-! ### The ends of waits (R175) -/

variable {w : CWait}

theorem execCoreWaitRelease_delay (hwait : (s.core q k).wait = some w) (hkind : w.kind = 3) :
    execCoreWaitRelease q k s = .next (((s.advanceTo ((s.core q k).next * uCycle)).onCore q k fun c =>
      { c with st := .running, wait := none }).corePast q k) := by
  simp only [execCoreWaitRelease, hwait, hkind, if_true]

theorem execCoreWaitRelease_met {e : Nat} (hwait : (s.core q k).wait = some w) (hkind : w.kind ≠ 3) (hholds : (s.core q k).holdsAt w = some e)
    (htime : w.count = 0 ∨ e ≤ w.since + w.count) :
    execCoreWaitRelease q k s = .next (((s.advanceTo (e * uCycle)).onCore q k fun c =>
      { c with st := .running, wait := none, next := e + 2, sr := { c.sr with t := false },
               eilat := if w.kind = 1 then lput c.eilat w.ei none else c.eilat }).corePast q k) := by
  have hinTime : ¬(w.count ≠ 0 ∧ w.since + w.count < e) := by omega
  simp only [execCoreWaitRelease, hwait, hkind, hholds, hinTime, if_false]

theorem execCoreWaitTimeout_expires (hwait : (s.core q k).wait = some w) (hkind : w.kind ≠ 3) (hcount : w.count ≠ 0)
    (hlate : ∀ e, (s.core q k).holdsAt w = some e → w.since + w.count < e) :
    execCoreWaitTimeout q k s = .next (((s.advanceTo ((w.since + w.count) * uCycle)).onCore q k fun c =>
      { c with st := .running, wait := none, next := w.since + w.count + 1, sr := { c.sr with t := true } }).corePast q k) := by
  unfold execCoreWaitTimeout
  dsimp only
  rw [hwait]
  refine if_neg ?_
  rintro (hdelay | hnever | hearly)
  · exact hkind hdelay
  · exact hcount hnever
  · split at hearly
    · next e hholds => exact Nat.not_le.mpr (hlate e hholds) (of_decide_eq_true hearly)
    · cases hearly

/-! ### SAFE (R190) -/

/-- A SAFE row is the SAFE of its issue state. -/
theorem execCoreSafe_issues {t : State} (h : Issues s q k (.plain 0x3C)) (hsafe : (issueState s q k 0x3C).safe q k = t) :
    execCoreSafe q k s = .next (t.corePast q k) :=
  congrArg Host.Outcome.next (coreRow_issues h rfl (congrArg some hsafe))

theorem dueSwap_open {c : FbCore} (h : c.atRest = false) : c.dueSwap = none := by simp [FbCore.dueSwap, h]

/-- A swap armed in this cycle, or none, is not performed. -/
theorem dueSwap_idle {c : FbCore} (h : ∀ x, c.swap = some x → c.next ≤ x.2.2) : c.dueSwap = none := by
  unfold FbCore.dueSwap
  split
  · cases hswap : c.swap with
    | none => rfl
    | some x => simp [h x hswap]
  · rfl

theorem dueSwap_armed {c : FbCore} {entry cycle : Nat} {keep : Bool} (h : c.atRest = true) (hswap : c.swap = some (entry, keep, cycle))
    (hcycle : cycle < c.next) : c.dueSwap = some (entry, keep, cycle) := by
  simp [FbCore.dueSwap, h, hswap, hcycle]

theorem execCoreSafe_open (h : Issues s q k (.plain 0x3C)) (hopen : ((issueState s q k 0x3C).core q k).atRest = false) :
    execCoreSafe q k s = .next (coreStep s q k 0x3C fun c => { c.after 1 with safeSt := 0 }) :=
  execCoreSafe_issues h ((safe_stays (dueSwap_open hopen)).trans (by simp [hopen, ofBool]))

theorem execCoreSafe_goesOn (h : Issues s q k (.plain 0x3C)) (hrest : ((issueState s q k 0x3C).core q k).atRest = true)
    (hdue : ((issueState s q k 0x3C).core q k).dueSwap = none) (hstop : ((issueState s q k 0x3C).core q k).stopSafe = false) :
    execCoreSafe q k s = .next (coreStep s q k 0x3C fun c => { c.after 1 with safeSt := 1 }) :=
  execCoreSafe_issues h ((safe_stays hdue).trans (by simp [hrest, hstop, ofBool]))

theorem execCoreSafe_stops (h : Issues s q k (.plain 0x3C)) (hrest : ((issueState s q k 0x3C).core q k).atRest = true)
    (hdue : ((issueState s q k 0x3C).core q k).dueSwap = none) (hstop : ((issueState s q k 0x3C).core q k).stopSafe = true) :
    execCoreSafe q k s = .next (coreStep s q k 0x3C fun c => ({ c.after 1 with safeSt := 1 } : FbCore).stop .halted 2) :=
  execCoreSafe_issues h ((safe_stays hdue).trans (by simp [hrest, hstop, ofBool]))

end

/-- Settles O32: each clause is the law of its row above. -/
theorem coreControlRowsComplete : Obligations.CoreControlRowsComplete := by
  refine ⟨?nop, ?branch, fun _ _ _ _ => execCoreCall_room, fun _ _ _ _ => execCoreCall_full, fun _ _ _ _ _ => execCoreRet_open,
    fun _ _ _ => execCoreRet_empty, ?rep, ?wait, fun _ _ _ _ => execCoreWaitRelease_delay, fun _ _ _ _ _ => execCoreWaitRelease_met,
    fun _ _ _ _ => execCoreWaitTimeout_expires, ?safe, ?halt⟩
  case nop => exact fun q k s h => congrArg Host.Outcome.next (coreDo_issues h rfl fun _ => rfl)
  case branch => exact fun q k s cd t h => congrArg Host.Outcome.next (coreRow_step h rfl rfl)
  case rep =>
    exact fun q k s r d n e h => ⟨execCoreRep_opens h, execCoreRep_passes h, execCoreRep_atEnd h, execCoreRep_full h⟩
  case wait => exact fun q k s kd ei n h => congrArg Host.Outcome.next (coreRow_step h rfl rfl)
  case halt => exact fun q k s h => congrArg Host.Outcome.next (coreRow_step h rfl rfl)
  case safe =>
    intro q k s h x isOpen idle
    have hrest : x.atRest = !isOpen := (Bool.not_not _).symm
    have hidle (hi : idle = true) : x.dueSwap = none := dueSwap_idle fun y hy => by simpa [idle, hy] using hi
    refine ⟨fun ho => ?openLevel, fun ho hi hstop => ?goesOn, fun ho hi hstop => ?stops, fun entry cycle keep ho hswap hcycle => ?swaps⟩
    case openLevel => exact execCoreSafe_open h (hrest.trans (congrArg Bool.not ho))
    case goesOn => exact execCoreSafe_goesOn h (hrest.trans (congrArg Bool.not ho)) (hidle hi) hstop
    case stops => exact execCoreSafe_stops h (hrest.trans (congrArg Bool.not ho)) (hidle hi) hstop
    case swaps =>
      have hdue : x.dueSwap = some (entry, keep, cycle) := dueSwap_armed (hrest.trans (congrArg Bool.not ho)) hswap hcycle
      refine execCoreSafe_issues h ((safe_swaps hdue).trans ?_)
      cases keep <;> rfl

end Sys2Proof.Machine
end

section
/-! ## The output rows of a feedback core, and the frames between cores (R180, R181, R184, R186) -/
namespace Sys2Proof.Machine

section
variable {s : State} {q : Fin 16} {k : Fin 4}

theorem execCoreEvout_channel {e : Nat} (h : Issues s q k (.evout e)) (hch : lget 0xFFFF ((issueState s q k 0x33).core q k).cfg.evo e < 256) :
    execCoreEvout q k s = .next ((((issueState s q k 0x33).delay ((((issueState s q k 0x33).core q k).next + 1) * uCycle)
      (.evout q k (lget 0xFFFF ((issueState s q k 0x33).core q k).cfg.evo e))).onCore q k fun c => c.after 1).corePast q k) :=
  congrArg Host.Outcome.next (coreRow_issues h rfl (congrArg (fun t : State => some (t.onCore q k fun c => c.after 1)) (if_pos hch)))

theorem execCoreEvout_none {e : Nat} (h : Issues s q k (.evout e)) (hch : 256 ≤ lget 0xFFFF ((issueState s q k 0x33).core q k).cfg.evo e) :
    execCoreEvout q k s = .next (coreStep s q k 0x33 fun c => c.after 1) :=
  congrArg Host.Outcome.next
    (coreRow_step h rfl (congrArg (fun t : State => some (t.onCore q k fun c => c.after 1)) (if_neg (Nat.not_lt.mpr hch))))

/-! ### The send queue (R184) -/

/-- The cycle in which a Quire launches a frame of its queue: the third after its issue, and the second after the launch before. -/
def FbQuire.launchAt (b : FbQuire) (x : FbSend) : Nat := max (x.issue + 3) (match b.lastLaunch with | some n => n + 2 | none => 0)

/-- The state in which a frame has left its Quire's queue. -/
def State.launched (s : State) (q : Nat) (x : FbSend) (rest : List FbSend) : State :=
  ((s.advanceTo ((s.fbq q).launchAt x * uCycle)).onFb q fun b => { b with sendq := rest, lastLaunch := some ((s.fbq q).launchAt x) }).onCore q x.core
    fun c => { c with framesSent := inc32 c.framesSent }

variable {x : FbSend} {rest : List FbSend}

theorem execSendQueueLaunch_here (hq : (s.fbq q).sendq = x :: rest) (hport : x.port = 0) :
    execSendQueueLaunch q s = .next (((s.launched q x rest).onFb q fun b =>
      { b with routes := tmod .reset b.routes x.route fun r => { r with sent := inc32 r.sent } }).onFb (Sys2Proof.u x.payload 0 1 % 16) fun b =>
        { b with inbound := insFlight { arrive := (s.fbq q).launchAt x + 14, order := q, remote := false, payload := x.payload } b.inbound }) := by
  unfold execSendQueueLaunch
  dsimp only
  rw [hq]
  exact if_pos hport

theorem execSendQueueLaunch_away (hq : (s.fbq q).sendq = x :: rest) (hport : x.port ≠ 0) :
    execSendQueueLaunch q s = .next ((s.launched q x rest).delay (((s.fbq q).launchAt x + 14) * uCycle)
      (.fbOut q x.core x.route x.port x.addr x.payload)) := by
  unfold execSendQueueLaunch
  dsimp only
  rw [hq]
  exact if_neg hport

/-! ### Frames that arrive (R186) -/

/-- The state in which a frame on its way to a Quire has arrived. -/
def State.frameArrived (s : State) (q : Nat) (y : FbFlight) (rest : List FbFlight) : State :=
  (s.advanceTo (y.arrive * uCycle)).onFb q fun b => { b with inbound := rest }

/-- A frame for a core of a Quire in CONTROL is counted, and its flag writes come first. -/
def State.frameCounted (s : State) (q : Nat) (y : FbFlight) : State :=
  let s1 := s.onCore q (Sys2Proof.u y.payload 1 1 % 4) fun c => { c with framesRecv := inc32 c.framesRecv }
  if bitOf (Sys2Proof.u y.payload 1 1) 2 then
    s1.frameFlags q y.arrive (Sys2Proof.u y.payload 4 1 % 4) (BitVec.ofNat 16 (Sys2Proof.u y.payload 6 2))
      (BitVec.ofNat 16 (Sys2Proof.u y.payload 8 2))
  else s1

variable {y : FbFlight} {flights : List FbFlight}

theorem execFeedbackFrameReceive_denied (hin : (s.fbq q).inbound = y :: flights) (hpers : (s.frameArrived q y flights).pers q ≠ .control) :
    execFeedbackFrameReceive q s =
      .next ((s.frameArrived q y flights).onFb q fun b => { b with remoteDenied := inc32 b.remoteDenied }) := by
  unfold execFeedbackFrameReceive
  rw [hin]
  exact if_pos (bne_iff_ne.mpr hpers)

theorem execFeedbackFrameReceive_control (hin : (s.fbq q).inbound = y :: flights) (hpers : (s.frameArrived q y flights).pers q = .control) :
    execFeedbackFrameReceive q s = .next (if bitOf (Sys2Proof.u y.payload 1 1) 3 then
      ((s.frameArrived q y flights).frameCounted q y).frameData q (Sys2Proof.u y.payload 1 1 % 4) y.arrive y.remote y.payload
      else (s.frameArrived q y flights).frameCounted q y) := by
  unfold execFeedbackFrameReceive
  rw [hin]
  exact if_neg fun hne => bne_iff_ne.mp hne hpers

end

/-- Settles O33: each clause is the law of its row above. -/
theorem coreOutputRowsComplete : Obligations.CoreOutputRowsComplete := by
  refine ⟨?flag, ?flagg, ?sendf, ?evout, ?launch, ?receive⟩
  case flag => exact fun q k s f m a h => congrArg Host.Outcome.next (coreRow_issues h rfl rfl)
  case flagg => exact fun q k s g dm dv h => congrArg Host.Outcome.next (coreRow_issues h rfl rfl)
  case sendf => exact fun q k s r dm dv dd fl dt h => congrArg Host.Outcome.next (coreRow_issues h rfl rfl)
  case evout => exact fun q k s e h => ⟨execCoreEvout_channel h, execCoreEvout_none h⟩
  case launch => exact fun q s x rest hq => ⟨execSendQueueLaunch_here hq, execSendQueueLaunch_away hq⟩
  case receive => exact fun q s y rest hin => ⟨execFeedbackFrameReceive_denied hin, execFeedbackFrameReceive_control hin⟩

end Sys2Proof.Machine
end

section
/-! ## Frames on the array links (R186, R317, R318, R321, R327) -/
namespace Sys2Proof.Machine

section
variable {s s1 : State} {p : Nat} {w : Bool} {b : List Byte} {h : Hdr}

/-- A frame of the row's class that passes the checks takes its place in link order. -/
theorem State.linkFrame_passes {cls : Nat} (hhears : s.hears p = true) (hin : s.frameIn p w b = (s1, some h)) (hcls : h.cls = cls) :
    s.linkFrame p cls w b = s1.inOrder p (Sys2Proof.u b 8 4) b := by
  simp [State.linkFrame, hhears, hin, hcls]

/-- The PSEQ of a frame can be read: it is whole, its CRC holds and its class has one (R318). -/
def pseqReadable (w : Bool) (b : List Byte) : Bool :=
  w && decide (20 ≤ b.length) && leNat (b.drop (b.length - 4)) == (crc32c (b.take (b.length - 4))).toNat && !preClass (hdrOf b).cls

/-- A frame that fails the checks keeps its place in the order where its PSEQ can be read. -/
theorem State.linkFrame_fails (cls : Nat) (hhears : s.hears p = true) (hin : s.frameIn p w b = (s1, none)) :
    s.linkFrame p cls w b = if pseqReadable w b then s1.inOrder p (Sys2Proof.u b 8 4) [] else s1 := by
  simp [State.linkFrame, hhears, hin, pseqReadable]

end

section
variable {s s1 : State} {p : Fin 4} {w : Bool} {b : List Byte} {h : Hdr}

/-! ### FEEDBACK frames (R186, R188) -/

theorem execFeedbackFrameLink_fails (hhears : s.hears p = true) (hin : s.frameIn p w b = (s1, none)) : execFeedbackFrameLink p w b s = .next s1 := by
  simp [execFeedbackFrameLink, hhears, hin]

theorem execFeedbackFrameLink_relays (hhears : s.hears p = true) (hin : s.frameIn p w b = (s1, some h)) (hcls : h.cls = 2)
    (hdest : h.dest ≠ s.dev.addr) :
    execFeedbackFrameLink p w b s = .next (s1.relay p h (slice b 8 16)) := by
  simp [execFeedbackFrameLink, hhears, hin, hcls, hdest]

theorem execFeedbackFrameLink_joins (hhears : s.hears p = true) (hin : s.frameIn p w b = (s1, some h)) (hcls : h.cls = 2) (hdest : h.dest = s.dev.addr)
    (hquire : Sys2Proof.u (slice b 8 16) 0 1 < 16) :
    execFeedbackFrameLink p w b s = .next (s1.onFb (Sys2Proof.u (slice b 8 16) 0 1) fun y =>
      { y with inbound := insFlight { arrive := cycleAt s1.now + 14, order := 16, remote := true, payload := slice b 8 16 } y.inbound }) := by
  simp [execFeedbackFrameLink, hhears, hin, hcls, hdest, Nat.not_le.mpr hquire]

theorem execFeedbackFrameLink_drops (hhears : s.hears p = true) (hin : s.frameIn p w b = (s1, some h)) (hcls : h.cls = 2) (hdest : h.dest = s.dev.addr)
    (hquire : 16 ≤ Sys2Proof.u (slice b 8 16) 0 1) : execFeedbackFrameLink p w b s = .next s1 := by
  simp [execFeedbackFrameLink, hhears, hin, hcls, hdest, hquire]

/-! ### The ends of waits for a frame (R317, R327) -/

theorem execReorderHoldExpiry_held {f : HeldFrame} (hheld : (s.port p).firstHeld = some f) :
    let s1 := s.advanceTo ((s.port p).held.foldl (fun (t : Nat) x => min t x.at') f.at' + 20 * uUs)
    let n := (f.pseq + 2 ^ 32 - ((s1.port p).pseqRx.getD f.pseq)) % 2 ^ 32
    let s2 := s1.onPort p fun y =>
      { y with counts := lput y.counts PCount.lost.idx (satAdd 32 (lget 0 y.counts PCount.lost.idx) n), pseqRx := some f.pseq }
    execReorderHoldExpiry p s = .next (s2.flushHeld p (s2.port p).held.length) := by
  unfold execReorderHoldExpiry
  rw [hheld]

theorem execPeerDeadline_waiting {i : BitVec 32} {x : PeerCmd} (hpeer : ((s.port p).peers.find? fun x => x.seq == i.toNat) = some x) :
    execPeerDeadline p i s =
      .next ((((s.advanceTo (x.sentAt + (s.port p).peerMs * uMs)).countPort p .peerTimeout).onPort p fun y =>
        { y with peers := y.peers.filter fun z => z.id != x.id }).failWait (wait .peerCmd p x.id) (err Status.ePeerDown (p + 1))) := by
  unfold execPeerDeadline
  rw [hpeer]

end

/-- Settles O37: each clause is the law of its row above. -/
theorem linkFrameRowsComplete : Obligations.LinkFrameRowsComplete := by
  refine ⟨?passes, ?fails, fun _ _ _ => execReorderHoldExpiry_held, fun _ _ _ _ => execPeerDeadline_waiting⟩
  case passes =>
    exact fun p w b s s1 h hh hin =>
      ⟨fun hc => congrArg Host.Outcome.next (State.linkFrame_passes hh hin hc), fun hc => congrArg Host.Outcome.next (State.linkFrame_passes hh hin hc),
        fun hc => congrArg Host.Outcome.next (State.linkFrame_passes hh hin hc), execFeedbackFrameLink_relays hh hin, execFeedbackFrameLink_joins hh hin,
        execFeedbackFrameLink_drops hh hin⟩
  case fails =>
    exact fun p w b s s1 hh hin =>
      ⟨congrArg Host.Outcome.next (State.linkFrame_fails 3 hh hin), congrArg Host.Outcome.next (State.linkFrame_fails 4 hh hin),
        congrArg Host.Outcome.next (State.linkFrame_fails 5 hh hin), execFeedbackFrameLink_fails hh hin⟩

end Sys2Proof.Machine
end

section
/-! ## Little-endian fields (00, R9) and the bytes of a device time (R342)

A byte string spells its number in base 256, so a field of it is a range of the number's bits. -/
namespace Sys2Proof.Machine

theorem leNat_leBytes (n v : Nat) : leNat (leBytes n v) = v % 2 ^ (8 * n) := by
  induction n generalizing v with
  | zero => simp [leBytes, leNat, Nat.mod_one]
  | succ n ih => rw [leBytes, leNat, ih, BitVec.toNat_ofNat, Nat.mul_succ, Nat.add_comm (8 * n), Nat.pow_add, Nat.mod_mul]

theorem leNat_drop (off : Nat) (bs : List Byte) : leNat (bs.drop off) = leNat bs / 2 ^ (8 * off) := by
  induction off generalizing bs with
  | zero => simp
  | succ off ih =>
    cases bs with
    | nil => simp [leNat]
    | cons b bs =>
      have hhead : (b.toNat + 256 * leNat bs) / 2 ^ 8 = leNat bs := by omega
      rw [List.drop_succ_cons, ih, leNat, Nat.mul_succ, Nat.add_comm (8 * off), Nat.pow_add, ← Nat.div_div_eq_div_mul, hhead]

theorem leNat_take (n : Nat) (bs : List Byte) : leNat (bs.take n) = leNat bs % 2 ^ (8 * n) := by
  induction n generalizing bs with
  | zero => simp [leNat, Nat.mod_one]
  | succ n ih =>
    cases bs with
    | nil => simp [leNat]
    | cons b bs =>
      have hlow : (b.toNat + 256 * leNat bs) % 2 ^ 8 = b.toNat := by omega
      have hhigh : (b.toNat + 256 * leNat bs) / 2 ^ 8 = leNat bs := by omega
      rw [List.take_succ_cons, leNat, ih, leNat, Nat.mul_succ, Nat.add_comm (8 * n), Nat.pow_add, Nat.mod_mul, hlow, hhigh]

theorem leNat_slice (bs : List Byte) (off n : Nat) : leNat (slice bs off n) = bits (leNat bs) (8 * off) (8 * n) := by
  rw [slice, leNat_take, leNat_drop, bits]

/-- NS is the four bytes from the second on: the one field of a device time that R342 keeps in a range of its own. -/
theorem dtOf_eq_none {b : List Byte} (h : b.length = 12) : dtOf b = none ↔ 999999999 < leNat (slice b 2 4) := by
  simp [dtOf, leNat_slice, List.take_of_length_le (Nat.le_of_eq h)]

/-- FRAC, NS and SEC lie side by side in 96 bits: each is read back from the sum that spells them. -/
theorem bits_of_timeFields {frac ns sec : Nat} (hfrac : frac < 2 ^ 16) (hns : ns < 2 ^ 32) (hsec : sec < 2 ^ 48) :
    let v := frac + ns * 2 ^ 16 + sec * 2 ^ 48
    v < 2 ^ 96 ∧ bits v 0 16 = frac ∧ bits v 16 32 = ns ∧ bits v 48 48 = sec := by
  simp only [bits]
  omega

/-- 12 bytes that spell a FRAC, an NS in range and a SEC spell the time that these make up. -/
theorem dtOf_timeFields {frac ns sec : Nat} (hfrac : frac < 2 ^ 16) (hns : ns ≤ 999999999) (hsec : sec < 2 ^ 48) :
    dtOf (leBytes 12 (frac + ns * 2 ^ 16 + sec * 2 ^ 48)) = some (frac * 25 + ns * uNs + sec * uS) := by
  have hns32 : ns < 2 ^ 32 := by omega
  obtain ⟨hv, hf, hn, hs⟩ := bits_of_timeFields hfrac hns32 hsec
  rw [dtOf, List.take_of_length_le (Nat.le_of_eq (leBytes_length 12 _)), leNat_leBytes, Nat.mod_eq_of_lt hv, hf, hn, hs, if_pos hns]

/-- A time in whole units of 2^-16 ns is the sum of its FRAC, NS and SEC. -/
theorem timeFields_sum {t : Nat} (hunit : t % 25 = 0) : t % uNs / 25 * 25 + t / uNs % 1000000000 * uNs + t / uS * uS = t := by
  simp only [uNs, uS]
  omega

theorem dtOf_dtBytes {t : Nat} (hunit : t % 25 = 0) (ht : t < 2 ^ 48 * uS) : dtOf (dtBytes t) = some t := by
  have hfrac : t % uNs / 25 < 2 ^ 16 := by simp only [uNs]; omega
  have hns : t / uNs % 1000000000 ≤ 999999999 := by omega
  have hsec : t / uS < 2 ^ 48 := Nat.div_lt_of_lt_mul (Nat.mul_comm _ _ ▸ ht)
  rw [dtBytes, Nat.mod_eq_of_lt hsec, dtOf_timeFields hfrac hns hsec, timeFields_sum hunit]

/-- Settles O46: the fields of a device time are disjoint bit ranges of its 12 bytes, and NS alone has a bound to break. -/
theorem deviceTimeFieldsRoundTrip : Obligations.DeviceTimeFieldsRoundTrip :=
  ⟨fun _ hunit ht => ⟨leBytes_length 12 _, dtOf_dtBytes hunit ht⟩, fun _ => dtOf_eq_none⟩

end Sys2Proof.Machine
end

section
/-! ## The loop check of the event fabric (14, R511)

Every round of `evPrune` drops the edges that leave a node which no edge enters. What is left at the end is the largest set of edges each of which leaves a
node that one of them enters. The edges of a cycle are such a set, and each such set that is not empty holds a cycle. -/
namespace Sys2Proof.Machine

/-- Some edge enters node `a`. -/
def entered (es : List (Nat × Nat)) (a : Nat) : Prop := ∃ e ∈ es, e.2 = a

/-- Every edge leaves a node that an edge enters: a round of `evPrune` drops nothing. -/
def AllEntered (es : List (Nat × Nat)) : Prop := ∀ e ∈ es, entered es e.1

/-- Every edge leaves a node below 256, as a channel is. -/
def FromChannels (es : List (Nat × Nat)) : Prop := ∀ e ∈ es, e.1 < 256

/-- The channels that an edge leaves. -/
def sources (es : List (Nat × Nat)) : List Nat := (List.range 256).filter fun a => es.any fun e => e.1 == a

/-- Some edges form a closed walk, a self-edge included: `EvCycle` for any list of edges. -/
def EdgeCycle (es : List (Nat × Nat)) : Prop :=
  ∃ (n : Nat) (c : Nat → Nat), 0 < n ∧ c n = c 0 ∧ ∀ i, i < n → (c i, c (i + 1)) ∈ es

theorem evCycle_iff_edgeCycle {t : List (Nat × EvChan)} : EvCycle t ↔ EdgeCycle (evEdges t) := Iff.rfl

theorem entered_mono {es fs : List (Nat × Nat)} {a : Nat} (hsub : es ⊆ fs) : entered es a → entered fs a :=
  fun ⟨e, he, hea⟩ => ⟨e, hsub he, hea⟩

theorem sources_length_le (es : List (Nat × Nat)) : (sources es).length ≤ 256 := by
  have h := List.length_filter_le (fun a => es.any fun e => e.1 == a) (List.range 256)
  rwa [List.length_range] at h

theorem mem_sources {es : List (Nat × Nat)} {e : Nat × Nat} (hchan : FromChannels es) (he : e ∈ es) : e.1 ∈ sources es :=
  List.mem_filter.mpr ⟨List.mem_range.mpr (hchan e he), List.any_eq_true.mpr ⟨e, he, beq_self_eq_true e.1⟩⟩

theorem EdgeCycle.mono {es fs : List (Nat × Nat)} (hsub : es ⊆ fs) : EdgeCycle es → EdgeCycle fs :=
  fun ⟨n, c, hpos, hclosed, hedge⟩ => ⟨n, c, hpos, hclosed, fun i hi => hsub (hedge i hi)⟩

/-! ### Rounds of the pruning -/

/-- One round: the edges that leave a node which an edge enters. -/
def pruneRound (es : List (Nat × Nat)) : List (Nat × Nat) := es.filter fun (a, _) => es.any fun (_, b) => a == b

theorem any_eq_true_iff_entered {es : List (Nat × Nat)} {a : Nat} : (es.any fun (_, b) => a == b) = true ↔ entered es a := by
  simp only [entered, List.any_eq_true, beq_iff_eq, @eq_comm Nat a]

theorem mem_pruneRound {es : List (Nat × Nat)} {e : Nat × Nat} : e ∈ pruneRound es ↔ e ∈ es ∧ entered es e.1 := by
  rw [pruneRound, List.mem_filter, any_eq_true_iff_entered]

theorem pruneRound_fromChannels {es : List (Nat × Nat)} (h : FromChannels es) : FromChannels (pruneRound es) :=
  fun e he => h e (mem_pruneRound.mp he).1

theorem pruneRound_subset (es : List (Nat × Nat)) : pruneRound es ⊆ es := fun _ he => (mem_pruneRound.mp he).1

theorem pruneRound_length_eq_iff {es : List (Nat × Nat)} : (pruneRound es).length = es.length ↔ AllEntered es := by
  rw [pruneRound, List.length_filter_eq_length_iff]
  exact ⟨fun h e he => any_eq_true_iff_entered.mp (h e he), fun h e he => any_eq_true_iff_entered.mpr (h e he)⟩

theorem evPrune_succ_of_allEntered {es : List (Nat × Nat)} (n : Nat) (h : AllEntered es) : evPrune (n + 1) es = es :=
  if_pos (pruneRound_length_eq_iff.mpr h)

theorem evPrune_succ_of_not_allEntered {es : List (Nat × Nat)} (n : Nat) (h : ¬ AllEntered es) :
    evPrune (n + 1) es = evPrune n (pruneRound es) :=
  if_neg (mt pruneRound_length_eq_iff.mp h)

theorem evPrune_subset (n : Nat) (es : List (Nat × Nat)) : evPrune n es ⊆ es := by
  induction n generalizing es with
  | zero => exact List.Subset.refl es
  | succ n ih =>
    by_cases h : AllEntered es
    · rw [evPrune_succ_of_allEntered n h]
      exact List.Subset.refl es
    · rw [evPrune_succ_of_not_allEntered n h]
      exact List.Subset.trans (ih (pruneRound es)) (pruneRound_subset es)

/-- Whether an edge goes depends on its source alone: a round keeps the sources that an edge enters, each with all its edges. -/
theorem sources_pruneRound (es : List (Nat × Nat)) :
    sources (pruneRound es) = (sources es).filter fun a => es.any fun (_, b) => a == b := by
  rw [sources, sources, List.filter_filter]
  refine List.filter_congr fun a _ => Bool.eq_iff_iff.mpr ?_
  rw [Bool.and_eq_true, any_eq_true_iff_entered, List.any_eq_true, List.any_eq_true]
  constructor
  · rintro ⟨e, he, hea⟩
    obtain ⟨hmem, hent⟩ := mem_pruneRound.mp he
    exact ⟨beq_iff_eq.mp hea ▸ hent, e, hmem, hea⟩
  · rintro ⟨hent, e, hmem, hea⟩
    exact ⟨e, mem_pruneRound.mpr ⟨hmem, (beq_iff_eq.mp hea).symm ▸ hent⟩, hea⟩

theorem sources_pruneRound_length_lt {es : List (Nat × Nat)} (hchan : FromChannels es) (h : ¬ AllEntered es) :
    (sources (pruneRound es)).length < (sources es).length := by
  obtain ⟨e, hdropped⟩ := Classical.not_forall.mp h
  obtain ⟨he, hnot⟩ := Classical.not_imp.mp hdropped
  rw [sources_pruneRound, List.length_filter_lt_length_iff_exists]
  exact ⟨e.1, mem_sources hchan he, mt any_eq_true_iff_entered.mp hnot⟩

/-- With more rounds than sources the pruning ends where a further round drops nothing. -/
theorem evPrune_allEntered {n : Nat} {es : List (Nat × Nat)} (hchan : FromChannels es) (hn : (sources es).length < n) : AllEntered (evPrune n es) := by
  induction n generalizing es with
  | zero => exact absurd hn (Nat.not_lt_zero _)
  | succ n ih =>
    by_cases h : AllEntered es
    · rwa [evPrune_succ_of_allEntered n h]
    · rw [evPrune_succ_of_not_allEntered n h]
      exact ih (pruneRound_fromChannels hchan) (Nat.lt_of_lt_of_le (sources_pruneRound_length_lt hchan h) (Nat.le_of_lt_succ hn))

/-- No round drops an edge of a set that keeps its own sources entered. -/
theorem subset_evPrune {n : Nat} {cs es : List (Nat × Nat)} (hcs : AllEntered cs) (hsub : cs ⊆ es) : cs ⊆ evPrune n es := by
  induction n generalizing es with
  | zero => exact hsub
  | succ n ih =>
    by_cases h : AllEntered es
    · rwa [evPrune_succ_of_allEntered n h]
    · rw [evPrune_succ_of_not_allEntered n h]
      exact ih fun e he => mem_pruneRound.mpr ⟨hsub he, entered_mono hsub (hcs e he)⟩

/-! ### Cycles -/

/-- The first `n` edges of a walk. -/
def walkEdges (n : Nat) (c : Nat → Nat) : List (Nat × Nat) := (List.range n).map fun i => (c i, c (i + 1))

theorem mem_walkEdges {n : Nat} {c : Nat → Nat} {e : Nat × Nat} : e ∈ walkEdges n c ↔ ∃ i < n, (c i, c (i + 1)) = e := by
  simp only [walkEdges, List.mem_map, List.mem_range]

/-- Each node of a closed walk is entered from the one before it, the first from the last. -/
theorem walkEdges_allEntered {n : Nat} {c : Nat → Nat} (hclosed : c n = c 0) : AllEntered (walkEdges n c) := by
  intro e he
  obtain ⟨i, hi, rfl⟩ := mem_walkEdges.mp he
  cases i with
  | zero => exact ⟨_, mem_walkEdges.mpr ⟨n - 1, by omega, rfl⟩, by rw [Nat.sub_add_cancel hi, hclosed]⟩
  | succ i => exact ⟨_, mem_walkEdges.mpr ⟨i, by omega, rfl⟩, rfl⟩

theorem EdgeCycle.exists_allEntered {es : List (Nat × Nat)} (h : EdgeCycle es) : ∃ cs, cs ≠ [] ∧ cs ⊆ es ∧ AllEntered cs := by
  obtain ⟨n, c, hpos, hclosed, hedge⟩ := h
  refine ⟨walkEdges n c, List.ne_nil_of_mem (mem_walkEdges.mpr ⟨0, hpos, rfl⟩), fun e he => ?_, walkEdges_allEntered hclosed⟩
  obtain ⟨i, hi, rfl⟩ := mem_walkEdges.mp he
  exact hedge i hi

/-- A sequence below a bound takes some value twice. -/
theorem exists_repeated_value {bound : Nat} {f : Nat → Nat} (h : ∀ k, f k < bound) : ∃ i j, i < j ∧ f i = f j := by
  induction bound generalizing f with
  | zero => exact absurd (h 0) (Nat.not_lt_zero _)
  | succ b ih =>
    by_cases hhit : ∃ i, f i = b
    · obtain ⟨i, hi⟩ := hhit
      by_cases hagain : ∃ j, i < j ∧ f j = b
      · obtain ⟨j, hij, hj⟩ := hagain
        exact ⟨i, j, hij, hi.trans hj.symm⟩
      · have hlater : ∀ k, f (i + 1 + k) < b := fun k =>
          Nat.lt_of_le_of_ne (Nat.le_of_lt_succ (h _)) fun hk => hagain ⟨i + 1 + k, by omega, hk⟩
        obtain ⟨x, y, hxy, heq⟩ := ih hlater
        exact ⟨i + 1 + x, i + 1 + y, Nat.add_lt_add_left hxy _, heq⟩
    · exact ih fun k => Nat.lt_of_le_of_ne (Nat.le_of_lt_succ (h k)) fun hk => hhit ⟨k, hk⟩

/-- The first edge that enters the source of `e`. -/
def edgeBefore (es : List (Nat × Nat)) (e : Nat × Nat) : Nat × Nat := (es.find? fun p => p.2 == e.1).getD e

/-- The walk backwards from `e`, one edge to the next. -/
def walkBack (es : List (Nat × Nat)) (e : Nat × Nat) : Nat → Nat × Nat
  | 0 => e
  | k + 1 => edgeBefore es (walkBack es e k)

theorem edgeBefore_spec {es : List (Nat × Nat)} {e : Nat × Nat} (h : entered es e.1) :
    edgeBefore es e ∈ es ∧ (edgeBefore es e).2 = e.1 := by
  rw [edgeBefore]
  cases hfind : es.find? fun p => p.2 == e.1 with
  | some p => exact ⟨List.mem_of_find?_eq_some hfind, beq_iff_eq.mp (List.find?_some hfind :)⟩
  | none =>
    obtain ⟨p, hp, hpe⟩ := h
    exact absurd (beq_iff_eq.mpr hpe) (List.find?_eq_none.mp hfind p hp)

theorem walkBack_mem {es : List (Nat × Nat)} {e : Nat × Nat} (h : AllEntered es) (he : e ∈ es) (k : Nat) : walkBack es e k ∈ es := by
  induction k with
  | zero => exact he
  | succ k ih => exact (edgeBefore_spec (h _ ih)).1

theorem walkBack_succ_snd {es : List (Nat × Nat)} {e : Nat × Nat} (h : AllEntered es) (he : e ∈ es) (k : Nat) :
    (walkBack es e (k + 1)).2 = (walkBack es e k).1 :=
  (edgeBefore_spec (h _ (walkBack_mem h he k))).2

/-- A walk backwards comes to a source for the second time, and from there to the first time it is, read forwards, a cycle. -/
theorem AllEntered.edgeCycle {es : List (Nat × Nat)} (hchan : FromChannels es) (h : AllEntered es) (hne : es ≠ []) : EdgeCycle es := by
  obtain ⟨e, he⟩ := List.exists_mem_of_ne_nil es hne
  obtain ⟨i, j, hij, hsame⟩ := exists_repeated_value fun k => hchan _ (walkBack_mem h he k)
  have hclosed : (walkBack es e (j - (j - i))).1 = (walkBack es e (j - 0)).1 := by
    rw [Nat.sub_sub_self (Nat.le_of_lt hij), Nat.sub_zero, hsame]
  have hedge : ∀ k < j - i, ((walkBack es e (j - k)).1, (walkBack es e (j - (k + 1))).1) ∈ es := fun k hk => by
    have hback : j - (k + 1) + 1 = j - k := by omega
    rw [← walkBack_succ_snd h he (j - (k + 1)), hback]
    exact walkBack_mem h he (j - k)
  exact ⟨j - i, fun k => (walkBack es e (j - k)).1, Nat.sub_pos_of_lt hij, hclosed, hedge⟩

theorem evPrune_ne_nil_iff_edgeCycle {n : Nat} {es : List (Nat × Nat)} (hchan : FromChannels es) (hn : 256 < n) :
    evPrune n es ≠ [] ↔ EdgeCycle es := by
  constructor
  · intro hne
    have hsub : evPrune n es ⊆ es := evPrune_subset n es
    have hend : AllEntered (evPrune n es) := evPrune_allEntered hchan (Nat.lt_of_le_of_lt (sources_length_le es) hn)
    exact (hend.edgeCycle (fun e he => hchan e (hsub he)) hne).mono hsub
  · intro h hnil
    obtain ⟨cs, hne, hsub, hcs⟩ := h.exists_allEntered
    exact hne (List.eq_nil_of_subset_nil (hnil ▸ subset_evPrune hcs hsub))

/-! ### The check -/

/-- An edge of R511 leaves a channel of the table. -/
theorem exists_chan_of_mem_evEdges {t : List (Nat × EvChan)} {e : Nat × Nat} (h : e ∈ evEdges t) : ∃ x ∈ t, x.1 = e.1 := by
  obtain ⟨x, hx, he⟩ := List.mem_flatMap.mp h
  refine ⟨x, hx, ?_⟩
  rcases List.mem_append.mp he with hforward | hobject
  · obtain ⟨r, -, rfl⟩ := List.mem_map.mp hforward
    rfl
  · obtain ⟨o, -, ho⟩ := List.mem_flatMap.mp hobject
    obtain ⟨b, -, rfl⟩ := List.mem_map.mp ho
    rfl

theorem evEdges_fromChannels {t : List (Nat × EvChan)} (h : ∀ x ∈ t, x.1 < 256) : FromChannels (evEdges t) := fun _ he => by
  obtain ⟨x, hx, hxe⟩ := exists_chan_of_mem_evEdges he
  exact hxe ▸ h x hx

theorem evLoop_eq_true_iff {t : List (Nat × EvChan)} : evLoop t = true ↔ evPrune 257 (evEdges t) ≠ [] := by
  rw [evLoop, Bool.not_eq_true', Bool.eq_false_iff, Ne, List.isEmpty_iff]

theorem evLoop_iff_evCycle {t : List (Nat × EvChan)} (h : ∀ x ∈ t, x.1 < 256) : evLoop t = true ↔ EvCycle t := by
  rw [evLoop_eq_true_iff, evCycle_iff_edgeCycle]
  exact evPrune_ne_nil_iff_edgeCycle (evEdges_fromChannels h) (by decide)

theorem evLoop_eq_false_of_evCheck {s : State} {port : Nat} {t : List (Nat × EvChan)} (h : s.evCheck port t = none)
    (hchanged : evChanged s.ev.chans t ≠ []) : evLoop t = false := by
  rw [State.evCheck] at h
  split at h
  case h_1 => cases h
  case h_2 =>
    rw [if_neg (mt List.isEmpty_iff.mp hchanged)] at h
    split at h
    · cases h
    · split at h
      · cases h
      · next hloop => exact Bool.eq_false_iff.mpr hloop

/-- Settles O50: 257 rounds are more than the 256 channels that an edge can leave, so the pruning ends with edges that each leave an entered node: none of them
where there is no cycle, and all edges of a cycle where there is one. -/
theorem loopCheckFindsExactlyTheCycles : Obligations.LoopCheckFindsExactlyTheCycles := by
  refine ⟨fun t _ hkeys => evLoop_iff_evCycle hkeys, fun s port t _ hkeys hcheck => ?_⟩
  by_cases hchanged : evChanged s.ev.chans t = []
  · exact .inl hchanged
  · refine .inr fun hcycle => ?_
    have hloop : evLoop t = true := (evLoop_iff_evCycle hkeys).mpr hcycle
    exact absurd hloop (Bool.eq_false_iff.mp (evLoop_eq_false_of_evCheck hcheck hchanged))

end Sys2Proof.Machine
end

section
/-! ## The front of the queue, and a tick where no command waits (R342, R347, R408) -/
namespace Sys2Proof.Machine

/-- Settles O1: a step is defined by the front of the queue. -/
theorem stepRunsFrontCommand : Obligations.StepRunsFrontCommand := fun _ _ _ => rfl

/-- With no command one tick passes. -/
theorem step_of_no_command {s : State} (h : s.pending = []) : step s = .next s.tick := by
  simp only [step, h]

/-- A tick goes to the next coarse tick, unless VAUX is lost. -/
theorem tick_eq (s : State) :
    s.tick = (if s.dev.st = .off then s else s.advanceTo ((s.now / 5242880 + 1) * 5242880)).timeSelect.stopDue := by
  simp only [State.tick, State.idle, tickAfter, uTick, beq_iff_eq]

/-- Settles O2: the row with no command is one tick, whose two cases are those of VAUX. -/
theorem emptyQueuePassesOneTick : Obligations.EmptyQueuePassesOneTick := fun s h =>
  (step_of_no_command h).trans (congrArg _ (tick_eq s))

end Sys2Proof.Machine
end

section
/-! ## The packet rows have their effect (R39 to R72)

One argument serves every opcode: its row is the reception of its packet, and a packet that passes is performed. What is to be looked up for each is its
code and its entry of the table of opcodes. -/
namespace Sys2Proof.Machine

/-- The row of an opcode completes: it is the reception of its packet, and a packet that passes is performed. -/
theorem completes_of_spec {mk : Req → Instr} {code : Nat} {sp : OpSpec} (hrow : ∀ r, (mk r).packet? = some (code, r)) (hspec : specOf code = some sp) :
    Completes mk code sp :=
  ⟨hspec, fun r _ _ s _ harrives hpasses _ => (exec_packet (hrow r) s).trans (receive_passes hspec harrives hpasses)⟩

/-- Settles O13: every row completes by its code and its entry. -/
theorem devicePacketsComplete : Obligations.DevicePacketsComplete := by
  unfold Obligations.DevicePacketsComplete
  repeat refine ⟨completes_of_spec (fun _ => rfl) rfl, ?_⟩
  exact completes_of_spec (fun _ => rfl) rfl

/-- Settles O14: every row completes by its code and its entry. -/
theorem synthesisPacketsComplete : Obligations.SynthesisPacketsComplete := by
  unfold Obligations.SynthesisPacketsComplete
  repeat refine ⟨completes_of_spec (fun _ => rfl) rfl, ?_⟩
  exact completes_of_spec (fun _ => rfl) rfl

/-- Settles O15: every row completes by its code and its entry. -/
theorem readoutPacketsComplete : Obligations.ReadoutPacketsComplete := by
  unfold Obligations.ReadoutPacketsComplete
  repeat refine ⟨completes_of_spec (fun _ => rfl) rfl, ?_⟩
  exact completes_of_spec (fun _ => rfl) rfl

/-- Settles O16: every row completes by its code and its entry. -/
theorem feedbackPacketsComplete : Obligations.FeedbackPacketsComplete := by
  unfold Obligations.FeedbackPacketsComplete
  repeat refine ⟨completes_of_spec (fun _ => rfl) rfl, ?_⟩
  exact completes_of_spec (fun _ => rfl) rfl

/-- Settles O17: every row completes by its code and its entry. -/
theorem intakeAndPlanPacketsComplete : Obligations.IntakeAndPlanPacketsComplete := by
  unfold Obligations.IntakeAndPlanPacketsComplete
  repeat refine ⟨completes_of_spec (fun _ => rfl) rfl, ?_⟩
  exact completes_of_spec (fun _ => rfl) rfl

/-- Settles O18: every row completes by its code and its entry. -/
theorem converterAndLinkPacketsComplete : Obligations.ConverterAndLinkPacketsComplete := by
  unfold Obligations.ConverterAndLinkPacketsComplete
  repeat refine ⟨completes_of_spec (fun _ => rfl) rfl, ?_⟩
  exact completes_of_spec (fun _ => rfl) rfl

/-- Settles O19: every row completes by its code and its entry. -/
theorem timeAndClockPacketsComplete : Obligations.TimeAndClockPacketsComplete := by
  unfold Obligations.TimeAndClockPacketsComplete
  repeat refine ⟨completes_of_spec (fun _ => rfl) rfl, ?_⟩
  exact completes_of_spec (fun _ => rfl) rfl

/-- Settles O20: every row completes by its code and its entry. -/
theorem captureAndIntervalPacketsComplete : Obligations.CaptureAndIntervalPacketsComplete := by
  unfold Obligations.CaptureAndIntervalPacketsComplete
  repeat refine ⟨completes_of_spec (fun _ => rfl) rfl, ?_⟩
  exact completes_of_spec (fun _ => rfl) rfl

/-- Settles O21: every row completes by its code and its entry. -/
theorem biasAndMonitorPacketsComplete : Obligations.BiasAndMonitorPacketsComplete := by
  unfold Obligations.BiasAndMonitorPacketsComplete
  repeat refine ⟨completes_of_spec (fun _ => rfl) rfl, ?_⟩
  exact completes_of_spec (fun _ => rfl) rfl

/-- Settles O22: every row completes by its code and its entry. -/
theorem eventServiceAndTrustPacketsComplete : Obligations.EventServiceAndTrustPacketsComplete := by
  unfold Obligations.EventServiceAndTrustPacketsComplete
  repeat refine ⟨completes_of_spec (fun _ => rfl) rfl, ?_⟩
  exact completes_of_spec (fun _ => rfl) rfl

end Sys2Proof.Machine
end

section
/-! ## The rows of the read-out: a covariance run's end, the opening and the end of a window (R137 to R151) -/
namespace Sys2Proof.Machine

section
variable {q : Fin 16} {f : Fin 32} {s : State}

/-- The state in which the demodulator takes up the first of its windows that are to open. -/
def State.windowDue (s : State) (q f : Nat) (p : PendWin) (rest : List PendWin) : State :=
  (s.advanceTo (outTime p.start)).onDemod q f fun d => { d with pend := rest }

variable {p : PendWin} {rest : List PendWin}

theorem execWindowOpen_free (hpend : (s.demod q f).pend = p :: rest)
    (hopen : (((s.windowDue q f p rest).demod q f).wins.find? fun w => w.openAt p.start) = none) :
    execWindowOpen q f s = .next ((s.windowDue q f p rest).openWindow q f p) := by
  rw [State.windowDue] at hopen ⊢
  simp only [execWindowOpen, hpend, hopen]

theorem execWindowOpen_drops {w : Win} (hpend : (s.demod q f).pend = p :: rest)
    (hopen : (((s.windowDue q f p rest).demod q f).wins.find? fun w => w.openAt p.start) = some w) (hcut : w.set.cut = false) :
    execWindowOpen q f s = .next ((s.windowDue q f p rest).onDemod q f fun d => { d with ovlDrop := inc32 d.ovlDrop }) := by
  rw [State.windowDue] at hopen ⊢
  simp only [execWindowOpen, hpend, hopen, hcut, Bool.false_eq_true, if_false]

theorem execWindowOpen_cuts {w : Win} (hpend : (s.demod q f).pend = p :: rest)
    (hopen : (((s.windowDue q f p rest).demod q f).wins.find? fun w => w.openAt p.start) = some w) (hcut : w.set.cut = true) :
    execWindowOpen q f s = .next (((s.windowDue q f p rest).onDemod q f fun d =>
      { d with ovlCut := inc32 d.ovlCut, wins := d.wins.map fun x => if x = w then { x with endAt := p.start, trunc := true } else x }).openWindow q f p) := by
  rw [State.windowDue] at hopen ⊢
  simp only [execWindowOpen, hpend, hopen, hcut, if_true]

/-- A window has one decimated sample for each eight of its length. -/
theorem State.tappedAll_length (s : State) (x : List AdcIn) (f : Nat) (w : Win) : (s.tappedAll x f w).length = (w.endAt - w.start) / 8 := by
  rw [State.tappedAll, List.length_map, List.length_range]

end

/-- Settles O29: each row finds what its clause names, and the rest is its own text. -/
theorem readoutRowsComplete : Obligations.ReadoutRowsComplete := by
  refine ⟨?covariance, ?opening, ?ending⟩
  case covariance =>
    intro q x s c hrun
    change execCovarDone q x s = _
    simp only [execCovarDone, hrun]
  case opening =>
    exact fun q f s p rest hpend => ⟨execWindowOpen_free hpend, fun _ => execWindowOpen_drops hpend, fun _ => execWindowOpen_cuts hpend⟩
  case ending =>
    intro q f x s w rest hwins
    refine ⟨State.tappedAll_length _ x f w, ?_⟩
    change execWindowEnd q f x s = _
    simp only [execWindowEnd, hwins]

end Sys2Proof.Machine
end

section
/-! ## The rows of the intake, the corner turn and the plans (R207 to R228, R244 to R262) -/
namespace Sys2Proof.Machine

section
variable {s : State}

/-! ### Frames and rows of the channelisers (R207, R217 to R223) -/

theorem execIntakeFrame_ok {lane : Fin 72} {bytes : List Byte} {i : Nat} (hup : (s.lane lane).st = .up) (hcheck : s.frameCheck lane true bytes = .ok i) :
    let n := Sys2Proof.u bytes 20 4
    let gap := match (s.input i).seq with | some p => decide (n ≠ (p + 1) % 2 ^ 32) | none => false
    execIntakeFrame lane true bytes s = .next (((s.laneStat lane fun l =>
      { l with framesOk := inc32 l.framesOk, seqGap := if gap then inc32 l.seqGap else l.seqGap }).onInput i fun x =>
        { x with seq := some n }).stageFrame i bytes) := by
  unfold execIntakeFrame
  rw [if_neg (not_not_intro hup), hcheck] <;> rfl

/-- The counter of the fault for which a frame is dropped. -/
def LaneStats.dropped (l : LaneStats) : FrameDrop → LaneStats
  | .format => { l with formatErr := inc32 l.formatErr }
  | .crc => { l with crcErr := inc32 l.crcErr }
  | .unknown => { l with unknownSrc := inc32 l.unknownSrc }
  | .mismatch => { l with mismatch := inc32 l.mismatch }
  | .idle => { l with idleDrop := inc32 l.idleDrop }

theorem execIntakeFrame_dropped {lane : Fin 72} {whole : Bool} {bytes : List Byte} {e : FrameDrop} (hup : (s.lane lane).st = .up)
    (hcheck : s.frameCheck lane whole bytes = .error e) :
    execIntakeFrame lane whole bytes s = .next (s.laneStat lane fun l => l.dropped e) := by
  unfold execIntakeFrame
  rw [if_neg (not_not_intro hup), hcheck]
  cases e <;> rfl

end

/-- Settles O34: the conditions of each clause pick one branch of its row. -/
theorem intakeAndPlanRowsComplete : Obligations.IntakeAndPlanRowsComplete := by
  refine ⟨fun _ _ _ _ => execIntakeFrame_ok, fun _ _ _ _ _ => execIntakeFrame_dropped, ?channelise, ?release, ?wrap, ?boundary, ?add, ?pass, ?finish,
    ?exported, ?discard, ?overrun, ?beam⟩
  case channelise =>
    intro q x s c k hcfg hct hruns adc j clk label last s1
    refine ⟨?past, fun hahead => ?row⟩
    case past =>
      rintro ⟨m, hm, hle⟩
      change execChannelise q x s = _
      unfold execChannelise
      rw [hcfg, hct]
      refine (if_neg (by simp [hruns])).trans (if_pos ?_)
      rw [hm]
      exact decide_eq_true hle
    case row =>
      change execChannelise q x s = _
      unfold execChannelise
      rw [hcfg, hct]
      refine (if_neg (by simp [hruns])).trans ((if_neg ?_).trans rfl)
      rw [Option.any_eq_true]
      rintro ⟨m, hm, hle⟩
      exact absurd (of_decide_eq_true hle) (Nat.not_le.mpr (hahead m hm))
  case release =>
    intro s k hct hne hdone hfree blk
    have hall : (s.chanQuires.all fun q => decide (blk < (s.chanl q).written) || (s.chanl q).until'.any fun m => decide (m ≤ blk)) = true := by
      simpa [Option.any_eq_true] using hdone
    change execBlockRelease s = _
    unfold execBlockRelease
    rw [hct]
    exact if_neg (by simp [hne, hall, blk, hfree])
  case wrap =>
    intro s k k' hct hpend hcorr hbeam heven hnext hchan m
    have hidle {r : PlanRun} (h : r.active = true → r.st ≠ .pending → r.proc = m) : (!r.active || r.st == .pending || r.proc == m) = true := by
      simpa [or_assoc, Decidable.or_iff_not_imp_left] using h
    have hchans : (s.chanQuires.all fun q => (s.chanl q).next == s.ct.origin + s.ct.num m * k.b) = true := by
      simpa [m] using hchan
    have hdue := And.intro heven (And.intro hnext (And.intro (hidle hcorr) (And.intro (hidle hbeam) hchans)))
    change (_ → execCtWrap s = _) ∧ (_ → _ → execCtWrap s = _) ∧ (∀ _, _ → _ → _ → execCtWrap s = _)
    simp only [execCtWrap, hct, hpend]
    refine ⟨fun hb => (if_pos hdue).trans (if_pos hb), fun hb hstays => (if_pos hdue).trans ((if_neg hb).trans ?stays),
      fun p hb hcfg hgoes => (if_pos hdue).trans ((if_neg hb).trans ?goes)⟩
    case stays =>
      refine congrArg (fun a : State => Host.Outcome.next (a.resolve (wait .ct 0 0) [])) ?_
      split
      · next p hcfg => exact if_neg fun hgoes => hstays.elim (fun hnone => nomatch hnone.symm.trans hcfg) (· hgoes)
      · rfl
    case goes =>
      refine congrArg (fun a : State => Host.Outcome.next (a.resolve (wait .ct 0 0) [])) ?_
      split
      · next p' hcfg' => cases hcfg.symm.trans hcfg'; exact if_pos hgoes
      · next hnone => nomatch hnone.symm.trans hcfg
  case boundary =>
    intro s hcome s1 qs
    exact if_neg (by simp [hcome])
  case add =>
    intro s p k x hcfg hct hactive hst hproc c blk hcur hfree first tiles r endB x1 x2 s1 s2 s3
    change execChannelAdd s = _
    simp only [execChannelAdd, hcfg, hct]
    refine (if_neg (by simp [hactive, hst, hproc])).trans ?_
    rw [hcur]
    exact if_neg (by simpa using hfree)
  case pass =>
    intro s p k hcfg hct hactive hst hproc blk hcur s1 tiles
    have hnone : (s.plans.corr.cur.find? fun x => decide (x.first ≤ blk) && decide (blk < x.last)) = none := by
      simpa [List.find?_eq_none] using hcur
    change (_ → execChannelAdd s = _) ∧ (_ → _ → execChannelAdd s = _)
    simp only [execChannelAdd, hcfg, hct]
    rw [if_neg (by simp [hactive, hst, hproc]), hnone]
    exact ⟨fun hstop => if_pos hstop, fun h2 h3 => if_neg (not_or.mpr ⟨h2, h3⟩)⟩
  case finish =>
    intro s x xs hcur hlast hchan
    change execIntegrationFinished s = _
    simp only [execIntegrationFinished, hcur]
    exact if_pos ⟨hlast, hchan⟩
  case exported =>
    rintro s x xs p k e hfin hcfg hct hexp ⟨i, hi, hcap⟩
    change execExportComplete s = _
    simp only [execExportComplete, hfin, hcfg, hct, hexp]
    exact if_neg (by simpa using ⟨i, hi, hcap⟩)
  case discard =>
    intro s x xs p k hfin hcfg hct hexp
    change execExportComplete s = _
    simp only [execExportComplete, hfin, hcfg, hct, hexp]
  case overrun =>
    rintro s n x xs p k hfin hcfg hct ⟨y, hy, ⟨z, hz, hpar⟩, hfirst, hrel⟩ s1
    change execOverrun n s = _
    have hany : (s.plans.corr.cur.any fun y => (s.plans.corr.finished.any fun z => z.number % 2 == y.number % 2) &&
        y.first == s.plans.corr.run.proc && decide (y.first < s.ct.released)) = true := by
      simp only [List.any_eq_true, Bool.and_eq_true, beq_iff_eq, decide_eq_true_eq]
      exact ⟨y, hy, ⟨⟨z, hz, hpar⟩, hfirst⟩, hrel⟩
    simp only [hfin] at hany
    simp only [execOverrun, hfin, hcfg, hct]
    exact if_pos hany
  case beam =>
    intro s p k hcfg hct hst hproc b blk bank clips void s1 s2 s3
    change (_ → execBeamBlockOutput s = _) ∧ (∀ _, _ → _ → execBeamBlockOutput s = _)
    simp only [execBeamBlockOutput, hcfg, hct]
    rw [if_neg (by rcases hst with h | h <;> simp [h, hproc])]
    refine ⟨fun hgoes => congrArg Host.Outcome.next ?goes, fun m hlast hle => congrArg Host.Outcome.next ?drains⟩
    case goes =>
      split
      · next m hlast => exact if_pos (hgoes m hlast)
      · rfl
    case drains =>
      rw [hlast]
      exact if_neg (Nat.not_lt.mpr hle)

end Sys2Proof.Machine
end

section
/-! ## The rows of the converter lines: mutes, switches, settling, temperature, calibrations (R279 to R290) -/
namespace Sys2Proof.Machine

section
variable {s : State}

/-! ### The pin RF_MUTE_N (R283) -/

/-- The state in which an edge of the pin has come: what an earlier edge was to do is withdrawn. -/
def State.muteEdge (s : State) (low : Bool) : State :=
  { s.onRf fun r => { r with pinRaw := low } with delayed := s.delayed.filter fun d => match d.eff with | .mutePin _ => false | _ => true }

theorem execRfMuteN_same {low : Bool} (hon : s.dev.st ≠ .off) (hsame : low = s.rf.pinRaw) : execRfMuteN low s = .next s :=
  (if_neg (by simp [hon])).trans (if_pos hsame)

theorem execRfMuteN_edge {low : Bool} (hon : s.dev.st ≠ .off) (hedge : low ≠ s.rf.pinRaw) :
    execRfMuteN low s = .next (if low = s.rf.pin then s.muteEdge low else if s.rf.filter = 0 then (s.muteEdge low).mutePin low
      else (s.muteEdge low).delay (s.now + s.rf.filter * uNs) (.mutePin low)) :=
  (if_neg (by simp [hon])).trans (if_neg hedge)

theorem execRfMuteN_off {low : Bool} (hoff : s.dev.st = .off) : execRfMuteN low s = .next (s.onRf fun r => { r with pinRaw := low, pin := low }) :=
  if_pos (by simp [hoff])

/-! ### Mutes, the switch and the return of the samples (R279, R281, R282) -/

/-- What the earliest mute of a line does to it, at `t` (R281). -/
def DacLine.muteTakes (d : DacLine) (t : Nat) : DacLine :=
  let d1 := d.takeMutes t
  match d1.muteAt with
  | some x => { d1 with muteAt := none, zeroAt := x, zero := true }
  | none => d1

theorem execMuteTakeEffect_due {n : Fin 40} {m : Nat} {ms : List Nat} (hmutes : (s.dac n).mutes ++ (s.dac n).muteAt.toList = m :: ms) :
    execMuteTakeEffect n s = .next ((s.advanceTo (ms.foldl min m)).onDac n fun d => d.muteTakes (ms.foldl min m)) := by
  simp only [execMuteTakeEffect, hmutes] <;> rfl

theorem execSwitchOpen_muted {n : Fin 40} (hzero : (s.dac n).zero = true) (hcause : (s.dac n).cause ≠ 0) (hclosed : (s.dac n).opened = false) :
    execSwitchOpen n s = .next ((s.advanceTo ((s.dac n).zeroAt + tSwitch)).onDac n fun d => { d with opened := true }) :=
  if_pos ⟨hzero, hcause, by simp [hclosed]⟩

theorem execUnmuteResume_due {n : Fin 40} {t : Nat} (hresume : (s.dac n).resumeAt = some t) (hcause : (s.dac n).cause = 0) :
    execUnmuteResume n s = .next ((s.advanceTo t).onDac n fun d => { d with zero := false, resumeAt := none }) := by
  simp only [execUnmuteResume, hresume, hcause, if_true]

theorem execLineSettle_due {n : Fin 40} {t : Nat} (hsettle : (s.dac n).settleTo = some t) :
    execLineSettle n s = .next ((s.advanceTo t).onDac n fun d => { d with settleTo := none }) := by
  simp only [execLineSettle, hsettle]

/-! ### The temperature of a chiplet (R280) -/

theorem execTherm_hot {c : Fin 4} {m : Int} (hot : 110000 < m) (hnew : s.rf.hot.contains c.val = false) :
    execTherm c m s = .next ((s.onRf fun r => { r with hot := c.val :: r.hot }).setCauses (chipDacs c) mTherm true) :=
  if_pos ⟨hot, by simp only [hnew, Bool.not_false]⟩

theorem execTherm_cool {c : Fin 4} {m : Int} (hcool : m < 100000) (hwas : s.rf.hot.contains c.val = true) :
    execTherm c m s = .next ((s.onRf fun r => { r with hot := r.hot.filter fun x => x != c.val }).clearCauses (chipDacs c) mTherm) :=
  (if_neg fun h => absurd hcool (by omega)).trans (if_pos ⟨hcool, hwas⟩)

theorem execTherm_between {c : Fin 4} {m : Int} (hnot : s.rf.hot.contains c.val = false → m ≤ 110000)
    (hstill : s.rf.hot.contains c.val = true → 100000 ≤ m) : execTherm c m s = .next s :=
  (if_neg fun ⟨hot, hnew⟩ => absurd (hnot (by simpa using hnew)) (Int.not_le.mpr hot)).trans
    (if_neg fun ⟨hcool, hwas⟩ => absurd (hstill hwas) (Int.not_le.mpr hcool))

/-! ### Calibrations (R288 to R290) -/

section
variable {n : Fin 40} {m1 m2 : List Int}

/-- The state in which a calibration of a DAC line has been judged. -/
def State.dacJudged (s : State) (n : Nat) (ok : Bool) (m1 m2 : List Int) : State :=
  (s.onDac n fun d => { d with cal := d.cal.judge ok m1 m2 s.now }).lineJudged (dacId n) ok

theorem execDacBackgroundCal_judges (hruns : s.runs = true) (hout : s.dacOut n = false) (hret : s.dacRetired n = false)
    (huntil : (s.dac n).cal.until' ≠ none) :
    execDacBackgroundCal n m1 m2 s = .next (s.dacJudged n (calAgree dacTol m1 m2 && !s.bsc.cal.suspended) m1 m2) := by
  obtain ⟨t, ht⟩ := Option.ne_none_iff_exists'.mp huntil
  simp only [execDacBackgroundCal, ht]
  exact if_neg (by simp [hruns, hout, hret])

theorem execDacBackgroundCal_due (hruns : s.runs = true) (hout : s.dacOut n = false) (hret : s.dacRetired n = false)
    (huntil : (s.dac n).cal.until' = none) (hpolicy : (s.dac n).cal.policy = 2) :
    let s1 := s.advanceTo ((s.dac n).cal.from' + (s.dac n).cal.period * uS)
    execDacBackgroundCal n m1 m2 s =
      .next ((s1.onDac n fun d => { d with cal := { d.cal with from' := s1.now } }).dacJudged n (calAgree dacTol m1 m2 && !s.bsc.cal.suspended) m1 m2) := by
  simp only [execDacBackgroundCal, huntil]
  exact (if_neg (by simp [hruns, hout, hret])).trans (if_neg (not_not_intro hpolicy))

end

section
variable {n : Fin 16} {m1 m2 : List Int}

theorem execReferenceCalibration_judges {t : Nat} (hon : s.dev.st ≠ .off) (huntil : (s.adc n).cal.until' = some t) :
    let ok := calAgree adcTol m1 m2 && !s.bsc.cal.suspended
    let s1 := s.advanceTo t
    execReferenceCalibration n m1 m2 s =
      .next ((s1.onAdc n fun a => { a with cal := a.cal.judge ok m1 m2 s1.now }).lineJudged (adcId n) ok) := by
  simp only [execReferenceCalibration, huntil]
  exact if_neg (by simp [hon])

theorem execReferenceCalibration_begins (hon : s.dev.st ≠ .off) (huntil : (s.adc n).cal.until' = none) (hdue : (s.adc n).cal.due = true)
    (hpolicy : (s.adc n).cal.policy = 1) (hallowed : (s.advanceTo (tickAt s.now)).calAllowed n = true) :
    let s1 := s.advanceTo (tickAt s.now)
    execReferenceCalibration n m1 m2 s = .next (s1.onAdc n fun a =>
      { a.gap s1.now (some (s1.now + refCalTime)) with cal := { a.cal with until' := some (s1.now + refCalTime) } }) := by
  simp only [execReferenceCalibration, huntil]
  exact (if_neg (by simp [hon])).trans (if_pos ⟨hdue, hpolicy, hallowed⟩)

/-- A calibration that falls due is marked; under POLICY 2 it runs at once where none runs. -/
theorem execAdcCalDue_due (hruns : s.runs = true) (hout : s.adcOut n = false) (hret : s.adcRetired n = false) (hpolicy : (s.adc n).cal.policy ≠ 0) :
    let c := (s.adc n).cal
    let s1 := s.advanceTo (c.from' + c.period * uS)
    let starts := c.policy = 2 ∧ c.until'.isNone = true
    execAdcCalDue n s = .next ((if starts then s1.onAdc n fun a => a.gap s1.now (some (s1.now + refCalTime)) else s1).onAdc n fun a =>
      { a with cal := { a.cal with from' := s1.now, missed := if c.due then inc32 c.missed else c.missed, due := true,
                                   until' := if starts then some (s1.now + refCalTime) else c.until' } }) :=
  if_neg (by simp [hruns, hout, hret, hpolicy])

end

end

/-- Settles O35: each clause is the law of its row above. -/
theorem converterRowsComplete : Obligations.ConverterRowsComplete := by
  refine ⟨?pin, fun _ _ => execRfMuteN_off, fun _ => ⟨rfl, rfl⟩, fun _ _ _ _ => execMuteTakeEffect_due, fun _ _ => execSwitchOpen_muted,
    fun _ _ _ => execUnmuteResume_due, fun _ _ _ => execLineSettle_due, fun _ _ _ => execTherm_hot, fun _ _ _ => execTherm_cool,
    fun _ _ _ => execTherm_between, ?background, ?reference, ?due⟩
  case pin =>
    intro low s hon s2
    refine ⟨execRfMuteN_same hon, fun hedge hpin => ?_, fun hedge hpin hf => ?_, fun hedge hpin hf => ?_⟩
    · exact (execRfMuteN_edge hon hedge).trans (congrArg _ (if_pos hpin))
    · exact (execRfMuteN_edge hon hedge).trans (congrArg _ ((if_neg hpin).trans (if_pos hf)))
    · exact (execRfMuteN_edge hon hedge).trans (congrArg _ ((if_neg hpin).trans (if_neg hf)))
  case background =>
    exact fun n m1 m2 s hruns hout hret => ⟨execDacBackgroundCal_judges hruns hout hret, execDacBackgroundCal_due hruns hout hret⟩
  case reference =>
    exact fun n m1 m2 s hon => ⟨fun t => execReferenceCalibration_judges hon, execReferenceCalibration_begins hon⟩
  case due =>
    intro n s hruns hout hret hpolicy c s1 missed
    have hrow := execAdcCalDue_due hruns hout hret hpolicy
    refine ⟨fun hwaits => hrow.trans ?_, fun htwo hnone => hrow.trans ?_⟩
    · have hnot : ¬ (c.policy = 2 ∧ c.until'.isNone = true) := by
        rintro ⟨htwo, hnone⟩
        exact hwaits.elim (· htwo) (· (Option.isNone_iff_eq_none.mp hnone))
      simp only [c] at hnot
      simp only [if_neg hnot]
      rfl
    · have hstarts : c.policy = 2 ∧ c.until'.isNone = true := ⟨htwo, by rw [hnone]; rfl⟩
      simp only [c] at hstarts
      simp only [if_pos hstarts]
      rfl

end Sys2Proof.Machine
end

section
/-! ## The rows of the lanes: training, errors, self-tests, retries, SKIP and IDENT (R303 to R309, R324, R334) -/
namespace Sys2Proof.Machine

/-! ### A lane's states (R307 to R309, R334) -/

section
variable {s : State} {n : Fin 92}

theorem execLaneUp_training (hst : (s.lane n).st = .training) :
    execLaneUp n s = .next (((s.laneTo n .up).onLane n fun l => { l with upCount := inc32 l.upCount }).laneDone n) := if_pos hst

theorem execTrainingTimeout_training (hst : (s.lane n).st = .training) :
    let s1 := s.advanceTo ((s.lane n).since + 2 * uMs)
    execTrainingTimeout n s = .next (if (s1.lane n).passed then (s1.laneTo n .absent).laneDone n else s1.laneFails n 3) := if_pos hst

/-- The errors of a lane's last 256 slots with `k` more now. -/
def State.errsWith (s : State) (n k : Nat) : List (Nat × Nat) := s.laneErrs n ++ [(s.now, k)]

/-- The state in which a lane's errors have been counted. -/
def State.errorsCounted (s : State) (n c d : Nat) : State :=
  s.onLane n fun l => { l with codeErr := satAdd 32 l.codeErr c, dispErr := satAdd 32 l.dispErr d, errs := s.errsWith n (c + d) }

theorem execLaneError_counts {c d : Nat} (hst : (s.lane n).st = .up) (hfew : ((s.errsWith n (c + d)).map fun e => e.2).sum < 8) :
    execLaneError n c d false s = .next (s.errorsCounted n c d) := by
  refine (if_pos hst).trans (if_neg ?_)
  simpa [State.errsWith] using hfew

theorem execLaneError_fails {c d : Nat} {silent : Bool} (hst : (s.lane n).st = .up)
    (hfails : silent = true ∨ 8 ≤ ((s.errsWith n (c + d)).map fun e => e.2).sum) :
    execLaneError n c d silent s =
      .next (((s.errorsCounted n c d).onLane n fun l => { l with laneErr := inc32 l.laneErr }).laneFails n (if silent then 1 else 2)) := by
  refine (if_pos hst).trans (if_pos ?_)
  simpa [State.errsWith] using hfails

theorem execLaneSelftestDone_test (hst : (s.lane n).st = .test) (hcmd : (s.lane n).cmdTest = none) (e : Nat) :
    let s1 := s.advanceTo ((s.lane n).since + 10 * uMs)
    let s2 := s1.transientPass (laneUnit n) (laneId n) 0
    execLaneSelftestDone n e s = if e = 0 then
      .next (((if (s.lane n).fromUp then s2.train n else s2.laneTo n .absent).onLane n fun x => { x with passed := true }).laneDone n)
    else .next (s1.laneFaulty n 3 0 e) := if_pos ⟨hst, by rw [hcmd]; rfl⟩

theorem execLaneRetry_absent (hst : (s.lane n).st = .absent) :
    execLaneRetry n s = .next (((s.advanceTo ((s.lane n).since + (s.laneCfg (laneGroup n)).retryMs * uMs)).train n).laneDone n) := if_pos hst

theorem execLaneTestEnd_tests {t : Nat} {far : Bool} (hcmd : (s.lane n).cmdTest = some (t, far)) (e : Nat) :
    execLaneTestEnd n e s = .next ((((s.advanceTo t).train n).laneDone n).resolve { kind := .laneTest, a := n.val, b := 0 }
      (leBytes 8 ((t - (s.lane n).since) * 10 / charTime (s.laneRate n)) ++ leBytes 8 e)) := by
  simp only [execLaneTestEnd, hcmd]

/-! ### IDENT (R304, R324) -/

theorem execIdentSend_sends (hsends : (s.lane n).sendsSets = true) :
    let s1 := s.advanceTo ((s.lane n).identTx + 4096 * slotTime (s.laneRate n))
    execIdentSend n s = .next ((s1.advanceTo (s1.identStart n)).identOut n) := if_pos hsends

/-- An IDENT is sound: it has its length and its CRC, and its first byte is not 0. -/
def identSound (b : List Byte) : Prop := b.length = 15 ∧ (crc32c (b.take 11)).toNat = Sys2Proof.u b 11 4 ∧ Sys2Proof.u b 0 1 ≠ 0

section
variable {b : List Byte} (hlink : 72 ≤ n.val) (hst : (s.lane n).st = .up) (hon : s.dev.st ≠ .off)
include hlink hst hon

theorem execIdentReceive_sound (hsound : identSound b) :
    execIdentReceive n b s = .next ((s.onLane n fun l => { l with ident := some (identOf b), identAt := s.now }).laneDone n) :=
  (if_neg (by simp [hst, hon, hlink])).trans (if_pos hsound)

theorem execIdentReceive_bad (hbad : ¬ identSound b) :
    execIdentReceive n b s = .next (s.onLane n fun l => { l with identBad := inc32 l.identBad }) :=
  (if_neg (by simp [hst, hon, hlink])).trans (if_neg hbad)

end

/-- No IDENT is looked at on an intake lane. -/
theorem execIdentReceive_intake (b : List Byte) (hintake : n.val < 72) : execIdentReceive n b s = .next s := if_pos (.inl hintake)

theorem execIdentStale_known {n : Fin 20} (hident : (s.lane (72 + n)).ident ≠ none) :
    execIdentStale n s = .next ((s.advanceTo ((s.lane (72 + n)).identAt + 100 * uUs)).laneDone (72 + n)) :=
  if_pos (Option.isSome_iff_ne_none.mpr hident)

end

/-! ### SKIP (R303) -/

section
variable {s : State} {n : Nat}

/-- The bracket that is open on a lane now. -/
def State.openPre (s : State) (n : Nat) : Option TxPre := (s.lane n).pres.find? fun p => decide (p.start ≤ s.now) && decide (s.now < p.stop)

/-- A frame is being sent on a lane now. -/
def State.inFrame (s : State) (n : Nat) : Bool :=
  (s.lane n).frames.any fun f => f.kind == .frame && decide (f.start < s.now) && decide (s.now < (s.lane n).stopOf (s.charOf n) f)

/-- On an array lane a SKIP follows the bracket that is open. -/
theorem State.skipOut_afterBracket {x : TxPre} (hlink : 72 ≤ n) (hopen : s.openPre n = some x) :
    s.skipOut n = (s.onTx n fun l => l.openBracket (s.charOf n) x.stop (inBracket skipSet) true none).emitLine n
      ((s.lane n).pres.filter fun p => decide (x.stop ≤ p.start)).length (inBracket skipSet) := by
  rw [State.openPre] at hopen
  simp only [State.skipOut, hopen]
  exact if_pos ⟨hlink, .inl rfl⟩

/-- A SKIP that falls into a frame has a bracket of its own. -/
theorem State.skipOut_inFrame (hlink : 72 ≤ n) (hopen : s.openPre n = none) (hframe : s.inFrame n = true) :
    s.skipOut n = (s.onTx n fun y => y.openBracket (s.charOf n) ((s.lane n).charAt (s.charOf n) s.now) (inBracket skipSet) true none).emitLine n
      ((s.lane n).pres.filter fun p => decide ((s.lane n).charAt (s.charOf n) s.now ≤ p.start)).length (inBracket skipSet) := by
  rw [State.openPre] at hopen
  simp only [State.skipOut, hopen]
  exact if_pos ⟨hlink, .inr hframe⟩

/-- Otherwise a SKIP waits for the frame boundary. -/
theorem State.skipOut_atEdge (hfree : n < 72 ∨ (s.openPre n = none ∧ s.inFrame n = false)) :
    s.skipOut n = (s.onTx n fun y => y.frame (s.charOf n) .set (s.frameEdge n) skipSet).emitLine n
      ((s.lane n).frames.filter fun f => decide (s.frameEdge n ≤ f.start)).length skipSet := by
  refine if_neg ?_
  rintro ⟨hlink, hbusy⟩
  obtain ⟨hopen, hframe⟩ := hfree.resolve_left (Nat.not_lt.mpr hlink)
  rcases hbusy with hpre | hin
  · exact nomatch hpre.symm.trans (congrArg Option.isSome hopen)
  · exact nomatch hframe.symm.trans hin

end

theorem execSkipSend_sends {s : State} {n : Fin 92} (hsends : (s.lane n).sendsSets = true) (a : Nat) :
    let t := (s.lane n).skipAt + 1024 * slotTime (s.laneRate n)
    execSkipSend n a s = .next (((s.advanceTo t).onLane n fun l => { l with skipAt := t, skipAdj := satAdd 32 l.skipAdj a }).skipOut n) := if_pos hsends

/-- Settles O36: each clause is the law of its row above. -/
theorem laneRowsComplete : Obligations.LaneRowsComplete := by
  refine ⟨fun _ _ hst => ⟨execLaneUp_training hst, execTrainingTimeout_training hst⟩, ?error, ?selftest, fun _ _ => execLaneRetry_absent, ?skip,
    fun _ _ => execIdentSend_sends, ?ident, fun _ b _ => execIdentReceive_intake b, fun _ _ => execIdentStale_known,
    fun _ e _ _ _ hcmd => execLaneTestEnd_tests hcmd e⟩
  case error =>
    rintro n c d silent s hst errs total s1
    refine ⟨?_, ?_, ?_⟩
    · rintro rfl hfew; exact execLaneError_counts hst hfew
    · rintro rfl hmany; exact execLaneError_fails hst (.inr hmany)
    · rintro rfl; exact execLaneError_fails hst (.inl rfl)
  case selftest =>
    exact fun n s hst hcmd => ⟨execLaneSelftestDone_test hst hcmd 0, fun e he => (execLaneSelftestDone_test hst hcmd e).trans (if_neg he)⟩
  case skip =>
    intro n a s hsends t s1 ct l edge
    have hrow := execSkipSend_sends hsends a
    exact ⟨fun x hlink hopen => hrow.trans (congrArg _ (State.skipOut_afterBracket hlink hopen)),
      fun hlink hopen hframe => hrow.trans (congrArg _ (State.skipOut_inFrame hlink hopen hframe)),
      fun hfree => hrow.trans (congrArg _ (State.skipOut_atEdge hfree))⟩
  case ident =>
    refine fun n b s hlink hst hon => ⟨fun hlen hcrc hrow => execIdentReceive_sound hlink hst hon ⟨hlen, hcrc, hrow⟩,
      fun hbad => execIdentReceive_bad hlink hst hon ?_⟩
    rintro ⟨hlen, hcrc, hrow⟩
    exact hbad.elim (· hlen) (·.elim (· hcrc) hrow)

end Sys2Proof.Machine
end

section
/-! ## The rows of Thread, of the TRIG pins and of the launch slots (R345 to R372) -/
namespace Sys2Proof.Machine

/-! ### Thread's messages (R351 to R363) -/

section
variable {s s1 : State} {p : Nat} {x : TimeFrame} {h : Hdr}

/-- A message of the row's kind for this device is handled. -/
theorem State.timeFrame_handles {row : Nat} (hhears : s.hears p = true) (hin : s.frameIn p x.whole x.bytes = (s1, some h)) (hcls : h.cls = 1)
    (hdest : h.dest = s.dev.addr) (hkind : Sys2Proof.u (slice x.bytes 8 16) 0 1 = row) (hrow : 1 ≤ row ∧ row ≤ 5) :
    s.timeFrame p x row = s1.timeMessage p (slice x.bytes 8 16) x.stamp := by
  have hknown : ¬ (row = 0 ∨ 6 ≤ row) := by omega
  simp [State.timeFrame, hhears, hin, hcls, hdest, hkind, hknown]

/-- The end of a frame that no row of Thread handles: it fails R318, or it is another device's, or of no known kind. -/
def State.TimeFrameRefused (s s1 t : State) (p : Nat) (x : TimeFrame) : Prop :=
  s.frameIn p x.whole x.bytes = (s1, none) ∧ t = s1 ∨
    ∃ h : Hdr, s.frameIn p x.whole x.bytes = (s1, some h) ∧ h.cls = 1 ∧
      (h.dest ≠ s.dev.addr ∧ t = s1.countPort p .notNeighbour ∨
        h.dest = s.dev.addr ∧ (Sys2Proof.u (slice x.bytes 8 16) 0 1 = 0 ∨ 6 ≤ Sys2Proof.u (slice x.bytes 8 16) 0 1) ∧
          t = s1.onPort p fun y => { y with timeBad := inc32 y.timeBad })

theorem State.timeFrame_refused {t : State} (hhears : s.hears p = true) (h : s.TimeFrameRefused s1 t p x) (row : Nat) : s.timeFrame p x row = t := by
  rcases h with ⟨hin, rfl⟩ | ⟨h, hin, hcls, ⟨hdest, rfl⟩ | ⟨hdest, hkind, rfl⟩⟩
  · simp [State.timeFrame, hhears, hin]
  · simp [State.timeFrame, hhears, hin, hcls, hdest]
  · simp [State.timeFrame, hhears, hin, hcls, hdest, hkind]

end

/-! ### Intervals and time limits (R349 to R363) -/

section
variable {s : State} {p : Fin 4}

/-- The state at the end of the SYNC interval. -/
def State.syncDue (s : State) : State :=
  let per := 2 ^ s.tmu.cfg.syncLog2 * uUs
  s.advanceTo ((s.now / per + 1) * per)

/-- A port sends SYNC where it is up and DOWNSTREAM. -/
theorem syncSends_iff {t : State} {p : Nat} : (!(t.portUp p && t.portRole p == 2)) = true ↔ ¬ (t.portUp p = true ∧ t.portRole p = 2) := by
  simp only [Bool.not_eq_true', Bool.and_eq_false_iff, Decidable.not_and_iff_not_or_not, Bool.not_eq_true, beq_eq_false_iff_ne]

theorem execSyncInterval_quiet (hon : s.dev.st ≠ .off) (hnot : ¬ (s.syncDue.portUp p = true ∧ s.syncDue.portRole p = 2)) :
    execSyncInterval p s = .next s.syncDue :=
  (if_neg (by simp [hon])).trans (if_pos (syncSends_iff.mpr hnot))

theorem execSyncInterval_sends (hon : s.dev.st ≠ .off) (hup : s.syncDue.portUp p = true) (hrole : s.syncDue.portRole p = 2) :
    let k := ((s.syncDue.port p).mseq + 1) % 256
    execSyncInterval p s =
      .next (match ((s.syncDue.threadTable p).onPort p fun y => { y with mseq := k }).sendTime p (timeMsg 2 k []) with
        | (s2, some t1) => (s2.sendTime p (timeMsg 3 k (dtBytes t1))).1
        | (s2, none) => s2) :=
  (if_neg (by simp [hon])).trans (if_neg fun hquiet => syncSends_iff.mp hquiet ⟨hup, hrole⟩)

theorem execAnnounceInterval_on (hon : s.dev.st ≠ .off) :
    execAnnounceInterval s = .next (s.advanceTo ((s.now / uMs + 1) * uMs)).announceAll := if_neg (by simp [hon])

theorem execMasterTimeout_heard (hvec : (s.port p).vec ≠ none) :
    execMasterTimeout p s = .next ((s.advanceTo ((s.port p).vecAt + 3 * uMs)).onPort p fun x => { x with vec := none }).timeSelect :=
  if_neg (by simpa using hvec)

theorem execWithdrawIgnoreEnd_ignores {g t : Nat} {tl : List (Nat × Nat)} (hignore : (s.port p).ignore = (g, t) :: tl) :
    execWithdrawIgnoreEnd p s = .next ((s.advanceTo t).onPort p fun x => { x with ignore := x.ignore.tail }).timeSelect := by
  simp only [execWithdrawIgnoreEnd, hignore]

theorem execExchLost_open {x : Exch} (hexch : (s.port p).exch = some x) :
    execExchLost p s = .next ((s.advanceTo (x.since + 100 * uUs)).exchDrop p) := by
  simp only [execExchLost, hexch]

end

/-! ### Steps of device time (R345, R360) -/

section
variable {s : State}

/-- A TIME_SET that comes before any step that waits sets the time. -/
theorem execStepApply_set {at' t : Nat} (hset : s.tmu.setTo = some (at', t)) (hfirst : ∀ x, s.tmu.step = some x → at' ≤ x.time) :
    execStepApply s = .next ((((((s.advanceTo at').onTmu fun u => { u with setTo := none }).stepTime ((t : Int) - (at' : Int))).stepped 0).onTmu
      fun u => { u with timeSet := true }).timeSelect) := by
  have hall : (s.tmu.step.all fun x => decide (at' ≤ x.time)) = true := by simpa [Option.all_eq_true] using hfirst
  simp only [execStepApply, hset, Option.filter_some, hall, if_true]

/-- What a step does at its instant: it is applied within the bound of its authorisation, and refused where the pending offset is gone or has grown. -/
def State.stepActs (s : State) (x : StepAt) : State :=
  match x.maxAbs, s.tmu.pending with
  | some m, some p =>
    if p.natAbs ≤ 4 * m then (s.stepPending p).resolve (wait .timeStep 0 0) [] else s.failWait (wait .timeStep 0 0) (err Status.stepChanged 0)
  | some _, none => s.failWait (wait .timeStep 0 0) (err Status.stepChanged 0)
  | none, some p => s.stepPending p
  | none, none => s

/-- A step that comes before any TIME_SET acts on the pending offset. -/
theorem execStepApply_step {x : StepAt} (hstep : s.tmu.step = some x) (hfirst : ∀ a, s.tmu.setTo = some a → x.time < a.1) :
    execStepApply s = .next (((s.advanceTo x.time).onTmu fun t => { t with step := none }).stepActs x) := by
  have hnone : (s.tmu.setTo.filter fun a => s.tmu.step.all fun x => decide (a.1 ≤ x.time)) = none := by
    simpa [Option.filter_eq_none_iff, hstep] using hfirst
  unfold execStepApply
  split
  · next _ _ hset => exact nomatch hnone.symm.trans hset
  · next hgone => exact nomatch hgone.symm.trans hstep
  · next y _ hy => cases hstep.symm.trans hy; rfl

variable {x : StepAt}

theorem State.stepActs_within {m : Nat} {p : Int} (hmax : x.maxAbs = some m) (hpend : s.tmu.pending = some p) (hle : p.natAbs ≤ 4 * m) :
    s.stepActs x = (s.stepPending p).resolve (wait .timeStep 0 0) [] := by
  simp only [State.stepActs, hmax, hpend, if_pos hle]

theorem State.stepActs_changed {m : Nat} (hmax : x.maxAbs = some m) (hgrown : ∀ p, s.tmu.pending = some p → 4 * m < p.natAbs) :
    s.stepActs x = s.failWait (wait .timeStep 0 0) (err Status.stepChanged 0) := by
  cases hpend : s.tmu.pending with
  | none => simp only [State.stepActs, hmax, hpend]
  | some p => simp only [State.stepActs, hmax, hpend, if_neg (Nat.not_le.mpr (hgrown p hpend))]

theorem State.stepActs_own {p : Int} (hmax : x.maxAbs = none) (hpend : s.tmu.pending = some p) : s.stepActs x = s.stepPending p := by
  simp only [State.stepActs, hmax, hpend]

theorem State.stepActs_moot (hmax : x.maxAbs = none) (hpend : s.tmu.pending = none) : s.stepActs x = s := by
  simp only [State.stepActs, hmax, hpend]

end

/-! ### TRIG pins (R365 to R367) -/

section
variable {s : State} {n : Fin 16}

/-- When the next pulse of a pin is to start. -/
def Trig.nextEdge (t : Trig) : Nat := t.pulse t.next + t.fine * 16384

section
variable (hsched : (s.trig n).scheduled = true) (hruns : s.runs = true)
include hsched hruns

/-- A pulse is issued once the one before it has ended, with a coherent time unit or the leave to do without. -/
theorem execTrigPulse_issues (hended : (s.trig n).activeTo ≤ (s.trig n).nextEdge)
    (hcoh : (s.advanceTo (s.trig n).nextEdge).clk.coherent = true ∨ (s.advanceTo (s.trig n).nextEdge).rf.allow = true) :
    execTrigPulse n s = .next ((((s.advanceTo (s.trig n).nextEdge).onTrig n fun t =>
      { t with next := t.next + 1, issued := (t.issued + 1) % 2 ^ 64, activeTo := (s.trig n).nextEdge + t.width * uSample }).emit
        (.trig n (s.trig n).nextEdge)).fireObj (s.trig n).ev (trigId n)) := by
  refine (if_neg (by simp [hsched, hruns])).trans (congrArg _ (if_neg fun hskip => ?_))
  rw [Bool.or_eq_true, decide_eq_true_eq, Bool.not_eq_true'] at hskip
  exact hskip.elim (Nat.not_lt.mpr hended) fun h => Bool.eq_false_iff.mp h (Bool.or_eq_true_iff.mpr hcoh)

theorem execTrigPulse_misses (hmiss : (s.trig n).nextEdge < (s.trig n).activeTo ∨
      ((s.advanceTo (s.trig n).nextEdge).clk.coherent = false ∧ (s.advanceTo (s.trig n).nextEdge).rf.allow = false)) :
    execTrigPulse n s = .next ((s.advanceTo (s.trig n).nextEdge).onTrig n fun t => { t with next := t.next + 1, missed := inc32 t.missed }) := by
  refine (if_neg (by simp [hsched, hruns])).trans (congrArg _ (if_pos ?_))
  rw [Bool.or_eq_true, decide_eq_true_eq, Bool.not_eq_true']
  exact hmiss.imp_right Bool.or_eq_false_iff.mpr

end

theorem execTrigInputEdge_taken {high : Bool} {time : Nat} (hmode : (s.trig n).mode = 0) (hon : s.dev.st ≠ .off)
    (hedge : if high then (s.trig n).edge % 2 = 1 else 2 ≤ (s.trig n).edge) :
    let s1 := s.advanceTo (time + (s.trig n).filter * uNs)
    execTrigInputEdge n high time s = .next ((s1.onTrig n fun t =>
      if 16 ≤ t.stamps.length then { t with inOvf := true }
      else { t with stamps := t.stamps ++ [(time / uSample * uSample, !s1.clk.coherent)] }).fireObj (s.trig n).ev (trigId n)) := by
  have htakes : (if high then (s.trig n).edge % 2 == 1 else decide (2 ≤ (s.trig n).edge)) = true := by
    cases high <;> simpa using hedge
  exact if_neg (by simp [hmode, hon, htakes])

end

/-! ### Launch slots (R368, R369) -/

theorem execSlotLaunch_armed {s : State} {p j : Fin 4} (harmed : ((s.port p).slot j).st = .armed) :
    let x := (s.port p).slot j
    let due := (List.range (j.val + 1)).filter fun k => ((s.port p).slot k).st == .armed && ((s.port p).slot k).time == x.time
    execSlotLaunch p j s = .next (due.foldl (fun (a : State) k => a.launch p k) (s.advanceTo x.time)) := if_neg (not_not_intro harmed)

/-- Without a timing lane, or without a partner, a slot is lost. -/
theorem State.launch_lost {s : State} {p j : Nat} (hnone : s.timingLane p = none ∨ s.partner p = none) :
    s.launch p j = (s.onPort p fun y => { y with slotLost := inc32 y.slotLost }).onSlot p j fun y => { y with st := .lost } := by
  unfold State.launch
  split
  · next hlane hpartner => exact hnone.elim (fun h => nomatch h.symm.trans hlane) (fun h => nomatch h.symm.trans hpartner)
  · rfl

/-- Settles O38: each clause is the law of its row above. -/
theorem timeRowsComplete : Obligations.TimeRowsComplete := by
  refine ⟨?handled, ?refused, ?sync, fun _ => execAnnounceInterval_on, fun _ _ => execMasterTimeout_heard, fun _ _ _ _ _ => execWithdrawIgnoreEnd_ignores,
    fun _ _ _ => execExchLost_open, fun _ _ _ => execStepApply_set, ?step, ?pulse, fun _ _ _ _ => execTrigInputEdge_taken,
    fun _ _ _ => execSlotLaunch_armed, fun _ _ _ => State.launch_lost, ?launch⟩
  case handled =>
    intro p x s s1 h hhears hin hcls hdest b
    have hrow (row : Nat) (hkind : Sys2Proof.u b 0 1 = row) (hknown : 1 ≤ row ∧ row ≤ 5) :
        Host.Outcome.next (s.timeFrame p x row) = (.next (s1.timeMessage p b x.stamp) : Host.Outcome State Fault Refusal) :=
      congrArg _ (State.timeFrame_handles hhears hin hcls hdest hkind hknown)
    exact ⟨fun hk => hrow 1 hk (by omega), fun hk => hrow 2 hk (by omega), fun hk => hrow 3 hk (by omega), fun hk => hrow 4 hk (by omega),
      fun hk => hrow 5 hk (by omega)⟩
  case refused =>
    intro p x s s1 t hhears hrefused
    have hrow (row : Nat) : Host.Outcome.next (s.timeFrame p x row) = (.next t : Host.Outcome State Fault Refusal) :=
      congrArg _ (State.timeFrame_refused hhears hrefused row)
    exact ⟨hrow 1, hrow 2, hrow 3, hrow 4, hrow 5⟩
  case sync => exact fun p s hon => ⟨execSyncInterval_quiet hon, execSyncInterval_sends hon⟩
  case step =>
    intro s x hstep hfirst s1
    have hrow := execStepApply_step hstep hfirst
    exact ⟨fun m p hmax hpend hle => hrow.trans (congrArg _ (State.stepActs_within hmax hpend hle)),
      fun m hmax hgrown => hrow.trans (congrArg _ (State.stepActs_changed hmax hgrown)),
      fun p hmax hpend => hrow.trans (congrArg _ (State.stepActs_own hmax hpend)),
      fun hmax hpend => hrow.trans (congrArg _ (State.stepActs_moot hmax hpend))⟩
  case pulse => exact fun n s hsched hruns => ⟨execTrigPulse_issues hsched hruns, execTrigPulse_misses hsched hruns⟩
  case launch =>
    intro p j n v s hlane hpartner x ct f b cs l late l1 at' g s1
    unfold State.launch
    rw [hlane, hpartner]

end Sys2Proof.Machine
end

section
/-! ## The rows of the clocks: the meter, qualification, losses, holdover, switches, releases, slips, operating points (R383 to R410) -/
namespace Sys2Proof.Machine

section
variable {s : State}

/-! ### The meter and the qualification windows (R384, R410) -/

theorem execFreqMeasureDone_counts {m : Meter} (hmeter : s.clk.meter = some m) (n : Nat) :
    execFreqMeasureDone (some n) s = .next ((s.onClk fun c => { c with meter := none }).resolve (wait .freqMeter 0 0)
      (leBytes 8 n ++ leBytes 8 (2 ^ m.wlog2) ++ leBytes 8 (n * 2 ^ 32 / 2 ^ m.wlog2))) := by
  simp only [execFreqMeasureDone, hmeter]

theorem execFreqMeasureDone_stopped {m : Meter} (hmeter : s.clk.meter = some m) :
    execFreqMeasureDone none s = .next ((s.onClk fun c => { c with meter := none }).failWait (wait .freqMeter 0 0)
      (err Status.clockStopped 0)) := by
  simp only [execFreqMeasureDone, hmeter]

theorem execQualificationWindowEnd_rec (hon : s.dev.st ≠ .off) (locked : Bool) (nom : Fin 4) (ppb : Int) :
    execQualificationWindowEnd true locked nom ppb s = .next (s.onClk fun c =>
      { c with qualR := (locked && decide (ppb.natAbs ≤ 200000)) && s.recCandidate, recPpb := ppb, lostR := false }).refChanged :=
  if_neg (by simp [hon])

theorem execQualificationWindowEnd_eref (hon : s.dev.st ≠ .off) (locked : Bool) (nom : Fin 4) (ppb : Int) :
    let pass := locked && decide (ppb.natAbs ≤ 200000)
    execQualificationWindowEnd false locked nom ppb s = .next (s.onClk fun c =>
      { c with qualE := pass && nom.val != 0 && c.cfg.erefEn, erefPpb := ppb, erefNom := if pass then nom.val else c.erefNom, lostE := false }).refChanged :=
  if_neg (by simp [hon])

/-! ### Missing edges (R383, R385) -/

theorem execMissingEdge_eref (hon : s.dev.st ≠ .off) (o : Bool) :
    execMissingEdge false o s = if (s.clk.sel = srcEref ∨ s.clk.cfg.erefEn) ∧ !s.clk.lostE then
      .next ((s.onClk fun c => { c with qualE := false, erefNom := 0, lostE := true }).sourceLost (s.clk.sel == srcEref)) else .next s :=
  if_neg (by simp [hon])

theorem execMissingEdge_rec (hon : s.dev.st ≠ .off) :
    execMissingEdge true false s = if s.clk.sel = srcRec ∧ !s.clk.lostSel then
      .next (((s.onClk fun c => { c with sel := srcHold, holdAt := s.now, qualR := false, lastChange := s.now }).refEvent).refChanged)
    else .next (s.onClk fun c => { c with qualR := false }).refChanged :=
  if_neg (by simp [hon])

theorem execMissingEdge_output (hon : s.dev.st ≠ .off) :
    let sel := s.clk.sel == srcRec || s.clk.sel == srcHold
    execMissingEdge true true s = if (sel || s.recCandidate) && !s.clk.lostR then
      .next ((s.onClk fun c => { c with qualR := false, lostR := true }).sourceLost sel) else .next s :=
  if_neg (by simp [hon])

/-! ### Holdover, switches and the forced release (R386, R388, R391) -/

theorem execHoldoverMaxExpiry_held (hsel : s.clk.sel = srcHold) (hlost : s.clk.lostSel = false) (hon : s.dev.st ≠ .off) :
    execHoldoverMaxExpiry s = .next (s.advanceTo (s.clk.holdAt + s.clk.cfg.holdMax * uS)).refChanged :=
  if_pos ⟨hsel, by simp [hlost], hon⟩

theorem execLiveSwitch_pending {src : Nat} (hswitch : s.clk.switchTo = some src) (hlost : s.clk.lostSel = false) (hon : s.dev.st ≠ .off) :
    execLiveSwitch s = .next ((s.onClk fun c => { c with liveSwitch := inc32 c.liveSwitch }).selectSource src).refChanged := by
  simp only [execLiveSwitch, hswitch]
  exact if_neg (by simp [hlost, hon])

/-! ### Slips, the pinning of a Quire, operating points and INT's PLL (R393, R394, R398, R403) -/

/-- The unit of an island's FIFOs, to which its slips are charged. -/
def slipUnit (i : Nat) : FUnit :=
  { kind := 8, phys := if i < 16 then physOf 31 i 0 0 else if i < 33 then physOf (i - 16) 16 0 0 else physOf (i - 33) 17 0 0 }

theorem execSlip_on (hon : s.dev.st ≠ .off) (i : Fin 50) :
    let s1 := (s.onClk fun c => { c with islands := tmod .reset c.islands i.val fun x => { x with slips := inc32 x.slips } }).refEvent
    execSlip i s = .next (if s1.isRetired (slipUnit i) then s1 else s1.detect (slipUnit i) (tget Island.reset s1.clk.islands i.val).slips 0 none) :=
  if_neg (by simp [hon])

theorem execPinEnter_pins {q : Fin 16} (hneeds : s.needsPin q = true) (hpq : s.pq q ≠ 31) (huse : (s.coreIsl (s.pq q)).use ≤ 1)
    (hpinned : s.clk.pinned.contains q.val = false) (hlost : s.clk.lostSel = false) (hroot : s.clk.rootReset = false) :
    execPinEnter q s =
      .next ((s.advanceTo (tickAfter (max s.now (s.coreIsl (s.pq q)).since))).onClk fun c => { c with pinned := q.val :: c.pinned }) := by
  refine if_pos ⟨hneeds, hpq, huse, ?_, ?_, ?_⟩
  · rw [hpinned]; rfl
  · rw [hlost]; rfl
  · rw [hroot]; rfl

theorem execDvfsTransitionDone_done {p : Fin 17} {pt t : Nat} (htrans : (s.coreIsl p).trans = some (pt, t)) :
    execDvfsTransitionDone p s = .next ((s.advanceTo t).onCoreIsl p fun c =>
      ({ c with trans := none, use := pt, since := if c.use = pt then c.since else t, count := inc32 c.count } : CoreIsl).begin t) := by
  simp only [execDvfsTransitionDone, htrans]

theorem execIntPllLock_on (hon : s.dev.st ≠ .off) :
    execIntPllLock s = .next (s.onClk fun c => { c with intLock := true, rootReset := if c.sel = srcInt then false else c.rootReset }).refChanged :=
  if_neg (by simp [hon])

end

/-- Settles O39: each clause is the law of its row above, which its conditions decide. -/
theorem clockRowsComplete : Obligations.ClockRowsComplete := by
  refine ⟨fun n _ _ hmeter => ⟨execFreqMeasureDone_counts hmeter n, execFreqMeasureDone_stopped hmeter⟩,
    fun locked nom ppb _ hon => ⟨execQualificationWindowEnd_rec hon locked nom ppb, execQualificationWindowEnd_eref hon locked nom ppb⟩,
    ?eref, ?recovered, ?output, fun _ _ => rfl, fun _ => execHoldoverMaxExpiry_held, fun _ _ => execLiveSwitch_pending, ?release, ?slip,
    fun _ _ => execPinEnter_pins, fun _ _ _ _ => execDvfsTransitionDone_done, fun _ => execIntPllLock_on⟩
  case eref =>
    refine fun o s hon => ⟨fun hcand hnew => ?_, fun hsel hen => ?_, fun hlost => ?_⟩
    · exact (execMissingEdge_eref hon o).trans (if_pos ⟨hcand, by rw [hnew]; rfl⟩)
    · exact (execMissingEdge_eref hon o).trans (if_neg (by simp [hsel, hen]))
    · exact (execMissingEdge_eref hon o).trans (if_neg (by simp [hlost]))
  case recovered =>
    refine fun s hon => ⟨fun hsel hnew => ?_, fun hnot => ?_⟩
    · exact (execMissingEdge_rec hon).trans (if_pos ⟨hsel, by rw [hnew]; rfl⟩)
    · refine (execMissingEdge_rec hon).trans (if_neg ?_)
      rintro ⟨hsel, hnew⟩
      exact hnot.elim (· hsel) fun hlost => by simp [hlost] at hnew
  case output =>
    refine fun s hon => ⟨fun hcand hnew => ?_, fun hnot => ?_⟩
    · exact (execMissingEdge_output hon).trans (if_pos (by rw [hcand, hnew]; rfl))
    · refine (execMissingEdge_output hon).trans (if_neg ?_)
      rcases hnot with hcand | hlost
      · rw [hcand]; exact Bool.false_ne_true
      · simp [hlost]
  case release =>
    intro gap s hlost hon src s1 s2 s3 wait s4
    exact if_neg (by simp [hlost, hon])
  case slip =>
    intro i s hon s1 x
    exact ⟨fun hret => (execSlip_on hon i).trans (congrArg _ (if_pos hret)),
      fun hin => (execSlip_on hon i).trans (congrArg _ (if_neg (Bool.eq_false_iff.mp hin)))⟩

end Sys2Proof.Machine
end

section
/-! ## The rows of the capture units and of the interval meter (R418 to R447, R477) -/
namespace Sys2Proof.Machine

section
variable {s : State}

/-! ### Capture units (R418 to R430) -/

section
variable {n : Nat} {c : CapCfg} {x : List AdcIn} {k : Nat} {st : CapSt}

/-- The first sample that a row brings has come, been counted and been judged. -/
def State.capFirst (s : State) (n : Nat) (c : CapCfg) (x : List AdcIn) : State :=
  let t := (s.capU n).from' * c.period
  let s1 := s.advanceTo t
  (if c.skind = 1 then s1.countOver x c.line (s.capU n).from' 1 else s1).capSample n false (s1.capForm c x (s.capU n).from' t)

theorem State.capRow_takes (hcfg : (s.capU n).cfg = some c) (hkind : c.skind ≠ 2) (hreach : c.reach x (s.capU n).from' = k + 1)
    (hst : (s.capU n).st = st) : s.capRow n st x = State.capTake n st x k (s.capFirst n c x) := capRow_first hcfg hst hkind hreach

end

theorem execHoldoffEnd_window {n : Fin 16} (hkind : (s.capU n).skind = 2) (hst : (s.capU n).st = .holdoff) (x : List AdcIn) :
    execHoldoffEnd n x s = .next ((s.advanceTo (s.capU n).holdTo).capRearm n) := (if_pos hkind).trans (if_pos hst)

theorem execHoldoffEnd_row {n : Fin 16} (hkind : (s.capU n).skind ≠ 2) (x : List AdcIn) : execHoldoffEnd n x s = .next (s.capRow n .holdoff x) :=
  if_neg hkind

/-- A unit that is armed again takes the trigger that waits for it. -/
theorem State.capRearm_takes {n port : Nat} {t : CapTrig} (hpend : (s.capU n).trigPend = some (t, port)) :
    s.capRearm n = (s.evFieldsApply port (captureId n) (capTrigEvents t.evch 0xFFFF)).onCapU n fun u =>
      { u with st := .armed, trig := some t, trigPend := none, up := false, down := false, evAt := none, hops := 0 } := by
  rw [State.capRearm, hpend]

/-! ### Calibrations of the interval meter (R447, R477) -/

section
variable {n : Fin 8} {h1 h2 : List Nat} {m : Int} {l lg : Nat}

/-- The state in which a calibration of line `l` has ended, at the temperature `m`. -/
def State.tinCalEnded (s : State) (l : Nat) (m : Int) : State := (s.onTinIn l fun x => { x with calBy := none }).onCap fun c => { c with temp := m }

theorem execTinCalDone_suspended (hrun : s.tinRun n = some (l, lg)) (hsusp : s.bsc.cal.suspended = true) :
    execTinCalDone n h1 h2 m s = .next ((s.tinCalEnded l m).failWait (wait .tinCal n 0) (err Status.calSuspended 0)) := by
  simp only [execTinCalDone, hrun, hsusp, if_true, State.tinCalEnded]

theorem execTinCalDone_agrees (hrun : s.tinRun n = some (l, lg)) (hsusp : s.bsc.cal.suspended = false) (hagree : tinAgree (2 ^ lg) h1 h2 = true) :
    execTinCalDone n h1 h2 m s = .next ((((s.tinCalEnded l m).onTinIn l fun x =>
      { x with table := if s.tinBusy l || 16 ≤ l then x.table else some (tinWidths (2 ^ lg) h1 h2),
               tablePend := if s.tinBusy l || 16 ≤ l then some (tinWidths (2 ^ lg) h1 h2) else none, calTemp := m, calTime := s.now }).onCal fun c =>
        { c with accepted := inc32 c.accepted, lastAccept := s.now }).resolve (wait .tinCal n 0) []) := by
  simp only [execTinCalDone, hrun, hsusp, hagree, Bool.false_eq_true, if_false, if_true, State.tinCalEnded]

theorem execTinCalDone_disagrees (hrun : s.tinRun n = some (l, lg)) (hsusp : s.bsc.cal.suspended = false)
    (hagree : tinAgree (2 ^ lg) h1 h2 = false) :
    execTinCalDone n h1 h2 m s = .next ((((s.tinCalEnded l m).onTinIn l fun x => { x with disagree := inc32 x.disagree }).calDisagrees).failWait
      (wait .tinCal n 0) (err Status.tinCalDisagree 0)) := by
  simp only [execTinCalDone, hrun, hsusp, hagree, Bool.false_eq_true, if_false, State.tinCalEnded]

end

/-! ### Edges (R438 to R446) -/

section
variable {src : Fin 15} {rising : Bool} {tclk taps held : Nat} {m : Int}

/-- The state at the edge of the meter's clock that takes an edge. -/
def State.tinAt (s : State) (tclk : Nat) (m : Int) : State := (s.advanceTo (tclk * uTick)).onCap fun c => { c with temp := m }

/-- The marks of a stamp: the time unit is not coherent, or the line's table is stale. -/
def State.tinMarks (s : State) (line : Nat) (m : Int) : Nat := ofBool (!s.clk.coherent) + 2 * ofBool ((s.tinIn line).stale m)

/-- An input takes an edge that has stood for its filter's time, while its line is not being calibrated. -/
def TinIn.takes (x : TinIn) (held : Nat) : Prop := x.filter ≤ held ∧ x.calBy = none

/-- An edge at `t` comes less than 250 ns after the last. -/
def TinIn.tooFast (x : TinIn) (t : Int) : Bool := match x.lastEdge with | some l => decide (5 * (t - l) < (2097152 : Int)) | none => false

/-- What an edge of an input that is taken does. -/
def State.tinInput (s : State) (src : Nat) (rising : Bool) (tclk taps : Nat) (m : Int) : State :=
  let e := (s.tinTables src rising).edgeTime src tclk taps
  if (s.tinIn src).tooFast e.1 then e.2.onTinEng src fun e => { e with tooFast := inc32 e.tooFast }
  else
    let s4 := e.2.onTinIn src fun x => { x with lastEdge := some e.1.toNat, edges := (x.edges + 1) % 2 ^ 64 }
    (s4.tinUsers src).foldl (fun a n => a.tinUse n src rising e.1 (a.tinMarks src m)) s4

theorem TinIn.takes_iff {x : TinIn} : x.takes held ↔ ¬ (held < x.filter ∨ x.calBy.isSome = true) := by
  rw [TinIn.takes, not_or, Nat.not_lt, Option.not_isSome_iff_eq_none]

theorem execTinEdge_refused (hruns : s.runs = true) (hinput : src.val < 8) (hnot : ¬ ((s.tinAt tclk m).tinIn src).takes held) :
    execTinEdge src rising tclk taps held m s = .next (s.tinAt tclk m) :=
  (if_neg (by simp [hruns])).trans ((if_pos hinput).trans (if_pos (Decidable.not_not.mp (mt TinIn.takes_iff.mpr hnot))))

theorem execTinEdge_taken (hruns : s.runs = true) (hinput : src.val < 8) (htakes : ((s.tinAt tclk m).tinIn src).takes held) :
    execTinEdge src rising tclk taps held m s = .next ((s.tinAt tclk m).tinInput src rising tclk taps m) := by
  refine (if_neg (by simp [hruns])).trans ((if_pos hinput).trans ((if_neg (TinIn.takes_iff.mp htakes)).trans ?_))
  exact (apply_ite Host.Outcome.next _ _ _).symm

theorem TinIn.tooFast_of_late {x : TinIn} {t : Int} (hlate : ∀ l, x.lastEdge = some l → 2097152 ≤ 5 * (t - (l : Int))) : x.tooFast t = false := by
  cases hl : x.lastEdge with
  | none => simp only [TinIn.tooFast, hl]
  | some l => simpa only [TinIn.tooFast, hl, decide_eq_false_iff_not, Int.not_lt] using hlate l hl

theorem TinIn.tooFast_of_early {x : TinIn} {t : Int} {l : Nat} (hl : x.lastEdge = some l) (hearly : 5 * (t - (l : Int)) < 2097152) : x.tooFast t = true := by
  simpa only [TinIn.tooFast, hl, decide_eq_true_eq] using hearly

/-- An internal source is divided by 64. -/
theorem execTinEdge_internal (hruns : s.runs = true) (hinternal : 8 ≤ src.val) :
    let s1 := s.tinAt tclk m
    let k := tget 0 s1.cap.divs src + 1
    let s2 := (s1.onCap fun c => { c with divs := terase c.divs src }).tinTables src true
    execTinEdge src rising tclk taps held m s = if !rising then .next s1
      else if k < 64 then .next (s1.onCap fun c => { c with divs := tput 0 c.divs src k })
      else .next ((s2.tinUsers src).foldl (fun (a : State) n =>
        let e := a.edgeTime n tclk taps
        e.2.tinUse n src true e.1 (e.2.tinMarks n m)) s2) :=
  (if_neg (by simp [hruns])).trans (if_neg (Nat.not_lt.mpr hinternal))

end

theorem execNoStop_open {n : Fin 8} {since : Nat} {o : Int} (hrun : (s.tinEng n).running = true) (hmode : (s.tinEng n).cfg.mode = 2)
    (hopen : (s.tinEng n).open' = some (o, since)) :
    execNoStop n s = .next ((s.advanceTo (since + (s.tinEng n).cfg.timeout * uUs)).onTinEng n fun e =>
      { e with open' := none, noStop := inc32 e.noStop }) := by
  simp only [execNoStop, hopen]
  exact if_pos ⟨hrun, hmode⟩

end

/-- Settles O41: each clause is the law of its row above. -/
theorem captureAndIntervalRowsComplete : Obligations.CaptureAndIntervalRowsComplete := by
  refine ⟨?sample, ?nothing, fun _ x _ hkind hst => execHoldoffEnd_window hkind hst x, fun _ _ => ⟨fun _ _ => State.capRearm_takes, capRearm_plain⟩,
    fun _ _ _ _ _ _ _ hrun => ⟨execTinCalDone_suspended hrun, execTinCalDone_agrees hrun, execTinCalDone_disagrees hrun⟩, ?input, ?internal,
    fun _ _ _ _ => execNoStop_open⟩
  case sample =>
    intro n x s c k hcfg hkind hreach t s1 s2
    refine ⟨fun hst => ?_, fun hst => ?_, fun hst hskind => ?_⟩
    · exact congrArg _ (State.capRow_takes hcfg hkind hreach hst)
    · exact congrArg _ (State.capRow_takes hcfg hkind hreach hst)
    · exact (execHoldoffEnd_row hskind x).trans (congrArg _ (State.capRow_takes hcfg hkind hreach hst))
  case nothing =>
    exact fun n x s c hcfg hreach => ⟨congrArg _ (capRow_none hcfg hreach), congrArg _ (capRow_none hcfg hreach)⟩
  case input =>
    intro src rising tclk taps held m s hruns hinput s1 e taken
    refine ⟨execTinEdge_refused hruns hinput, fun htaken hlate => ?_, fun htaken l hl hearly => ?_⟩
    · exact (execTinEdge_taken hruns hinput htaken).trans (congrArg _ (if_neg (Bool.eq_false_iff.mp (TinIn.tooFast_of_late hlate))))
    · exact (execTinEdge_taken hruns hinput htaken).trans (congrArg _ (if_pos (TinIn.tooFast_of_early hl hearly)))
  case internal =>
    intro src rising tclk taps held m s hruns hinternal s1 k s2
    have hrow := execTinEdge_internal (rising := rising) (tclk := tclk) (taps := taps) (held := held) (m := m) hruns hinternal
    refine ⟨?_, ?_, ?_⟩
    · rintro rfl; exact hrow
    · rintro rfl hfew; exact hrow.trans (if_pos hfew)
    · rintro rfl hfull; exact hrow.trans (if_neg (Nat.not_lt.mpr hfull))

end Sys2Proof.Machine
end

section
/-! ## The rows of the bias channels and of the monitor (R455 to R480) -/
namespace Sys2Proof.Machine

section
variable {s : State}

/-! ### Bias channels (R455 to R468) -/

theorem execRangeRelease_held {n : Fin 64} {k r : Nat} {v : Option Int} (hsw : (s.bch n).sw = some { step := .held k, range := r, target := v }) :
    execRangeRelease n s = .next (((s.advanceTo ((k + 20) * uUs)).onBch n fun c =>
      let code := codeOf r c.pos
      let pos := code * (biasLsb r : Int)
      { c with sw := c.sw.map fun w => { w with step := .rel k }, range := r, code := code, pos := pos, avg := [], avgLast := none,
               deglitch := if bits (ofSigned 20 code) 12 8 ≠ bits (ofSigned 20 c.code) 12 8 then inc32 c.deglitch else c.deglitch }).resolve
        (wait .biasRange (biasId n) 0) []) := by
  simp only [execRangeRelease, hsw]

theorem execBiasUpdate_on (hon : s.dev.st ≠ .off) :
    let k := s.bsc.k + 1
    let s1 := s.advanceTo (k * uUs)
    execBiasUpdate s = .next (s1.onBsc fun x => { x with k := k, chs := (List.range 64).foldl (fun t n =>
      tput .reset t n ((tget .reset t n).update s1.bsc n (!s1.clk.coherent && s1.dev.st != .endpaper) k)) x.chs }) := if_neg (by simp [hon])

theorem execBclrN_clears (hon : s.dev.st ≠ .off) :
    execBclrN true s = .next (s.onBsc fun b => { b with bclr := true, chs := (List.range 64).foldl (fun t n => tmod .reset t n fun c =>
      { c with cleared := true, clrStep := c.live.clrNow, gen := none, pend := [], clrEp := false, avg := [], avgLast := none }) b.chs }) := by
  simp only [execBclrN, beq_iff_eq, hon, if_false, if_true]

theorem execBclrN_releases (hon : s.dev.st ≠ .off) :
    execBclrN false s = .next (s.onBsc fun b => { b with bclr := false, chs := (List.range 64).foldl (fun t n => tmod .reset t n fun c =>
      if s.dev.st = .endpaper ∧ c.clrEp = true then { (c.enterEp { b with bclr := false } n) with cleared := false } else c) b.chs }) := by
  simp only [execBclrN, beq_iff_eq, hon, Bool.and_eq_true, Bool.false_eq_true, if_false]

/-- Without VAUX the pin is followed, and nothing is cleared. -/
theorem execBclrN_off (hoff : s.dev.st = .off) (low : Bool) : execBclrN low s = .next (s.onBsc fun b => { b with bclr := low }) := by
  simp only [execBclrN, hoff, beq_self_eq_true, if_true]

section
variable {n : Fin 64} (hst : (s.bch n).st = .clamped) (hmay : s.bsc.mayRamp = true) (hon : s.dev.st ≠ .off) (hep : s.dev.st ≠ .endpaper)
include hst hmay hon hep

/-- The row of a clamped channel goes by its entry of the safe codes. -/
theorem powerUpRamp_clamped : ¬ ((s.bch n).st ≠ .clamped || !s.bsc.mayRamp || s.dev.st == .off || s.dev.st == .endpaper) = true := by
  simp [hst, hmay, hon, hep]

theorem execPowerUpRamp_ramps {e : Safety} (hentry : s.safeEntry n = some e) (hpos : bitOf s.clk.good 9 = true) (hneg : bitOf s.clk.good 10 = true) :
    execPowerUpRamp n s = .next ((s.onBsc fun b => { b with bclrFilter := s.safeFilter }).onBch n fun c =>
      { c with st := .ramping, cleared := c.cleared || s.bsc.bclr, clrStep := e.clrNow, ep := none, hold := false, live := e, range := e.range,
               pos := 0, code := 0, target := e.safe, slew := e.slew, gen := none, pend := [],
               sw := none, rampAt := s.now + 50 * uUs }) := by
  rw [execPowerUpRamp, if_neg (powerUpRamp_clamped hst hmay hon hep), hentry]
  exact if_pos ⟨hpos, hneg⟩

theorem execPowerUpRamp_nosafe (hentry : s.safeEntry n = none) :
    execPowerUpRamp n s = .next (((s.onBch n fun c => { c with st := .nosafe }).logFault (unitC 12 n) 3 0 (biasId n) 0).toReduced) := by
  rw [execPowerUpRamp, if_neg (powerUpRamp_clamped hst hmay hon hep), hentry]

end

/-! ### The monitor's slots (R472 to R475) -/

/-- The system slot that comes next: the fourth of its group. -/
def State.nextSystemSlot (s : State) : Nat :=
  let base := max (s.bsc.sysSlot + 1) (ceilDiv s.now uUs)
  base + (3 - base % 4)

/-- The state at the end of system slot `slot`. -/
def State.atSystemSlot (s : State) (slot : Nat) : State :=
  (s.advanceTo ((slot + 1) * uUs)).onBsc fun b => { b with sysSlot := slot, round := (b.round + 1) % 114 }

/-- What the system's conversion of channel `ch` in `slot` does: the zero, the band gap, a temperature without a spare Quire, a channel, a read-back. -/
def State.systemConverts (s : State) (ch slot : Nat) (raw : Int) : State :=
  let y := s.bsc.corrected ch 0 raw
  if ch = 146 then s.onCal fun c => { c with zeros := raw :: c.zeros.take 1 }
  else if ch = 32 then (s.onCal fun c => { c with bgs := raw :: c.bgs.take 1 }).monResult 32 y (slot * uUs) 0 true true
  else if ch = 74 ∧ s.svc.spq.isNone then s
  else
    let s2 := s.monResult ch y (slot * uUs) 0 true true
    if 82 ≤ ch then s2.biasReadback (ch - 82) y else s2

theorem execSystemSlot_on (hon : s.dev.st ≠ .off) (x : BitVec 18) :
    execSystemSlot x s = .next ((s.atSystemSlot s.nextSystemSlot).systemConverts (roundCh s.bsc.round) s.nextSystemSlot (rawOf x)) := if_neg (by simp [hon])

section
variable {ch slot : Nat} {raw : Int}

theorem State.systemConverts_zero (hch : ch = 146) : s.systemConverts ch slot raw = s.onCal fun c => { c with zeros := raw :: c.zeros.take 1 } :=
  if_pos hch

theorem State.systemConverts_bandgap (hch : ch = 32) :
    s.systemConverts ch slot raw =
      (s.onCal fun c => { c with bgs := raw :: c.bgs.take 1 }).monResult 32 (s.bsc.corrected ch 0 raw) (slot * uUs) 0 true true :=
  (if_neg (by omega)).trans (if_pos hch)

/-- The temperature of the spare Quire is not converted where there is none. -/
theorem State.systemConverts_noSpare (hch : ch = 74) (hspare : s.svc.spq = none) : s.systemConverts ch slot raw = s :=
  (if_neg (by omega)).trans ((if_neg (by omega)).trans (if_pos ⟨hch, by rw [hspare]; rfl⟩))

theorem State.systemConverts_channel (hzero : ch ≠ 146) (hbandgap : ch ≠ 32) (hspare : ch = 74 → s.svc.spq ≠ none) :
    s.systemConverts ch slot raw =
      (let s2 := s.monResult ch (s.bsc.corrected ch 0 raw) (slot * uUs) 0 true true
       if 82 ≤ ch then s2.biasReadback (ch - 82) (s.bsc.corrected ch 0 raw) else s2) :=
  (if_neg hzero).trans ((if_neg hbandgap).trans (if_neg fun ⟨hch, hnone⟩ => hspare hch (Option.isNone_iff_eq_none.mp hnone)))

end

/-- The host slot that comes next: each but the fourth of its group. -/
def State.nextHostSlot (s : State) : Nat :=
  let base := max (s.bsc.hostSlot + 1) (ceilDiv s.now uUs)
  if base % 4 = 3 then base + 1 else base

/-- The state at the start of host slot `slot`, in which the calibrations of bias channels have asked for their conversions. -/
def State.atHostSlot (s : State) (slot : Nat) : State :=
  let s1 := (s.advanceTo (slot * uUs)).onBsc fun b =>
    { b with hostSlot := slot, seq := { b.seq with passFrom := if b.seq.run && b.seq.passFrom.isNone then some slot else b.seq.passFrom } }
  s1.bsc.calRuns.foldl (fun (a : State) r => a.biasCalNext r) s1

/-- What a host slot converts: the sequence's next channel, or an injection, which begins where none runs, restarts the sequence, or waits. -/
def State.hostConverts (s : State) (slot : Nat) (raw : Int) : State :=
  let q := s.bsc.seq
  match s.bsc.injs with
  | [] => s.seqSlot slot raw
  | i :: rest =>
    if i.begun || !q.run then s.injSlot i rest slot raw
    else if 8 ≤ q.again then
      (if q.delayed then s else s.onSeq fun q => { q with delayed := true, injDelayed := inc32 q.injDelayed }).seqSlot slot raw
    else
      (if q.idle = 0 ∧ q.conv = 0 then s
        else s.onSeq fun q => { q with idle := 0, conv := 0, sum := 0, again := q.again + 1, restarts := inc32 q.restarts }).injSlot i rest slot raw

theorem execHostSlot_on (hon : s.dev.st ≠ .off) (x : BitVec 18) :
    execHostSlot x s = .next (((s.atHostSlot s.nextHostSlot).hostConverts s.nextHostSlot (rawOf x)).advanceTo ((s.nextHostSlot + 1) * uUs)) :=
  if_neg (by simp [hon])

section
variable {slot : Nat} {raw : Int}

theorem State.hostConverts_sequence (hinjs : s.bsc.injs = []) : s.hostConverts slot raw = s.seqSlot slot raw := by
  simp only [State.hostConverts, hinjs]

variable {i : Inj} {rest : List Inj} (hinjs : s.bsc.injs = i :: rest)
include hinjs

theorem State.hostConverts_injects (hbegins : i.begun = true ∨ s.bsc.seq.run = false) : s.hostConverts slot raw = s.injSlot i rest slot raw := by
  simp only [State.hostConverts, hinjs]
  exact if_pos (by simpa using hbegins)

variable (hbegun : i.begun = false) (hrun : s.bsc.seq.run = true)
include hbegun hrun

/-- After eight restarts of the sequence an injection waits. -/
theorem State.hostConverts_waits (hagain : 8 ≤ s.bsc.seq.again) :
    s.hostConverts slot raw =
      (if s.bsc.seq.delayed then s else s.onSeq fun q => { q with delayed := true, injDelayed := inc32 q.injDelayed }).seqSlot slot raw := by
  simp only [State.hostConverts, hinjs]
  exact (if_neg (by simp [hbegun, hrun])).trans (if_pos hagain)

theorem State.hostConverts_restarts (hagain : s.bsc.seq.again < 8) :
    s.hostConverts slot raw =
      (if s.bsc.seq.idle = 0 ∧ s.bsc.seq.conv = 0 then s
        else s.onSeq fun q => { q with idle := 0, conv := 0, sum := 0, again := q.again + 1, restarts := inc32 q.restarts }).injSlot i rest slot raw := by
  simp only [State.hostConverts, hinjs]
  exact (if_neg (by simp [hbegun, hrun])).trans (if_neg (Nat.not_le.mpr hagain))

end

/-! ### The calibration controller's intervals (R478 to R480) -/

/-- The state at the next interval of class `k`, whose divider is `c.div`. -/
def State.atCorrection (s : State) (k : Nat) : State :=
  let c := lget ⟨1, 10, 0⟩ s.bsc.cal.classes k
  let t := (max c.last s.now / (c.intervalMs * uMs) + 1) * (c.intervalMs * uMs)
  (s.advanceTo t).onCal fun x => { x with classes := lput x.classes k { c with last := t } }

/-- One step of the corrections of class `k`: those of the monitor and the bias channels, of the DAC lines, or of the ADC lines. -/
def State.corrects (s : State) (k div : Nat) : State :=
  if s.bsc.cal.suspended then s
  else if k = 2 then s.onRf fun r => { r with dacs := r.dacs.map fun (e : Nat × DacLine) => (e.1, { e.2 with cal := e.2.cal.move div }) }
  else if k = 3 then s.onRf fun r => { r with adcs := r.adcs.map fun (e : Nat × AdcLine) => (e.1, { e.2 with cal := e.2.cal.move div }) }
  else s.onCal fun x => { x with corrs := moveCorrs x.corrs (k == 0) div }

theorem execCorrectionInterval_on (hon : s.dev.st ≠ .off) (k : Fin 4) :
    execCorrectionInterval k s = .next ((s.atCorrection k).corrects k (lget ⟨1, 10, 0⟩ s.bsc.cal.classes k).div) := if_neg (by simp [hon])

end

/-- Settles O42: each clause is the law of its row above. -/
theorem biasAndMonitorRowsComplete : Obligations.BiasAndMonitorRowsComplete := by
  refine ⟨fun _ _ _ _ _ => execRangeRelease_held, fun _ => execBiasUpdate_on, fun _ => execBclrN_clears, fun _ => execBclrN_releases,
    fun low _ hoff => execBclrN_off hoff low, fun _ _ _ => rfl, fun _ _ _ hst hmay hon hep => execPowerUpRamp_ramps hst hmay hon hep,
    fun _ _ => execPowerUpRamp_nosafe, ?system, ?host, ?compare, ?correct⟩
  case system =>
    intro x s hon base slot ch s1 y
    have hrow := execSystemSlot_on hon x
    refine ⟨fun hzero => hrow.trans (congrArg _ (State.systemConverts_zero hzero)), fun hb => hrow.trans (congrArg _ (State.systemConverts_bandgap hb)),
      fun hch hnone => hrow.trans (congrArg _ (State.systemConverts_noSpare hch hnone)), fun hzero hb hspare hlow => ?_, fun hhigh hzero => ?_⟩
    · exact hrow.trans (congrArg _ ((State.systemConverts_channel hzero hb hspare).trans (if_neg (Nat.not_le.mpr hlow))))
    · exact hrow.trans (congrArg _ ((State.systemConverts_channel hzero (by omega) (by omega)).trans (if_pos hhigh)))
  case host =>
    intro x s hon base slot s1 s2
    have hrow {t : State} (h : s2.hostConverts slot (rawOf x) = t) : execHostSlot x s = .next (t.advanceTo ((slot + 1) * uUs)) :=
      (execHostSlot_on hon x).trans (congrArg (fun a : State => Host.Outcome.next (a.advanceTo ((slot + 1) * uUs))) h)
    exact ⟨fun hidle => hrow (State.hostConverts_sequence hidle), fun i rest hinjs =>
      ⟨fun hbegins => hrow (State.hostConverts_injects hinjs hbegins),
        fun hbegun hrun hagain => hrow (State.hostConverts_waits hinjs hbegun hrun hagain),
        fun hbegun hrun hagain => hrow (State.hostConverts_restarts hinjs hbegun hrun hagain)⟩⟩
  case compare =>
    intro a b s hon s1 va vb d agrees s2 s3
    exact if_neg (by simp [hon])
  case correct =>
    intro k s hon c t s1
    have hrow := execCorrectionInterval_on hon k
    refine ⟨fun hsusp => hrow.trans (congrArg _ (if_pos hsusp)), fun hgoes hk => hrow.trans (congrArg _ ((if_neg (Bool.eq_false_iff.mp hgoes)).trans ?_)),
      fun hgoes hk => hrow.trans (congrArg _ ((if_neg (Bool.eq_false_iff.mp hgoes)).trans (if_pos hk))),
      fun hgoes hk => hrow.trans (congrArg _ ((if_neg (Bool.eq_false_iff.mp hgoes)).trans ((if_neg (by omega)).trans (if_pos hk))))⟩
    exact (if_neg (by omega)).trans (if_neg (by omega))

end Sys2Proof.Machine
end

section
/-! ## The rows of the event fabric, of faults, sparing and live service, and of trust (R33, R75, R76, R502 to R562) -/
namespace Sys2Proof.Machine

section
variable {s : State}

/-! ### Events (R502 to R507) -/

theorem execEvFireWrite_on (hon : s.dev.st ≠ .off) (hup : s.hifUp = true) (r : Fin 8) (v : BitVec 32) :
    execEvFireWrite r v s = .next (s.fireWrite r v.toNat) := if_neg (by simp [hon, hup])

/-- What the arrivals `hit` of flight `x`'s channel at its task do together at `e`, `left` being the flights that go on. -/
def State.arrive (s : State) (x : Flight) (e : Nat) (hit left : List Flight) : State :=
  let s1 := s.onEv fun v => { v with flights := left, acted := (x.ch, x.task, e) :: v.acted.filter fun a => decide (e ≤ a.2.2) }
  let s2 := if 2 ≤ hit.length then s1.coincide x.ch x.task (hit.map fun f => f.prod) (e - x.task.cycle) else s1
  if hit = [] then s else s2.activate x.ch x.task (hit.flatMap fun f => f.fields)
    (hit.foldl (fun (m : Nat) f => min m f.prod) x.prod) (hit.foldl (fun (m : Nat) f => max m f.ehops) 0)
    (hit.foldl (fun (m : Nat) f => min m f.time) x.time)

theorem execEventActivation_flies {k : Nat} {y : Flight} {tl : List Flight} (hflight : s.ev.flights.drop k = y :: tl) (n : Nat) :
    let x := s.oldest y
    let e := s.actEnd x
    let s0 := s.advanceTo e
    let all := s0.ev.flights.filter x.same
    let near := all.filter (x.meets e)
    execEventActivation k n s = .next (s0.arrive x e (near.take (n + 1))
      (s0.ev.flights.filter (fun f => !x.same f) ++ near.drop (n + 1) ++ all.filter fun f => !x.meets e f)) := by
  unfold execEventActivation
  rw [hflight]
  exact (apply_ite Host.Outcome.next _ _ _).symm

/-! ### Migration and the hand-over of firmware (R541 to R546) -/

theorem execPrecopyDone_copies {m : Migration} (hmig : s.svc.migration = some m) (hcopied : m.copied = false) (d : Nat) :
    let s1 := s.advanceTo (m.since + copyTime (if m.first then copyBytes else m.dirty))
    execPrecopyDone d s = .next (s1.onSvc fun v =>
      { v with migration := some { m with since := s1.now, first := false, copied := decide (d ≤ 524288), dirty := d } }) := by
  unfold execPrecopyDone
  rw [hmig]
  exact if_neg (Bool.eq_false_iff.mp hcopied)

theorem execMigrationSwitch_ready {m : Migration} (hmig : s.svc.migration = some m) (hmay : s.maySwitch m = true) :
    execMigrationSwitch s = .next ((s.advanceTo (s.now + 6 * uUs + copyTime m.dirty)).switch m) := by
  simp only [execMigrationSwitch, hmig, hmay, if_true]

theorem execFirmwareStaged_staging {a b : Nat} (hstage : s.svc.handover = .staging a b) (ok : Bool) :
    execFirmwareStaged ok s = .next (if ok then s.onSvc fun v => { v with handover := .waitPause a b }
      else (s.onSvc fun v => { v with handover := .idle }).failWait (wait .fwActivate 0 0) (err Status.fwStateIncompat 0)) := by
  simp only [execFirmwareStaged, hstage]

theorem execHandoverPause_waits {a b : Nat} (hstage : s.svc.handover = .waitPause a b) :
    execHandoverPause s = .next (s.noting fun s => s.onSvc fun v => { v with handover := .pause a b s.now (b == 0) }).dropExchanges := by
  simp only [execHandoverPause, hstage]

section
variable {a b since : Nat} {back : Bool} (hpause : s.svc.handover = .pause a b since back) (host : List (List (Option (List Byte))))
include hpause

theorem execHandoverReadyTimeout_paused :
    let s1 := (s.advanceTo (since + 150 * uUs)).noting fun s => s.onSvc fun v => { v with handover := .idle }
    execHandoverReadyTimeout host s = .next ((if back then s1 else s1.timeoutWait (wait .fwActivate 0 0)).goOn host) := by
  simp only [execHandoverReadyTimeout, hpause]

theorem execNewFirmwareReady_inTime (htime : s.now ≤ since + 150 * uUs) :
    let trial := if back then none else some (s.dev.fwRunning, s.now + b * uS)
    let s1 := s.noting fun s => (s.onSvc fun v => { v with handover := .idle, trial := trial }).onDev fun d => { d with fwRunning := a }
    execNewFirmwareReady host s = .next ((if back then s1 else s1.resolve (wait .fwActivate 0 0) []).goOn host) := by
  simp only [execNewFirmwareReady, hpause]
  exact if_neg (Nat.not_lt.mpr htime)

end

theorem execTrialTimeout_trial {n t : Nat} (htrial : s.svc.trial = some (n, t)) : execTrialTimeout s = .next (s.advanceTo t).handBack := by
  simp only [execTrialTimeout, htrial]

/-! ### Errors, self-tests and moves (R527 to R535) -/

theorem execErrorDetected_healthy {k : Fin 14} {ph : BitVec 32} (hkind : errorKind k.val = true) (hon : s.dev.st ≠ .off)
    (hok : ({ kind := k.val, phys := ph.toNat } : FUnit).ok = true) (hret : s.isRetired { kind := k.val, phys := ph.toNat } = false)
    (d : BitVec 32) (l : Lost) (pg : Option (Nat × Nat)) :
    let x : FUnit := { kind := k.val, phys := ph.toNat }
    execErrorDetected k ph d l pg s = if l = .corrected then .next (s.correctedError x d.toNat pg)
      else .next ((s.consume x l).detect x d.toNat (if l = .no then 0 else 2) pg) := if_pos (by simp [hkind, hok, hon, hret])

/-- What the end of a unit's test does, for the reason of the test. -/
def State.testEnds (s : State) (t : RunTest) (pass : Bool) : State :=
  let x := t.unit
  match t.why with
  | .selftest => if pass then s.resolve (wait .selftest x.kind x.phys) [] else s.failWait (wait .selftest x.kind x.phys) (err 0x1101 0)
  | .readmit =>
    if pass then (((s.unitBack x).logFault x 4 0 (s.objectOf x) t.detail).backToRun).resolve (wait .readmit x.kind x.phys) []
    else s.failWait (wait .readmit x.kind x.phys) (err 0x1101 0)
  | .error => if pass then (s.transientPass x t.object t.detail).unitPass t else s.unitFail x t.object t.detail none 0 t.remapped t.page

theorem execSelftestDone_runs {i : Nat} {t : RunTest} {tl : List RunTest} (htest : s.svc.tests.drop i = t :: tl) (pass : Bool) :
    execSelftestDone i pass s = .next (((s.advanceTo t.till).onSvc fun v =>
      { v with tests := v.tests.take i ++ v.tests.drop (i + 1) }).testEnds t pass).raisePoints := by
  unfold execSelftestDone
  rw [htest] <;> rfl

theorem execSelftestDone_of_ends {i : Nat} {t : RunTest} {tl : List RunTest} {pass : Bool} {u : State} (htest : s.svc.tests.drop i = t :: tl)
    (hends : ((s.advanceTo t.till).onSvc fun v => { v with tests := v.tests.take i ++ v.tests.drop (i + 1) }).testEnds t pass = u) :
    execSelftestDone i pass s = .next u.raisePoints :=
  (execSelftestDone_runs htest pass).trans (by rw [hends])

section
variable {t : RunTest}

theorem State.testEnds_selftest (hwhy : t.why = .selftest) (pass : Bool) :
    s.testEnds t pass = if pass then s.resolve (wait .selftest t.unit.kind t.unit.phys) []
      else s.failWait (wait .selftest t.unit.kind t.unit.phys) (err 0x1101 0) := by
  simp only [State.testEnds, hwhy]

theorem State.testEnds_error (hwhy : t.why = .error) (pass : Bool) :
    s.testEnds t pass = if pass then (s.transientPass t.unit t.object t.detail).unitPass t
      else s.unitFail t.unit t.object t.detail none 0 t.remapped t.page := by
  simp only [State.testEnds, hwhy]

theorem State.testEnds_readmit (hwhy : t.why = .readmit) (pass : Bool) :
    s.testEnds t pass =
      if pass then (((s.unitBack t.unit).logFault t.unit 4 0 (s.objectOf t.unit) t.detail).backToRun).resolve (wait .readmit t.unit.kind t.unit.phys) []
      else s.failWait (wait .readmit t.unit.kind t.unit.phys) (err 0x1101 0) := by
  simp only [State.testEnds, hwhy]

end

section
variable {i : Nat} {m : PendMove} {tl : List PendMove}

/-- The state in which the i-th move has been taken up. -/
def State.moveTaken (s : State) (i : Nat) : State := s.onSvc fun v => { v with moves := v.moves.take i ++ v.moves.drop (i + 1) }

/-- The unit's work has moved to the spare: the unit is tested, or retired with the verdict that there is. -/
def State.moved (s : State) (m : PendMove) (object : Nat) : State :=
  match m.verdict with
  | none => s.startTest m.unit .error object m.detail false none
  | some o => (s.unitFail m.unit object m.detail o m.flags false none).resolve (wait .retire m.unit.kind m.unit.phys) []

theorem execSpareMove_bound {q : Nat} (hmove : s.svc.moves.drop i = m :: tl) (hbound : s.boundTo m.unit.pq = some q)
    (hready : s.moveReady q m.unit = true) :
    execSpareMove i s = if m.back then .next ((s.moveTaken i).setHole q m.unit 32)
      else .next (((s.moveTaken i).setHole q m.unit (if m.unit.kind = 6 then m.unit.a else m.unit.b)).moved m m.object) := by
  unfold execSpareMove
  rw [hmove]
  simp only [hbound]
  exact if_neg (by simp [hready])

theorem execSpareMove_unbound (hmove : s.svc.moves.drop i = m :: tl) (hbound : s.boundTo m.unit.pq = none) :
    execSpareMove i s = .next (if m.back then s.moveTaken i else (s.moveTaken i).moved m noObject) := by
  unfold execSpareMove
  rw [hmove]
  simp only [hbound] <;> rfl

theorem State.moved_tests (hverdict : m.verdict = none) (object : Nat) :
    s.moved m object = s.startTest m.unit .error object m.detail false none := by
  simp only [State.moved, hverdict]

theorem State.moved_retires {o : Option Nat} (hverdict : m.verdict = some o) (object : Nat) :
    s.moved m object = (s.unitFail m.unit object m.detail o m.flags false none).resolve (wait .retire m.unit.kind m.unit.phys) [] := by
  simp only [State.moved, hverdict]

end

/-! ### Nonces, flash, regions and stalls (R33, R75, R76, R540, R562) -/

theorem execNonceExpiry_issued {src : Src} {b : List Byte} {t : Nat} (hnonce : tget none s.trust.nonces src.key = some (b, t)) :
    execNonceExpiry src s = .next ((s.advanceTo (t + 300 * uS)).onTrust fun x => { x with nonces := terase x.nonces src.key }) := by
  simp only [execNonceExpiry, hnonce]

theorem execFlashOperationDone_release (hheld : (s.heldOn (wait .ownerRelease 0 0)).isSome = true) (ok : Bool) :
    execFlashOperationDone .release ok s =
      .next (if ok then s.release.resolve (wait .ownerRelease 0 0) [] else s.failWait (wait .ownerRelease 0 0) (err Status.imgFlash 0)) :=
  if_neg (by simpa [Option.isSome_iff_ne_none] using hheld)

section
variable {i : Fin 131}

/-- Flash work on a slot fails: the slot is closed and its command gets IMG_FLASH. -/
def State.flashFails (s : State) (i : Nat) (w : Wait) : State := (s.onImg i ImgSlot.failed).failWait w (err Status.imgFlash 0)

theorem execFlashOperationDone_begin (hbegin : s.heldOn (wait .imageBegin i 0) ≠ none) (ok : Bool) :
    execFlashOperationDone (.slot i) ok s = .next (if ok then (s.onImg i.val fun x => { x with begun := true }).resolve (wait .imageBegin i 0) []
      else s.flashFails i (wait .imageBegin i 0)) := if_pos (Option.isSome_iff_ne_none.mpr hbegin)

theorem execFlashOperationDone_commit (hbegin : s.heldOn (wait .imageBegin i 0) = none) (hcommit : s.heldOn (wait .imageCommit i 0) ≠ none) (ok : Bool) :
    execFlashOperationDone (.slot i) ok s = .next (if ok then (((s.onImg i.val fun x =>
        { x.onCopy (x.opened.getD 0) (fun y => { y with valid := true, age := s.dev.imgAge + 1 }) with opened := none, begun := false }).onDev fun d =>
          { d with imgAge := s.dev.imgAge + 1 }).resolve (wait .imageCommit i 0) [])
      else s.flashFails i (wait .imageCommit i 0)) :=
  (if_neg (by simp [hbegin])).trans (if_pos (Option.isSome_iff_ne_none.mpr hcommit))

theorem execFlashOperationDone_erase (hbegin : s.heldOn (wait .imageBegin i 0) = none) (hcommit : s.heldOn (wait .imageCommit i 0) = none)
    (herase : s.heldOn (wait .imageErase i 0) ≠ none) (ok : Bool) :
    execFlashOperationDone (.slot i) ok s = .next (if ok then s.resolve (wait .imageErase i 0) []
      else s.failWait (wait .imageErase i 0) (err Status.imgFlash 0)) :=
  (if_neg (by simp [hbegin])).trans ((if_neg (by simp [hcommit])).trans (if_pos (Option.isSome_iff_ne_none.mpr herase)))

end

theorem execRegionZeroed_allocated {h : Fin 2048} {r : Region} (hregion : tget none s.svc.regions h.val = some r) (hzeroed : r.zeroed = false) :
    execRegionZeroed h s = .next ((s.onSvc fun v => { v with regions := tput none v.regions h.val (some { r with zeroed := true }) }).resolve
      (wait .memAlloc h 0) (leBytes 2 h.val ++ zeros 2)) := by
  unfold execRegionZeroed
  rw [hregion]
  exact if_neg (Bool.eq_false_iff.mp hzeroed)

end

/-- Settles O43: each clause is the law of its row above. -/
theorem eventAndServiceRowsComplete : Obligations.EventAndServiceRowsComplete := by
  refine ⟨fun r v _ hon hup => execEvFireWrite_on hon hup r v, fun _ n _ _ _ hflight => execEventActivation_flies hflight n,
    fun d _ _ hmig hcopied => execPrecopyDone_copies hmig hcopied d, fun _ _ => execMigrationSwitch_ready,
    fun _ _ _ hstage => ⟨execFirmwareStaged_staging hstage true, execFirmwareStaged_staging hstage false⟩, fun _ _ _ => execHandoverPause_waits,
    fun host _ _ _ _ _ hpause => execHandoverReadyTimeout_paused hpause host,
    fun host _ _ _ _ htime => ⟨fun hpause => execNewFirmwareReady_inTime hpause host htime, fun hpause => execNewFirmwareReady_inTime hpause host htime⟩,
    fun _ _ _ => execTrialTimeout_trial, fun _ => ⟨rfl, rfl⟩, ?error,
    ?selftest, ?contained, ?readmit, ?bound, ?unbound, fun _ _ _ _ => execNonceExpiry_issued,
    fun ok _ hheld => execFlashOperationDone_release hheld ok, ?slot, fun _ _ _ => execRegionZeroed_allocated, fun _ _ => rfl⟩
  case error =>
    intro k ph d l pg s hkind hon x hok hret
    have hrow := execErrorDetected_healthy hkind hon hok hret d l pg
    exact ⟨fun hcor => hrow.trans (if_pos hcor), fun hnot => hrow.trans (if_neg hnot)⟩
  case selftest =>
    exact fun i t tl s htest hwhy => ⟨execSelftestDone_of_ends htest (State.testEnds_selftest hwhy true),
      execSelftestDone_of_ends htest (State.testEnds_selftest hwhy false)⟩
  case contained =>
    exact fun i t tl s htest hwhy => ⟨execSelftestDone_of_ends htest (State.testEnds_error hwhy true),
      execSelftestDone_of_ends htest (State.testEnds_error hwhy false)⟩
  case readmit =>
    exact fun i t tl s htest hwhy => ⟨execSelftestDone_of_ends htest (State.testEnds_readmit hwhy true),
      execSelftestDone_of_ends htest (State.testEnds_readmit hwhy false)⟩
  case bound =>
    intro i q m tl s hmove hbound hready s0 s1
    have hrow := execSpareMove_bound hmove hbound hready
    refine ⟨fun hback => hrow.trans (if_pos hback), fun hback hv => (hrow.trans (if_neg (Bool.eq_false_iff.mp hback))).trans ?_,
      fun o hback hv => (hrow.trans (if_neg (Bool.eq_false_iff.mp hback))).trans ?_⟩
    · exact congrArg _ (State.moved_tests hv m.object)
    · exact congrArg _ (State.moved_retires hv m.object)
  case unbound =>
    intro i m tl s hmove hbound s0
    have hrow := execSpareMove_unbound hmove hbound
    refine ⟨fun hback => hrow.trans (congrArg _ (if_pos hback)), fun hback hv => hrow.trans (congrArg _ ((if_neg (Bool.eq_false_iff.mp hback)).trans ?_)),
      fun o hback hv => hrow.trans (congrArg _ ((if_neg (Bool.eq_false_iff.mp hback)).trans ?_))⟩
    · exact State.moved_tests hv noObject
    · exact State.moved_retires hv noObject
  case slot =>
    intro i s fails
    exact ⟨fun hb => ⟨execFlashOperationDone_begin hb true, execFlashOperationDone_begin hb false⟩,
      fun hb hc => ⟨execFlashOperationDone_commit hb hc true, execFlashOperationDone_commit hb hc false⟩,
      fun hb hc he => ⟨execFlashOperationDone_erase hb hc he true, execFlashOperationDone_erase hb hc he false⟩⟩

end Sys2Proof.Machine
end
